-- ==== Sys2Proof/Word.lean ====
section
/-! DEFINITION. The word types of the Varcel VS-420 and their plainest arithmetic. -/

namespace Sys2Proof

/-- One byte of the shared RAM (spec 11_memory_formats.md). -/
abbrev Byte := BitVec 8

/-- One 16-bit word of the shared RAM: the byte at an even address in the low half, the next byte in the
high half (00_scope.md, Addresses). -/
abbrev Word := BitVec 16

/-- A nibble of a cue frame (R129). -/
abbrev Nibble := BitVec 4

/-- The address lines above bit 0: the host bus is 16 bits wide with two byte lanes, so an access names a word
(00_scope.md, Signals), and 20 address bits name 2^19 words. -/
abbrev WordAddr := BitVec 19

/-- The number of bytes of RAM behind the part: 1 MiB (00_scope.md). -/
def ramBytes : Nat := 1048576

end Sys2Proof
end

