-- ==== Sys2Proof/Config.lean ====
section
/-! DEFINITION. The numbers the manual fixes: time limits in microseconds of the part's time base, table sizes, and
the one byte the model chooses (what RAM reads as where nothing was written). -/

namespace Sys2Proof.Config

/-- What a byte of RAM reads as that nothing has written. DESIGN CHOICE (assumption 3): the manual gives RAM no
contents after power-on. unsafe. -/
def unwrittenByte : Byte := 0

/-- R36: 800 ms for a lift. -/
def liftLimit : Nat := 800000
/-- R36, R35: 600 ms for a lowering of a retry or of homing step 1. -/
def lowerLimit : Nat := 600000
/-- R39: 600 ms for a drop. -/
def dropLimit : Nat := 600000
/-- R37, R35: 400 ms from pulse to pulse. -/
def rotateLimit : Nat := 400000
/-- R40: 150 ms of settling. -/
def settleTime : Nat := 150000
/-- R44: 800 ms for a recovery. -/
def recoverLimit : Nat := 800000

/-- R73: the least half-period accepted. -/
def halfPeriodMin : Nat := 7500
/-- R73: the greatest half-period accepted. -/
def halfPeriodMax : Nat := 11000
/-- R74: the time without an accepted crossing after which mains is absent. -/
def mainsLossTime : Nat := 15000
/-- R74, R102: the half-period held after the RESET pin. -/
def defaultHalfPeriod : Nat := 10000

/-- R105: the sensors are read once every 250 ms. -/
def sensorPeriod : Nat := 250000
/-- R109: 2 s without a tach pulse. -/
def tachLimit : Nat := 2000000
/-- R110: 60 s of run-on. -/
def runOnTime : Nat := 60000000
/-- R100: the milliseconds count passes 59,999 after 60,000 ms. -/
def minuteTime : Nat := 60000000

/-- R126: the least in-range interval of the cue line, and the least chip period. -/
def chipMin : Nat := 1282
/-- R126: the greatest in-range interval, and the greatest chip period. -/
def chipMax : Nat := 2381
/-- R126, R149: the chip period after the RESET pin. -/
def chipDefault : Nat := 1667
/-- R126: the length of an acquisition run. -/
def acquireTime : Nat := 100000
/-- R127: the time without a valid transition that loses the carrier. -/
def carrierLossTime : Nat := 500000
/-- R133: the repeat window between two frame ENDs. -/
def repeatWindow : Nat := 400000
/-- R146: one tick of the tape time. -/
def tapeTick : Nat := 10000

/-- R166: one tick of a gain ramp. -/
def gainTick : Nat := 1000

/-- R175: 20 ms of an unbroken level make a panel key DOWN or UP. -/
def debounceTime : Nat := 20000
/-- R174, R180: 250 ms. -/
def repeatGap : Nat := 250000
/-- R180: 4 s of focus run for a key. -/
def focusKeyLimit : Nat := 4000000

/-- R101: the greatest lamp-minutes count. -/
def lampMinutesMax : Nat := 16777215

/-- R76: units of Q in one light level. -/
def unitsPerLevel : Nat := 65536

/-- R93: the built-in curve, P[i] = min(4095, 128 i). -/
def builtinCurve : Vector Nat 33 := Vector.ofFn (fun i => min 4095 (128 * i.val))

/-- R215, R210: the part code and the revision of the identity word. -/
def partCode : Nat := 420
/-- R210. -/
def partRevision : Nat := 1

end Sys2Proof.Config
end

