-- ==== Sys2Proof/Syntax.lean ====
section
/-! DEFINITION. The commands of the VS-420: one constructor of Instr for each row of spec/opcode_table.json, in the
table's order, and the operand types they carry. A command is an access of the host, a level or pulse on a pin, the
end of an access to the RAM, the expiry of one of the part's timers, or an event one block of the part hands to
another. -/

namespace Sys2Proof

/-- What a host write stores: a whole word, or the one byte lane its strobes select (R185). -/
inductive LaneWrite where
  | word (value : Word)
  | low (value : Byte)
  | high (value : Byte)
deriving DecidableEq, Repr

/-- What a host access does: a read, or a write (R184, R185). -/
inductive HostKind where
  | read
  | write (data : LaneWrite)
deriving DecidableEq, Repr

/-- The two writes of the CMD word that are triggers (R202): a word write, which brings the tag with the code, or a
byte write of the low lane, which leaves the tag as the image holds it. -/
inductive CmdStore where
  | word (tag : Byte)
  | lowLane
deriving DecidableEq, Repr

/-- The levels of the input pins that the part reads when the RESET pin is released (R50, R132, R183, R146). -/
structure ResetPins where
  unit : BitVec 3
  trayPresent : Bool
  tray96 : Bool
  armTop : Bool
  armBottom : Bool
  tapeRun : Bool
  keyFwd : Bool
  keyRev : Bool
  keyFocusIn : Bool
  keyFocusOut : Bool
  keyLamp : Bool
deriving DecidableEq, Repr

/-- The five panel keys (R175). -/
inductive PanelKey where
  | fwd | rev | focusIn | focusOut | lamp
deriving DecidableEq, Repr

/-- A completed remote frame but for its key, which the command's row gives (R172). -/
structure RemoteFrame where
  sys : BitVec 5
  toggle : BitVec 1
  check : BitVec 4
deriving DecidableEq, Repr

/-- Where a press of FWD, REV, LAMP or a focus key comes from: a completed remote frame (R173), or a panel key's
input that has been active without a break for the time given, in microseconds (R175). -/
inductive Press where
  | remote (frame : RemoteFrame)
  | panel (activeFor : Nat)
deriving DecidableEq, Repr

/-- A cue frame whose END group has been completed, but for its kind K, which the command's row gives (R129). `intervals`
are those of its transitions in microseconds (R125), from the transition that ends the run of chips with START's first
chip to the one that ends the run with END's last. -/
structure CueFrame where
  u : Nibble
  p2 : Nibble
  p1 : Nibble
  p0 : Nibble
  c1 : Nibble
  c0 : Nibble
  intervals : List Nat
deriving DecidableEq, Repr

/-- One transition on CUE_IN: the tone the line held before it (true the upper tone, a 1-chip) and the time since the
transition before it, in microseconds (R125). -/
structure CueEdge where
  tone : Bool
  interval : Nat
deriving DecidableEq, Repr

/-- One element of REMOTE_IN: a mark or a space, with its length in microseconds (R172). -/
inductive LineElement where
  | mark (len : Nat)
  | space (len : Nat)
deriving DecidableEq, Repr

/-- The two temperature sensors (R105). -/
inductive Sensor where
  | lampHouse | gate
deriving DecidableEq, Repr

/-- How a sensor's read ends (R105). -/
inductive SensorRead where
  | noAnswer
  | badCheck
  | value (celsius : Int)
deriving DecidableEq, Repr

/-- The commands: one constructor per row of spec/opcode_table.json. -/
inductive Instr where
  | resetPinAssert
  | resetPinRelease (pins : ResetPins)
  | nop (store : CmdStore)
  | advance (store : CmdStore)
  | reverse (store : CmdStore)
  | goto (store : CmdStore)
  | clearJam (store : CmdStore)
  | dissolve (store : CmdStore)
  | fade (store : CmdStore)
  | lamp (store : CmdStore)
  | apply (store : CmdStore)
  | lampMinutes (store : CmdStore)
  | clip (store : CmdStore)
  | clipStop (store : CmdStore)
  | hold (store : CmdStore)
  | release (store : CmdStore)
  | inject (store : CmdStore)
  | focus (store : CmdStore)
  | stop (store : CmdStore)
  | reset (store : CmdStore)
  | standby (store : CmdStore)
  | wake (store : CmdStore)
  | badCommand (code : Byte) (store : CmdStore)
  | irqMask (write : LaneWrite)
  | groupMask (write : LaneWrite)
  | mode (write : LaneWrite)
  | blankRate (write : LaneWrite)
  | floor (write : LaneWrite)
  | master (write : LaneWrite)
  | curveSel (write : LaneWrite)
  | volume (write : LaneWrite)
  | duck (write : LaneWrite)
  | td (write : LaneWrite)
  | tt (write : LaneWrite)
  | tr (write : LaneWrite)
  | gateLimit (write : LaneWrite)
  | pc (write : LaneWrite)
  | dwellLimit (write : LaneWrite)
  | slotBase (write : LaneWrite)
  | clipBase (write : LaneWrite)
  | curveBase (write : LaneWrite)
  | ringBase (write : LaneWrite)
  | ringSize (write : LaneWrite)
  | ringRd (write : LaneWrite)
  | cueOptions (write : LaneWrite)
  | remoteOptions (write : LaneWrite)
  | lifeLimit (write : LaneWrite)
  | headerWriteOther (word : BitVec 6) (write : LaneWrite)
  | hostWriteWatched (addr : WordAddr) (kind : HostKind)
  | hostWriteProtected (addr : WordAddr) (write : LaneWrite)
  | statusRead
  | eventsRead
  | hostAccessEnd
  | statusBlockWriteLanded
  | correctionLanded
  | darkEvent
  | armTop (active : Bool)
  | armBottom (active : Bool) (slideSeen : Bool)
  | liftTimeout
  | lowerTimeout
  | indexPulse (home : Bool)
  | rotateTimeout
  | dropTimeout
  | settleEnd
  | recoverTimeout
  | trayRemoved
  | traySeated (tray96 : Bool)
  | recordWordReturned
  | zeroCross
  | mainsLoss
  | substituteHalfCycle
  | rampComplete
  | lampFiring
  | lampCurrent
  | warmingComplete
  | applyTakesEffect
  | curveWordReturned
  | curveSwap
  | lampMinuteTick
  | sensorReadCycle
  | sensorReadDone (sensor : Sensor) (read : SensorRead)
  | fanTach
  | tachWatchExpiry
  | runOnTimeReached
  | dwellLimitReached
  | carrierAcquired (edges : List CueEdge)
  | carrierLost
  | frameError (edges : List CueEdge)
  | cueAdvance (frame : CueFrame)
  | cueReverse (frame : CueFrame)
  | cueGoto (frame : CueFrame)
  | cueDissolve (frame : CueFrame)
  | cueFade (frame : CueFrame)
  | cueLamp (frame : CueFrame)
  | cueClip (frame : CueFrame)
  | cueClipStop (frame : CueFrame)
  | cueHold (frame : CueFrame)
  | cueMark (frame : CueFrame)
  | cueUnknownKind (kind : Nibble) (frame : CueFrame)
  | logWordLanded
  | holdTimerExpiry
  | tapeRun (active : Bool)
  | tapeTimeTick
  | sampleWordReturned
  | sampleDue
  | gainRampTick
  | keyFwd (press : Press)
  | keyRev (press : Press)
  | keyDissolve (frame : RemoteFrame)
  | keyLamp (press : Press)
  | keyStop (frame : RemoteFrame)
  | keyHold (frame : RemoteFrame)
  | keyRelease (frame : RemoteFrame)
  | keyFocusIn (press : Press)
  | keyFocusOut (press : Press)
  | keyClip (number : BitVec 2) (frame : RemoteFrame)
  | keyOther (key : BitVec 6) (frame : RemoteFrame)
  | panelKeyRelease (key : PanelKey) (inactiveFor : Nat)
  | remoteRepeatTimeout
  | focusTimeLimit
  | focusStall
  | acquisitionRunStart (edges : List CueEdge)
  | alignerLock (edges : List CueEdge)
  | alignerReturnToHunt (edges : List CueEdge)
  | remoteFrameAbandoned (elements : List LineElement)
deriving DecidableEq, Repr

end Sys2Proof
end

