-- ==== Sys2Proof/Decode.lean ====
section
/-! DEFINITION. The commands that a word of spec/opcode_table.json spells. The table gives none of its rows any bits
(every row's fields are empty), so no word spells a command. -/

namespace Sys2Proof

/-- No row of the table gives bits: none, whatever the word. -/
def decodeTableWord (_nbits _w : Nat) : Option Instr := none

end Sys2Proof
end

