-- ==== Sys2Proof/Machine/State.lean ====
section
/-! DEFINITION. The state of the VS-420, block by block as the manual's chapters own it, the queue of commands that
wait, and the state right after the RESET pin. All of it is plain data. Times are microseconds on the part's time base,
which starts at 0 when the RESET pin is released (R105). -/

namespace Sys2Proof.Machine

/-! ## Names the blocks share -/

/-- The result codes, in the order of their numbers (11_memory_formats.md, Result codes). -/
inductive ResultCode where
  | ok | aborted | badCommand | badParam | trayOut | jammed | thermalHold | standby | clipInvalid
deriving DecidableEq, Repr

/-- The sixteen events, in the order of their bits (R206, 11_memory_formats.md EVENTS). -/
inductive Event where
  | cmdDone | cmdReject | jam | trayRemoved | positionSlip | lampFailed | lampLife | thermalTrip
  | coolingFault | dwellLimit | mainsLoss | carrierLost | cueFault | shadowStale | protect | underrun
deriving DecidableEq, Repr

/-- The kinds of cue that are sequenced (R3, R134). -/
inductive SeqKind where
  | advance | reverse | goto | dissolve | fade | lamp
deriving DecidableEq, Repr

/-! ## Memory Port (R184) -/

/-- The class of a host write (R186); a read has none. -/
inductive AccessClass where
  | read | header | protectedArea | watched
deriving DecidableEq, Repr

/-- The host bus access now taken (R184): stage WAITING while inRam is false, IN_RAM while it is true. -/
structure HostAccess where
  addr : WordAddr
  kind : HostKind
  cls : AccessClass
  inRam : Bool
deriving DecidableEq, Repr

/-- The requesters of the RAM (R191), and the host's pass-through. -/
inductive Requester where
  | host | clipPlayer | statusWriter | headerMonitor | logWriter | recordShadow | curveLoader
deriving DecidableEq, Repr

/-- The one request each internal requester may have waiting (R191): a byte address for the readers, a word index
for the Status Writer and the Header Monitor, whose data is composed at the grant (R201, R206), and an address with
its data for the Log Writer. -/
structure Requests where
  clipPlayer : Option Nat
  statusWriter : Option Nat
  headerMonitor : Option Nat
  logWriter : Option (Nat × Word)
  recordShadow : Option Nat
  curveLoader : Option Nat
deriving DecidableEq, Repr

/-- The one access the RAM performs (R184). `void` marks an access whose requester has abandoned it: its word is
discarded when it returns, and its landing is followed by no further step (R195). `afterHand` is set on a status write
granted when a command's result had been handed over (R204), `preReset` on one granted before a RESET command (R208). -/
structure RamAccess where
  who : Requester
  addr : Nat
  data : Word
  void : Bool
  afterHand : Bool
  preReset : Bool
deriving DecidableEq, Repr

/-- The Memory Port's state (R184). `backlog` is the model's own: the accesses the host asked for while one was held,
which it starts one at a time as each ends (assumption 6). `readData` is the word last returned to the host (R185). -/
structure Port where
  access : Option HostAccess
  backlog : List HostAccess
  reqs : Requests
  ram : Option RamAccess
  guard : Nat
  readData : Word
deriving DecidableEq, Repr

/-! ## Header Monitor (R198 to R205) -/

/-- The change mode (R199). -/
inductive ChangeMode where
  | dark | opened
deriving DecidableEq, Repr

/-- The curves in RAM (R92). -/
inductive CurveSel where
  | a | b
deriving DecidableEq, Repr

/-- The settings in effect that are not pending ones (R199), and the region map (R184). -/
structure Settings where
  irqMask : Word
  groupMask : BitVec 7
  changeMode : ChangeMode
  skip : Bool
  blankRate : Nat
  td : Nat
  tt : Nat
  tr : Nat
  gateLimit : Nat
  pc : Nat
  dwellLimit : Nat
  slotBase : Nat
  clipBase : Nat
  curveBase : Nat
  ringBase : Nat
  ringSize : Nat
  decoding : Bool
  foreignLog : Bool
  errorLog : Bool
  autoHold : Bool
  sysCode : Nat
  override : Bool
  wakeByRemote : Bool
  lifeLimit : Nat
deriving DecidableEq, Repr

/-- The pending lamp and audio settings, which APPLY hands on (R92, R199). -/
structure PendingSettings where
  f : Nat
  m : Nat
  sel : CurveSel
  volume : Nat
  duck : Nat
deriving DecidableEq, Repr

/-- The states of the command record (R202). -/
inductive RecordState where
  | free | accepted | active | closing
deriving DecidableEq, Repr

/-- The command record (R202). `handed` is set once the command's result has been handed to the Status Writer (R204),
and `toLand` lists the result words (3, 4, 5) whose writes have yet to land. -/
structure CommandRecord where
  state : RecordState
  code : Byte
  tag : Byte
  p1 : Word
  p2 : Word
  p3 : Word
  abortMark : Bool
  discardMark : Bool
  handed : Bool
  toLand : List Nat
deriving DecidableEq, Repr

/-- The Header Monitor's state (R198): images, settings in effect and pending, the last accepted RING_RD, the words
with a correction waiting (rising, no repeats), and the command record. -/
structure Header where
  image : Vector Word 64
  settings : Settings
  pend : PendingSettings
  ringRd : Nat
  corrections : List Nat
  record : CommandRecord
deriving DecidableEq, Repr

/-! ## Status Writer (R206) -/

/-- The Status Writer's state (R206): the words as last written, the dirty set and the set not yet written (each rising,
no repeats), the event latches in the bit order of EVENTS, IRQ pending, RDY, and the values it was handed. -/
structure StatusWriter where
  copy : Vector Word 64
  dirty : List Nat
  unwritten : List Nat
  latches : Word
  irqPending : Bool
  rdy : Bool
  resultTag : Byte
  resultCode : ResultCode
  remaining : Nat
  lastSlot : Nat
  rejectTag : Byte
  fail : Bool
deriving DecidableEq, Repr

/-! ## Cue Executor (R1 to R3) -/

/-- What an action was asked to do (R1, Request). -/
inductive ActionRequest where
  | advance (n : Nat)
  | reverse (n : Nat)
  | goto (slot : Nat)
  | clearJam
  | dissolve (rate : Nat)
  | fade (level rate : Nat)
  | lamp (on : Bool)
deriving DecidableEq, Repr

/-- Where an action came from (R1, source, tag and tape time). -/
inductive Source where
  | command (tag : Byte)
  | remote
  | tape (time : Nat)
  | injected
deriving DecidableEq, Repr

/-- The phases of an action (R1). -/
inductive Phase where
  | blanking | moving | restoring | fadingOut | fadingIn | fading | warming
deriving DecidableEq, Repr

/-- The current action (R1). `issued` tells MOVING with its transport request issued from MOVING that holds it for the
dark event (R9, R20); `stopped` is set by a STOP that waits for the safe point (R20); `silent` by a RESET that aborts a
command-record action (R25); `completion` keeps the transport's remaining count and last slot (R10, R22). -/
structure Action where
  request : ActionRequest
  source : Source
  lit : Bool
  phase : Phase
  restore : Option Nat
  window : Bool
  issued : Bool
  stopped : Bool
  silent : Bool
  completion : Option (Nat × Nat)
deriving DecidableEq, Repr

/-- One entry of the Cue Queue (R3). -/
structure QueueEntry where
  kind : SeqKind
  param : Nat
  injected : Bool
  tapeTime : Nat
deriving DecidableEq, Repr

/-- The Cue Executor's state: the current action (none is IDLE), the Cue Queue, the show level (R15), and whether a
command-record command is pending for the executor (R6). -/
structure CueExecutor where
  action : Option Action
  queue : List QueueEntry
  showLevel : Nat
  pendingCmd : Bool
deriving DecidableEq, Repr

/-! ## Tray Transport (R27 to R29) -/

/-- The transport states (R28). -/
inductive TrayState where
  | trayOut | unhomed | homing | ready | lift | rotate | drop | settle | recover | jammed
deriving DecidableEq, Repr

/-- The gate state (R27). -/
inductive Gate where
  | empty | loaded | unknown
deriving DecidableEq, Repr

/-- The arm position (R27). -/
inductive ArmPos where
  | bottom | top | between
deriving DecidableEq, Repr

/-- An entry of the Presence Map (R49). -/
inductive Presence where
  | unknown | present | empty
deriving DecidableEq, Repr

/-- A direction of rotation (R29). -/
inductive Dir where
  | forward | reverse
deriving DecidableEq, Repr

/-- The steps of HOMING (R35): 1 lower, 2 lift, 3 rotate, 4 drop and settle. -/
inductive HomingStep where
  | lower | lift | rotate | drop | settle
deriving DecidableEq, Repr

/-- The kinds of transport request (R29). -/
inductive TrayKind where
  | advance (n : Nat)
  | reverse (n : Nat)
  | goto (slot : Nat)
  | clearJam
deriving DecidableEq, Repr

/-- A plan: direction, destination, positions to go (R29; absent until planned). -/
structure Plan where
  dir : Dir
  dest : Nat
  toGo : Nat
deriving DecidableEq, Repr

/-- The request in hand (R29). `skipping` tells that the skip option was in effect at its planning (R33). `found` holds the eligible positions of the present leg that the rotation has yet to
reach and `toFind` the eligible positions still to find on it (R33, R38); `homed` marks a request planned after
homing, whose plan of 0 positions ends it (R35). -/
structure TrayRequest where
  kind : TrayKind
  dark : Bool
  plan : Option Plan
  examined : Nat
  stopRequested : Bool
  skipping : Bool
  found : List Nat
  toFind : Nat
  homed : Bool
deriving DecidableEq, Repr

/-- A skip search under way (R33): the position looked at, the eligible positions still to find, and those found. -/
structure Search where
  pos : Nat
  find : Nat
  found : List Nat
deriving DecidableEq, Repr

/-- What the transport waits for at the Record Shadow (R34): nothing, the record of the position its search looks at,
or the record of the destination it has pinned. -/
inductive TrayWait where
  | none
  | search (s : Search)
  | destination
deriving DecidableEq, Repr

/-- The outcomes of a completion event (R10, R29, R44, R45). -/
inductive TrayOutcome where
  | seated | empty | ok | jammed | trayOut | refused | stopped
deriving DecidableEq, Repr

/-- A completion event on its way to the executor (R10, R42). -/
structure TrayCompletion where
  outcome : TrayOutcome
  remaining : Nat
  lastSlot : Nat
deriving DecidableEq, Repr

/-- The Tray Transport's state (R27). `topOn` and `bottomOn` are ARM_TOP and ARM_BOTTOM as they were last read, from
which the arm position follows (Tray.arm). `lowering` tells the retry's lowering from the lift (R36); `timerStart` is when
the present time limit began; `destPin` and `shownPin` name the slots whose records it holds pinned (R34);
`repin` tells that a RESET command dropped the pins of the request in hand, so that its seating makes a pin lookup of its
own (R71); `completion` carries an answer to the executor, which takes it within the same step. -/
structure Tray where
  state : TrayState
  n : Nat
  slot : Nat
  known : Bool
  gate : Gate
  topOn : Bool
  bottomOn : Bool
  presence : Vector Presence 96
  request : Option TrayRequest
  remaining : Nat
  lastSlot : Nat
  retry : Bool
  lowering : Bool
  homingStep : HomingStep
  homingCount : Nat
  timerStart : Nat
  wait : TrayWait
  destPin : Option Nat
  shownPin : Option Nat
  repin : Bool
  completion : Option TrayCompletion
deriving DecidableEq, Repr

/-! ## Record Shadow (R55) -/

/-- The kinds of record (R55). -/
inductive RecKind where
  | slot | clip
deriving DecidableEq, Repr

/-- The fields of a FILLING or VALID entry (R55); the copied words are the length of `copy`. -/
structure EntryData where
  kind : RecKind
  key : Nat
  addr : Nat
  copy : List Word
  pins : Nat
deriving DecidableEq, Repr

/-- One entry of the Watch Table (R55). `lastUse` ranks the VALID entries: the greater, the more recently used. -/
inductive WatchEntry where
  | free
  | filling (d : EntryData)
  | valid (d : EntryData) (stale : Bool) (lastUse : Nat)
deriving DecidableEq, Repr

/-- The Record Shadow's state: the Watch Table, the fetch list with the entry under fetch at its head (R59), and the
stamp the next use of an entry is given. -/
structure Shadow where
  table : Vector WatchEntry 16
  fetchList : List Nat
  useStamp : Nat
deriving DecidableEq, Repr

/-! ## Lamp Drive and Curve Loader (R73 to R103) -/

/-- The lamp states (R87). -/
inductive LampState where
  | off | warming | on | failed | tripped
deriving DecidableEq, Repr

/-- The curve in use (R92). -/
inductive CurveInUse where
  | builtin
  | loaded (c : CurveSel)
deriving DecidableEq, Repr

/-- An active ramp (R76): target and increment in units of Q, direction, whether the current action asked for it, and
the off mark. -/
structure Ramp where
  target : Nat
  increment : Nat
  up : Bool
  byAction : Bool
  offMark : Bool
deriving DecidableEq, Repr

/-- A ramp's completion event on its way (R78, R79). -/
structure RampDone where
  byAction : Bool
  offMark : Bool
deriving DecidableEq, Repr

/-- The Curve Loader in LOADING (R95): the curve and the index of the next point, 0..33. -/
structure Loading where
  curve : CurveSel
  index : Nat
deriving DecidableEq, Repr

/-- A firing of the lamp, scheduled or made (R83): when, and with which drive K. -/
structure Firing where
  time : Nat
  k : Nat
deriving DecidableEq, Repr

/-- The Lamp Drive's and the Curve Loader's state (R73, R76, R86 to R101). `darkOwed` is set while an opening of the
window has had no dark event yet and `darkSent` while the event is on its way to the executor (R86); `firing` is the
firing still to be made in this half-cycle and `fired` the pulse of LAMP_FIRE made in it (R83); `judging` is set from a
firing that is to be judged until it is (R89); `minuteUs` is the milliseconds count in microseconds (R100). -/
structure Lamp where
  mainsPresent : Bool
  lastCross : Nat
  history : List Nat
  h : Nat
  nextSub : Nat
  q : Nat
  ramp : Option Ramp
  rampDone : List RampDone
  state : LampState
  window : Bool
  darkOwed : Bool
  darkSent : Bool
  failures : Nat
  warmCount : Nat
  warmTarget : Nat
  firing : Option Firing
  fired : Option Firing
  judging : Bool
  lout : Nat
  k : Nat
  f : Nat
  m : Nat
  curve : CurveInUse
  bank : Vector Nat 33
  spare : Vector Nat 33
  dirtyA : Bool
  dirtyB : Bool
  loader : Option Loading
  applyRec : Option PendingSettings
  minutes : Nat
  minuteUs : Nat
  lifeReported : Bool
deriving DecidableEq, Repr

/-! ## Thermal Controller (R104) -/

/-- The power state (R118). -/
inductive PowerState where
  | normal | standbyPending | standby
deriving DecidableEq, Repr

/-- The Thermal Controller's state (R104). `readingTh` and `readingTg` show a read under way on SENSE_DATA (R105);
`tachStart` is when the tach watch was started afresh; `runOn` holds when run-on started, while it is active;
`dwellUs` is the dwell timer in microseconds (R114). -/
structure Thermal where
  th : Nat
  tg : Nat
  firstTaken : Bool
  failTh : Nat
  failTg : Nat
  nextRead : Nat
  readingTh : Bool
  readingTg : Bool
  zone : Nat
  duty : Nat
  tachStart : Nat
  fanFault : Bool
  runOn : Option Nat
  overTemp : Bool
  gateFlag : Bool
  dwellUs : Nat
  dwellFlag : Bool
  c : Nat
  ce : Nat
  power : PowerState
deriving DecidableEq, Repr

/-! ## Cue Track Decoder, Log Writer, Tape Deck Control (R124, R138, R143) -/

/-- The carrier state (R124). -/
inductive Carrier where
  | absent | acquiring | present
deriving DecidableEq, Repr

/-- The frame state (R124, R129). -/
inductive FrameState where
  | between | collecting | awaitingEnd
deriving DecidableEq, Repr

/-- The last accepted frame (R133): its seven nibbles U, K, P2, P1, P0, C1, C0 and the time of its END. -/
structure AcceptedFrame where
  nibbles : List Nat
  endTime : Nat
deriving DecidableEq, Repr

/-- The Cue Track Decoder's state (R124). `fields` are the data nibbles of the frame under assembly, so their number is
the data-group count; `tapeUs` is the part of the next tape-time tick that has passed. -/
structure CueTrack where
  carrier : Carrier
  period : Nat
  runStart : Nat
  runIntervals : List Nat
  lastValid : Nat
  lastTransition : Nat
  locked : Bool
  window : List Bool
  group : List Bool
  spoiled : Bool
  frame : FrameState
  fields : List Nat
  lastAccepted : Option AcceptedFrame
  good : Nat
  bad : Nat
  repeats : Nat
  tapeTime : Nat
  tapeUs : Nat
deriving DecidableEq, Repr

/-- The causes of a frame error, in the order of their numbers (R131, 11_memory_formats.md). -/
inductive FrameCause where
  | invalidGroup | truncated | noEnd | check
deriving DecidableEq, Repr

/-- The flags of a CUE record (R134). -/
structure CueFlags where
  dropped : Bool
  unknownKind : Bool
  badParam : Bool
  injected : Bool
deriving DecidableEq, Repr

/-- A cue-log record (R138). -/
inductive LogRecord where
  | cue (flags : CueFlags) (u k param tapeTime : Nat)
  | foreign (injected : Bool) (u k param tapeTime : Nat)
  | frameError (cause : FrameCause) (count tapeTime : Nat)
  | execFail (injected : Bool) (k : Nat) (result : ResultCode) (tapeTime : Nat)
deriving DecidableEq, Repr

/-- The Log Writer's state (R138): `writing` is none when IDLE, and in WRITING the words of the record that have
landed. -/
structure LogWriter where
  staging : List LogRecord
  w : Nat
  rd : Nat
  pendingRd : Option Nat
  writing : Option Nat
  overflow : Nat
deriving DecidableEq, Repr

/-- Tape Deck Control's state (R143, R144): the pause holders, when the hold timer runs out (while it runs), and the
TAPE_RUN input. -/
structure Deck where
  auto : Bool
  cue : Bool
  host : Bool
  remote : Bool
  holdUntil : Option Nat
  tapeRun : Bool
deriving DecidableEq, Repr

/-! ## Clip Player (R151) -/

/-- The player states (R151). -/
inductive PlayerState where
  | idle | fetching | playing | fadingOut
deriving DecidableEq, Repr

/-- The sources of a start request (R152). -/
inductive ClipSource where
  | tape (time : Nat)
  | injected
  | command (tag : Byte)
  | remote
  | linked
deriving DecidableEq, Repr

/-- A start request (R152); `queueMode` is QUEUE, its absence CUT. -/
structure ClipRequest where
  clip : Nat
  queueMode : Bool
  source : ClipSource
deriving DecidableEq, Repr

/-- A clip descriptor as the part uses it (R53). -/
structure Descriptor where
  start : Nat
  length : Nat
  rate : Nat
  gain : Nat
  loop : Bool
deriving DecidableEq, Repr

/-- The playing clip (R151). -/
structure PlayingClip where
  clip : Nat
  source : ClipSource
  desc : Descriptor
deriving DecidableEq, Repr

/-- An entry of the clip queue (R154): the clip, its source, the pinned copy, and whether a pin is held. -/
structure ClipEntry where
  clip : Nat
  source : ClipSource
  copy : List Word
  pinned : Bool
deriving DecidableEq, Repr

/-- The start record (R153): the request being served, its copy once answered valid, and whether a pin is held. -/
structure StartRecord where
  request : ClipRequest
  copy : Option (List Word)
  pinned : Bool
deriving DecidableEq, Repr

/-- A gain ramp (R166). -/
structure GainRamp where
  g0 : Nat
  gt : Nat
  ticks : Nat
  start : Nat
deriving DecidableEq, Repr

/-- The Clip Player's state (R151). `sampleBase` is when the first sample of the present timing was due and `samples`
how many have fallen due since (R159). -/
structure ClipPlayer where
  state : PlayerState
  playing : Option PlayingClip
  fetchAddr : Nat
  toFetch : Nat
  fetchDone : Bool
  inFlight : Bool
  priming : Bool
  underrunReported : Bool
  fadeCount : Nat
  lastOutput : Int
  fifo : List Int
  queue : List ClipEntry
  requests : List ClipRequest
  start : Option StartRecord
  volume : Nat
  duck : Nat
  gain : Nat
  gainRamp : Option GainRamp
  underruns : Nat
  sampleBase : Nat
  samples : Nat
deriving DecidableEq, Repr

/-! ## Remote Receiver (R171) -/

/-- The line state (R171). -/
inductive LineState where
  | waiting | leader | bits | closing
deriving DecidableEq, Repr

/-- The last frame accepted (R171, R173). -/
structure LastFrame where
  sys : Nat
  key : Nat
  toggle : Nat
  endTime : Nat
deriving DecidableEq, Repr

/-- A panel key (R175). `heldAtPin` marks a key whose input was active when the RESET pin was released, which becomes
DOWN without a press (R183). -/
structure PanelKeyState where
  down : Bool
  heldAtPin : Bool
deriving DecidableEq, Repr

/-- The one-shot keys (R178). -/
inductive OneShot where
  | dissolve | lamp
deriving DecidableEq, Repr

/-- The owners of a focus run (R180). -/
inductive FocusOwner where
  | remote | panel | command
deriving DecidableEq, Repr

/-- A focus run (R180): `start` and `lastRepeat` are times, `limit` a length. -/
structure FocusRun where
  inward : Bool
  owner : FocusOwner
  start : Nat
  limit : Nat
  lastRepeat : Nat
deriving DecidableEq, Repr

/-- The Remote Receiver's state (R171). `markSeen` is set in LEADER when the leader mark has been seen and in BITS and
CLOSING when the mark of the element awaited has been seen. -/
structure Remote where
  line : LineState
  bits : List Bool
  markSeen : Bool
  lastFrame : Option LastFrame
  keyFwd : PanelKeyState
  keyRev : PanelKeyState
  keyFocusIn : PanelKeyState
  keyFocusOut : PanelKeyState
  keyLamp : PanelKeyState
  netCount : Int
  oneShot : Option OneShot
  focus : Option FocusRun
deriving DecidableEq, Repr

/-! ## The whole part -/

/-- The state of the VS-420 and of the RAM behind it, the RESET pin, the unit number read from the straps (R132), the
time base, and the commands that wait, first in, first out. -/
structure State where
  mem : List Host.Cell
  port : Port
  hdr : Header
  sw : StatusWriter
  cx : CueExecutor
  tray : Tray
  shadow : Shadow
  lamp : Lamp
  thermal : Thermal
  cue : CueTrack
  log : LogWriter
  deck : Deck
  clip : ClipPlayer
  remote : Remote
  unit : BitVec 3
  resetHeld : Bool
  now : Nat
  pending : List Instr
deriving DecidableEq, Repr

/-- Why a step can stop with a fault. None: the manual gives every command an effect in every state, and the part has
no fault that stops it. safe: nobody raises one. -/
inductive Fault
deriving DecidableEq, Repr

/-- Why a step can be refused. -/
inductive Refusal where
  /-- A command whose arm of exec has no meaning yet, by its mnemonic. No arm answers with it; safe. -/
  | notModelled (mnemonic : String)
deriving DecidableEq, Repr

/-- A step's answer. -/
abbrev Result := Host.Outcome State Fault Refusal

/-! ## Reset -/

/-- The header settings after the RESET pin (R199, R121, R210). -/
def Settings.default : Settings where
  irqMask := 0
  groupMask := 0
  changeMode := .dark
  skip := false
  blankRate := 5
  td := 95
  tt := 120
  tr := 70
  gateLimit := 75
  pc := 640
  dwellLimit := 120
  slotBase := 0
  clipBase := 0
  curveBase := 0
  ringBase := 0
  ringSize := 64
  decoding := false
  foreignLog := false
  errorLog := false
  autoHold := false
  sysCode := 0
  override := false
  wakeByRemote := false
  lifeLimit := 0

/-- The pending settings after the RESET pin (R92, R199). -/
def PendingSettings.default : PendingSettings where
  f := 64
  m := 256
  sel := .a
  volume := 192
  duck := 64

/-- The images after the RESET pin: the defaults of the setting words and 0 for the others (R210). -/
def Header.defaultImage : Vector Word 64 :=
  Vector.ofFn (fun i => match i.val with
    | 7 => 5
    | 8 => 64
    | 9 => 256
    | 11 => 192
    | 12 => 64
    | 16 => 95
    | 17 => 120
    | 18 => 70
    | 19 => 75
    | 20 => 640
    | 21 => 120
    | 32 => 64
    | _ => 0)

/-- The command record when FREE. -/
def CommandRecord.idle : CommandRecord where
  state := .free
  code := 0
  tag := 0
  p1 := 0
  p2 := 0
  p3 := 0
  abortMark := false
  discardMark := false
  handed := false
  toLand := []

/-- No request of any requester waits (R196). -/
def Requests.empty : Requests where
  clipPlayer := Option.none
  statusWriter := Option.none
  headerMonitor := Option.none
  logWriter := Option.none
  recordShadow := Option.none
  curveLoader := Option.none

/-- The machine right after the RESET pin, as the chapters' reset rules give it (R24, R50, R69, R102, R122, R149, R170,
R171, R196, R210), for a part with its input pins inactive and its straps at 0 (assumption 4: no tray seated, so the
state is TRAY_OUT with N 48; both limit switches inactive). No access is held, and every Status Block word is dirty. DESIGN
CHOICE, unsafe: what those rules give no value is 0, empty or clear; of R149's unit these are the last valid transition,
the acquisition run with its start and intervals, the group under assembly and the frame fields of R124 (assumption
43). -/
def State.reset : State where
  mem := []
  port :=
    { access := none, backlog := [], guard := 0, readData := 0
      reqs := Requests.empty, ram := none }
  hdr :=
    { image := Header.defaultImage, settings := Settings.default, pend := PendingSettings.default, ringRd := 0
      corrections := [], record := CommandRecord.idle }
  sw :=
    { copy := Vector.replicate 64 0, dirty := List.range 64, unwritten := List.range 64, latches := 0
      irqPending := false, rdy := false, resultTag := 0, resultCode := .ok, remaining := 0, lastSlot := 0
      rejectTag := 0, fail := false }
  cx := { action := none, queue := [], showLevel := 1023, pendingCmd := false }
  tray :=
    { state := .trayOut, n := 48, slot := 0, known := false, gate := .unknown, topOn := false
      bottomOn := false, presence := Vector.replicate 96 .unknown, request := none, remaining := 0, lastSlot := 0, retry := false
      lowering := false, homingStep := .lower, homingCount := 0, timerStart := 0, wait := .none
      destPin := none, shownPin := none, repin := false, completion := none }
  shadow := { table := Vector.replicate 16 .free, fetchList := [], useStamp := 0 }
  lamp :=
    { mainsPresent := false, lastCross := 0, history := List.replicate 8 10000, h := 10000, nextSub := 10000
      q := 0, ramp := none, rampDone := [], state := .off, window := false, darkOwed := false, darkSent := false
      failures := 0, warmCount := 0, warmTarget := 0, firing := none, fired := none, judging := false, lout := 0, k := 0
      f := 64, m := 256, curve := .builtin, bank := Config.builtinCurve, spare := Config.builtinCurve
      dirtyA := false, dirtyB := false, loader := none, applyRec := none, minutes := 0, minuteUs := 0
      lifeReported := false }
  thermal :=
    { th := 0, tg := 0, firstTaken := false, failTh := 0, failTg := 0, nextRead := 250000, readingTh := false
      readingTg := false, zone := 0, duty := 30, tachStart := 0, fanFault := false, runOn := none, overTemp := false
      gateFlag := false, dwellUs := 0, dwellFlag := false, c := 1023, ce := 1023, power := .normal }
  cue :=
    { carrier := .absent, period := 1667, runStart := 0, runIntervals := [], lastValid := 0, lastTransition := 0
      locked := false, window := [], group := [], spoiled := false, frame := .between, fields := []
      lastAccepted := none, good := 0, bad := 0, repeats := 0, tapeTime := 0, tapeUs := 0 }
  log := { staging := [], w := 0, rd := 0, pendingRd := none, writing := none, overflow := 0 }
  deck := { auto := false, cue := false, host := false, remote := false, holdUntil := none, tapeRun := false }
  clip :=
    { state := .idle, playing := none, fetchAddr := 0, toFetch := 0, fetchDone := false, inFlight := false
      priming := false, underrunReported := false, fadeCount := 0, lastOutput := 0, fifo := [], queue := []
      requests := [], start := none, volume := 192, duck := 64, gain := 192, gainRamp := none, underruns := 0
      sampleBase := 0, samples := 0 }
  remote :=
    { line := .waiting, bits := [], markSeen := false, lastFrame := none
      keyFwd := { down := false, heldAtPin := false }, keyRev := { down := false, heldAtPin := false }
      keyFocusIn := { down := false, heldAtPin := false }, keyFocusOut := { down := false, heldAtPin := false }
      keyLamp := { down := false, heldAtPin := false }, netCount := 0, oneShot := none, focus := none }
  unit := 0
  resetHeld := false
  now := 0
  pending := []

end Sys2Proof.Machine
end

