-- ==== Sys2Proof/Machine/Operands.lean ====
section
/-! DEFINITION. The operand forms: bytes and words, the lanes of a host write, the fields of a slot record, a clip
descriptor, a cue frame, a header word, and the codes and keys of the commands (11_memory_formats.md). -/

namespace Sys2Proof.Machine

/-! ## Bytes, words and numbers -/

/-- The low half of a word: bits 0..7. -/
def loByte (w : Word) : Byte := w.extractLsb' 0 8

/-- The high half of a word: bits 8..15. -/
def hiByte (w : Word) : Byte := w.extractLsb' 8 8

/-- The word of two bytes, the low half first. -/
def joinBytes (lo hi : Byte) : Word := hi ++ lo

/-- A 16-bit word of a number. -/
def wordOf (n : Nat) : Word := BitVec.ofNat 16 n

/-- The field of `width` bits from bit `lo` of a word, as a number. -/
def fieldOf (w : Word) (lo width : Nat) : Nat := (w.toNat >>> lo) % 2 ^ width

/-- One bit of a word. -/
def bitOf (w : Word) (i : Nat) : Bool := w.getLsbD i

/-- A flag as a number. -/
def flagNat (b : Bool) : Nat := if b then 1 else 0

/-- The nearest bound of lo..hi (R199). -/
def clampTo (lo hi n : Nat) : Nat := if n < lo then lo else if hi < n then hi else n

/-- A counter that stays at 65,535 once it has reached it (R124, R151, R215). -/
def countUp (n : Nat) : Nat := if n < 65535 then n + 1 else n

/-- a / b rounded to the nearest whole number, halves up (00_scope.md, Arithmetic). -/
def roundDiv (a b : Nat) : Nat := (2 * a + b) / (2 * b)

/-- A byte as a signed value. -/
def signedByte (b : Byte) : Int := b.toInt

/-! ## Host writes -/

/-- The word a write leaves where `old` stood: a byte write keeps the other lane (R185, R198). -/
def LaneWrite.over (w : LaneWrite) (old : Word) : Word :=
  match w with
  | .word v => v
  | .low v => joinBytes v (hiByte old)
  | .high v => joinBytes (loByte old) v

/-- Whether a write stores the low lane. -/
def LaneWrite.storesLow : LaneWrite → Bool
  | .word _ => true
  | .low _ => true
  | .high _ => false

/-- The bytes a write stores at word address a, as a range of one or two bytes (R64): first address and number. -/
def LaneWrite.bytes (w : LaneWrite) (a : WordAddr) : Nat × Nat :=
  match w with
  | .word _ => (2 * a.toNat, 2)
  | .low _ => (2 * a.toNat, 1)
  | .high _ => (2 * a.toNat + 1, 1)

/-- The write of CMD that triggers the command of a code (R202). -/
def CmdStore.write (st : CmdStore) (code : Byte) : LaneWrite :=
  match st with
  | .word tag => .word (joinBytes code tag)
  | .lowLane => .low code

/-- The word address of header word i (11_memory_formats.md, The Show Header). -/
def headerAddr (i : Nat) : WordAddr := BitVec.ofNat 19 i

/-! ## Command codes (R203) -/

def codeNop : Byte := 0x00
def codeAdvance : Byte := 0x10
def codeReverse : Byte := 0x11
def codeGoto : Byte := 0x12
def codeClearJam : Byte := 0x13
def codeDissolve : Byte := 0x20
def codeFade : Byte := 0x21
def codeLamp : Byte := 0x22
def codeApply : Byte := 0x23
def codeLampMinutes : Byte := 0x24
def codeClip : Byte := 0x30
def codeClipStop : Byte := 0x31
def codeHold : Byte := 0x40
def codeRelease : Byte := 0x41
def codeInject : Byte := 0x42
def codeFocus : Byte := 0x50
def codeStop : Byte := 0x60
def codeReset : Byte := 0x61
def codeStandby : Byte := 0x62
def codeWake : Byte := 0x63

/-- The codes of the table of R203. -/
def definedCodes : List Byte :=
  [codeNop, codeAdvance, codeReverse, codeGoto, codeClearJam, codeDissolve, codeFade, codeLamp, codeApply,
   codeLampMinutes, codeClip, codeClipStop, codeHold, codeRelease, codeInject, codeFocus, codeStop, codeReset,
   codeStandby, codeWake]

/-- The codes the Cue Executor takes (R6, R203). -/
def executorCodes : List Byte :=
  [codeAdvance, codeReverse, codeGoto, codeClearJam, codeDissolve, codeFade, codeLamp]

/-! ## Numbers of result codes and events -/

/-- The number of a result code (11_memory_formats.md). -/
def ResultCode.num : ResultCode → Nat
  | .ok => 0
  | .aborted => 1
  | .badCommand => 2
  | .badParam => 3
  | .trayOut => 4
  | .jammed => 5
  | .thermalHold => 6
  | .standby => 7
  | .clipInvalid => 8

/-- The bit of an event in EVENTS and IRQ_MASK (11_memory_formats.md). -/
def Event.bit : Event → Nat
  | .cmdDone => 0
  | .cmdReject => 1
  | .jam => 2
  | .trayRemoved => 3
  | .positionSlip => 4
  | .lampFailed => 5
  | .lampLife => 6
  | .thermalTrip => 7
  | .coolingFault => 8
  | .dwellLimit => 9
  | .mainsLoss => 10
  | .carrierLost => 11
  | .cueFault => 12
  | .shadowStale => 13
  | .protect => 14
  | .underrun => 15

/-! ## Records in RAM (R52, R53, 11.3) -/

/-- The skip flag of a slot record's copy: bit 0 of byte 1. -/
def slotSkip (copy : List Word) : Bool := bitOf (copy.getD 0 0) 8

/-- The trim T of a slot record's copy: byte 0 signed, held within −64..+63 (R52). -/
def slotTrim (copy : List Word) : Int := max (-64) (min 63 (signedByte (loByte (copy.getD 0 0))))

/-- The linked clip of a slot record's copy: bits 0..5 of byte 2, when its bit 7 is set (R52). -/
def slotLinkedClip (copy : List Word) : Option Nat :=
  if bitOf (copy.getD 1 0) 7 then some (fieldOf (copy.getD 1 0) 0 6) else none

/-- The default slot record: skip no, trim 0, linked clip absent (R52). -/
def defaultSlotCopy : List Word := [0, 0]

/-- A clip descriptor's copy read as R53 lays down; the lowest bit of the start is ignored. -/
def descriptorOf (copy : List Word) : Descriptor where
  start := fieldOf (copy.getD 1 0) 0 4 * 65536 + (fieldOf (copy.getD 0 0) 1 15) * 2
  length := fieldOf (copy.getD 3 0) 0 4 * 65536 + (copy.getD 2 0).toNat
  rate := fieldOf (copy.getD 3 0) 4 2
  gain := fieldOf (copy.getD 3 0) 8 8
  loop := bitOf (copy.getD 3 0) 6

/-- R156: a descriptor is invalid when its length is 0, its rate code is 3, its start is below 0x00100 or its last
sample lies above 0xFFFFF. -/
def descriptorValid (d : Descriptor) : Bool :=
  d.length != 0 && d.rate != 3 && decide (256 ≤ d.start) && decide (d.start + d.length - 1 < ramBytes)

/-- Samples per second of a rate code (R53). -/
def sampleRate (rate : Nat) : Nat :=
  match rate with
  | 0 => 8000
  | 1 => 11025
  | _ => 16000

/-- The fade count of a rate code (R162). -/
def fadeLength (rate : Nat) : Nat :=
  match rate with
  | 0 => 80
  | 1 => 110
  | _ => 160

/-- Where a record lies (R54). -/
def recordAddr (kind : RecKind) (key base : Nat) : Nat :=
  match kind with
  | .slot => base + 4 * key
  | .clip => base + 8 * key

/-- How many words a record is long (R54, R55). -/
def recordLength : RecKind → Nat
  | .slot => 2
  | .clip => 4

/-! ## Regions (R189) -/

/-- Two extents share a byte when each starts below the other's end (R189). -/
def overlaps (a alen b blen : Nat) : Bool := decide (a < b + blen) && decide (b < a + alen)

/-- The extent of the slot table in bytes (R189). -/
def slotExtent : Nat := 384
/-- The extent of the clip table in bytes (R189). -/
def clipExtent : Nat := 512
/-- The extent of the two curves in bytes (R189). -/
def curveExtent : Nat := 132
/-- The extent of one curve in bytes (R95, R96). -/
def oneCurve : Nat := 66
/-- The extent of the cue ring in bytes (R189). -/
def ringExtent (size : Nat) : Nat := 8 * size

/-- Where a curve lies (R95). -/
def curveAddr (base : Nat) : CurveSel → Nat
  | .a => base
  | .b => base + oneCurve

/-! ## Cue frames (R129, R130, R134) -/

/-- The parameter 256 × P2 + 16 × P1 + P0. -/
def cueParam (p2 p1 p0 : Nat) : Nat := 256 * p2 + 16 * p1 + p0

/-- The check value (R130). -/
def cueCheck (u k p2 p1 p0 : Nat) : Nat := (1 * u + 2 * k + 3 * p2 + 4 * p1 + 5 * p0) % 256

/-- The seven nibbles of a frame, in the order U, K, P2, P1, P0, C1, C0 (R129). -/
def CueFrame.nibbles (fr : CueFrame) (k : Nat) : List Nat :=
  [fr.u.toNat, k, fr.p2.toNat, fr.p1.toNat, fr.p0.toNat, fr.c1.toNat, fr.c0.toNat]

/-- The patterns of the data nibbles 0..15, read as six-bit numbers, the first chip most significant (11.5). -/
def nibblePatterns : List Nat :=
  [0b001011, 0b001101, 0b001110, 0b010011, 0b010110, 0b011001, 0b011010, 0b011100,
   0b100011, 0b100101, 0b100110, 0b101001, 0b101100, 0b110001, 0b110010, 0b110100]

/-- START, END and FILL (11.5). -/
def startPattern : Nat := 0b000111
def endPattern : Nat := 0b111000
def fillPattern : Nat := 0b101010

/-- The six chips of a pattern, in the order they arrive. -/
def patternChips (n : Nat) : List Bool := (List.range 6).map fun i => n.testBit (5 - i)

/-- The chips of a frame of this kind from its START to its END (11.5). -/
def CueFrame.chips (fr : CueFrame) (k : Nat) : List Bool :=
  patternChips startPattern
    ++ (CueFrame.nibbles fr k).flatMap (fun v => patternChips (nibblePatterns.getD v 0))
    ++ patternChips endPattern

/-- How many runs of one tone a list of chips holds: each ends with a transition (R125). -/
def toneRuns : List Bool → Nat
  | [] => 0
  | [_] => 1
  | a :: b :: rest => toneRuns (b :: rest) + if a = b then 0 else 1

/-- Whether an interval of n chips is valid against P (R125). -/
def chipsValid (n interval p : Nat) : Bool :=
  decide (1 ≤ n) && decide (n ≤ 6)
    && decide (4 * (interval - n * p) ≤ p) && decide (4 * (n * p - interval) ≤ p)

/-- P after a valid transition of n chips (R125). -/
def trackPeriod (p n interval : Nat) : Nat := clampTo Config.chipMin Config.chipMax ((7 * p * n + interval) / (8 * n))

/-- P after transitions with these intervals, in order: a valid one moves it, an invalid one leaves it (R125). -/
def trackPeriods (intervals : List Nat) (p : Nat) : Nat :=
  intervals.foldl (fun p i => if chipsValid (roundDiv i p) i p then trackPeriod p (roundDiv i p) i else p) p

/-- The kinds K (R134). -/
def kindAdvance : Nat := 1
def kindReverse : Nat := 2
def kindGoto : Nat := 3
def kindDissolve : Nat := 4
def kindFade : Nat := 5
def kindLamp : Nat := 6
def kindClip : Nat := 7
def kindClipStop : Nat := 8
def kindHold : Nat := 9
def kindMark : Nat := 10

/-- The sequenced kind a K names, if it is one (R134). -/
def seqKindOf (k : Nat) : Option SeqKind :=
  match k with
  | 1 => some .advance
  | 2 => some .reverse
  | 3 => some .goto
  | 4 => some .dissolve
  | 5 => some .fade
  | 6 => some .lamp
  | _ => none

/-- The kind K of an action, for its EXEC_FAIL record (R22). CLEAR_JAM has none: no tape action asks for it. -/
def ActionRequest.cueKind : ActionRequest → Nat
  | .advance _ => kindAdvance
  | .reverse _ => kindReverse
  | .goto _ => kindGoto
  | .clearJam => 0
  | .dissolve _ => kindDissolve
  | .fade _ _ => kindFade
  | .lamp _ => kindLamp

/-- The number of a frame error's cause (11.4). -/
def FrameCause.num : FrameCause → Nat
  | .invalidGroup => 0
  | .truncated => 1
  | .noEnd => 2
  | .check => 3

/-- The four words of a cue ring record (11.4). -/
def LogRecord.words : LogRecord → List Word
  | .cue fl u k p t =>
    [wordOf (0 + 16 * flagNat fl.dropped + 32 * flagNat fl.unknownKind + 64 * flagNat fl.badParam
        + 128 * flagNat fl.injected),
     wordOf (u + 16 * k), wordOf p, wordOf t]
  | .foreign inj u k p t => [wordOf (1 + 128 * flagNat inj), wordOf (u + 16 * k), wordOf p, wordOf t]
  | .frameError c n t => [wordOf 2, wordOf (c.num + 16 * n), 0, wordOf t]
  | .execFail inj k r t => [wordOf (3 + 128 * flagNat inj), wordOf (16 * k), wordOf r.num, wordOf t]

/-! ## Remote keys (11.6) -/

def keyCodeFwd : Nat := 1
def keyCodeRev : Nat := 2
def keyCodeDissolve : Nat := 3
def keyCodeLamp : Nat := 4
def keyCodeStop : Nat := 5
def keyCodeHold : Nat := 6
def keyCodeRelease : Nat := 7
def keyCodeFocusIn : Nat := 8
def keyCodeFocusOut : Nat := 9
/-- CLIP0..CLIP3 are 16..19. -/
def keyCodeClip : Nat := 16

/-- The key codes of the table. -/
def keyCodes : List Nat :=
  [keyCodeFwd, keyCodeRev, keyCodeDissolve, keyCodeLamp, keyCodeStop, keyCodeHold, keyCodeRelease, keyCodeFocusIn,
   keyCodeFocusOut, 16, 17, 18, 19]

/-- The check of a remote frame is right when it equals (system code + key + toggle) mod 16 (R173). -/
def remoteCheckOk (sys key toggle check : Nat) : Bool := check == (sys + key + toggle) % 16

/-- A number of bits, most significant first (R172). -/
def bitsNat (bs : List Bool) : Nat := bs.foldl (fun n b => 2 * n + flagNat b) 0

end Sys2Proof.Machine
end

