-- ==== Sys2Proof/Machine/Flags.lean ====
section
/-! DEFINITION. What the part shows: the flags and fields of the Status Block words (11.2, R206, R215), and the lines
and drives that follow from the state. -/

namespace Sys2Proof.Machine

/-- The number of a lamp state in STATUS. -/
def LampState.num : LampState → Nat
  | .off => 0
  | .warming => 1
  | .on => 2
  | .failed => 3
  | .tripped => 4

/-- The number of a transport state in STATUS. -/
def TrayState.num : TrayState → Nat
  | .trayOut => 0
  | .unhomed => 1
  | .homing => 2
  | .ready => 3
  | .lift => 4
  | .rotate => 5
  | .drop => 6
  | .settle => 7
  | .recover => 8
  | .jammed => 9

/-- The number of a power state in STATUS. -/
def PowerState.num : PowerState → Nat
  | .normal => 0
  | .standbyPending => 1
  | .standby => 2

/-- The number of a gate state in POSITION. -/
def Gate.num : Gate → Nat
  | .empty => 0
  | .loaded => 1
  | .unknown => 2

/-- The number of a Presence entry. -/
def Presence.num : Presence → Nat
  | .unknown => 0
  | .present => 1
  | .empty => 2

/-- The number of a player state in CLIP. -/
def PlayerState.num : PlayerState → Nat
  | .idle => 0
  | .fetching => 1
  | .playing => 2
  | .fadingOut => 3

/-- PROG: cue decoding is enabled and the carrier is present (R23). -/
def State.prog (s : State) : Bool := s.hdr.settings.decoding && decide (s.cue.carrier = .present)

/-- PAUSE is driven while the set of pause holders is not empty (R143). -/
def Deck.paused (d : Deck) : Bool := d.auto || d.cue || d.host || d.remote

/-- EXEC: the executor holds a current action (R1). -/
def CueExecutor.busy (c : CueExecutor) : Bool := c.action.isSome

/-- ATTN: some event is latched (R206). -/
def StatusWriter.attn (w : StatusWriter) : Bool := decide (w.latches ≠ 0)

/-- CMDW as STATUS is composed: clear when FREE, for a discarded command (R205), and once the last of the three result
words has landed (R204); set otherwise. -/
def CommandRecord.cmdw (r : CommandRecord) : Bool :=
  decide (r.state ≠ .free) && !r.discardMark && !(r.handed && r.toLand.isEmpty)

/-- The IRQ line is driven while IRQ pending is set (R208). -/
def State.irqLine (s : State) : Bool := s.sw.irqPending

/-- WAIT is active while the host's access waits for its grant (R185). -/
def State.waitLine (s : State) : Bool :=
  match s.port.access with
  | some a => !a.inRam
  | none => false

/-- The arm position (R27): BOTTOM while ARM_BOTTOM is active, TOP while ARM_TOP is active, BETWEEN otherwise. DESIGN
CHOICE, unsafe: while both are active, where R27 gives both values, it is BOTTOM (assumption 71). -/
def Tray.arm (t : Tray) : ArmPos := if t.bottomOn then .bottom else if t.topOn then .top else .between

/-- TRAY_LOCK is released only in READY at position 0 with the arm at its bottom limit (R46). -/
def Tray.lockReleased (t : Tray) : Bool :=
  decide (t.state = .ready) && decide (t.slot = 0) && decide (t.arm = .bottom)

/-- The tray motor's direction, when it runs (R28, R37, R38): the rotation of ROTATE while no record is waited for, and
the forward rotation of homing. -/
def Tray.motor (t : Tray) : Option Dir :=
  match t.state, t.request with
  | .rotate, some r => if t.wait = .none then r.plan.map (·.dir) else none
  | .homing, _ => if t.homingStep = .rotate then some .forward else none
  | _, _ => none

/-- The lift-arm drive, up or down, when it is driven (R28, R35, R36, R39, R44). -/
def Tray.armDrive (t : Tray) : Option Bool :=
  match t.state with
  | .lift => some (!t.lowering)
  | .drop => some false
  | .recover => some false
  | .homing =>
    match t.homingStep with
    | .lower => some false
    | .lift => some (!t.lowering)
    | .drop => some false
    | _ => none
  | _ => none

/-- The two focus drives, in and out: never active together (R180). -/
def Remote.drives (r : Remote) : Bool × Bool :=
  match r.focus with
  | some run => (run.inward, !run.inward)
  | none => (false, false)

/-- Dark (R85): the lamp is not ON, or mains is absent, or the latest Lout is at most the floor F in effect. -/
def Lamp.dark (l : Lamp) : Bool :=
  decide (l.state ≠ .on) || !l.mainsPresent || decide (l.lout ≤ l.f)

/-- The lamp is in a lit state, WARMING or ON. -/
def LampState.lit : LampState → Bool
  | .warming => true
  | .on => true
  | _ => false

/-- The dwell timer's conditions (R114). -/
def State.dwellCounts (s : State) : Bool :=
  decide (s.tray.gate = .loaded) && s.lamp.mainsPresent && decide (s.hdr.settings.pc < s.lamp.lout)
    && decide (s.hdr.settings.dwellLimit ≠ 0) && !s.thermal.dwellFlag

/-- Either sensor in fault: its failed-read count stands at 4 (R106). -/
def Thermal.sensorFault (t : Thermal) : Bool := decide (t.failTh = 4) || decide (t.failTg = 4)

/-- The valid count of R68: VALID entries, stale or not. -/
def Shadow.validCount (sh : Shadow) : Nat :=
  (sh.table.toList.filter (fun e => match e with | .valid _ _ _ => true | _ => false)).length

/-- The stale count of R68. -/
def Shadow.staleCount (sh : Shadow) : Nat :=
  (sh.table.toList.filter (fun e => match e with | .valid _ true _ => true | _ => false)).length

/-- The number of the clip playing, 0 when none plays (R215). -/
def ClipPlayer.playingNumber (c : ClipPlayer) : Nat :=
  match c.playing with
  | some p => p.clip
  | none => 0

/-- The tone of CLIP_OUT: the value last driven (R151, R159). -/
def ClipPlayer.clipOut (c : ClipPlayer) : Int := c.lastOutput

/-! ## The words -/

/-- STATUS (11.2). -/
def statusWord (s : State) : Word :=
  wordOf (flagNat s.sw.rdy + 2 * flagNat s.cx.busy + 4 * flagNat s.hdr.record.cmdw + 8 * flagNat s.sw.fail
    + 16 * flagNat s.sw.attn + 32 * flagNat s.prog + 64 * flagNat s.deck.paused
    + 128 * s.lamp.state.num + 1024 * s.tray.state.num + 16384 * s.thermal.power.num)

/-- RESULT: the code in the low byte, the tag in the high byte. -/
def resultWord (s : State) : Word := wordOf (s.sw.resultCode.num + 256 * s.sw.resultTag.toNat)

/-- POSITION. -/
def positionWord (t : Tray) : Word :=
  wordOf (t.slot % 128 + 128 * flagNat t.known + 256 * t.gate.num + 1024 * flagNat (decide (t.n = 96)))

/-- FAN. -/
def fanWord (t : Thermal) : Word := wordOf (t.duty + 256 * flagNat t.runOn.isSome)

/-- QUEUE. -/
def queueWord (s : State) : Word :=
  wordOf (s.cx.queue.length + 16 * flagNat s.deck.auto + 32 * flagNat s.deck.cue + 64 * flagNat s.deck.host
    + 128 * flagNat s.deck.remote + 256 * flagNat s.deck.tapeRun)

/-- CLIP. -/
def clipWord (c : ClipPlayer) : Word :=
  wordOf (c.state.num + 4 * c.playingNumber + 256 * flagNat c.playing.isSome + 4096 * c.queue.length)

/-- SHADOW. -/
def shadowWord (sh : Shadow) : Word := wordOf (sh.validCount + 256 * sh.staleCount)

/-- IDENTITY. -/
def identityWord (s : State) : Word :=
  wordOf (Config.partCode + 1024 * Config.partRevision + 8192 * s.unit.toNat)

/-- PRESENCE_j: slots 8j to 8j + 7, two bits each. -/
def presenceWord (t : Tray) (j : Nat) : Word :=
  wordOf ((List.range 8).foldl (fun n k => n + (t.presence[8 * j + k]?.getD .unknown).num * 4 ^ k) 0)

/-- Word i of the Status Block, composed from the state as it stands (R206, R215). -/
def compose (s : State) (i : Nat) : Word :=
  match i with
  | 0 => statusWord s
  | 1 => statusWord s
  | 2 => s.sw.latches
  | 3 => resultWord s
  | 4 => wordOf s.sw.remaining
  | 5 => wordOf s.sw.lastSlot
  | 6 => wordOf s.sw.rejectTag.toNat
  | 7 => positionWord s.tray
  | 8 => wordOf s.lamp.lout
  | 9 => wordOf s.thermal.ce
  | 10 => wordOf s.lamp.k
  | 11 => wordOf s.lamp.h
  | 12 => wordOf s.thermal.th
  | 13 => wordOf s.thermal.tg
  | 14 => fanWord s.thermal
  | 15 => wordOf (s.lamp.minutes % 65536)
  | 16 => wordOf (s.lamp.minutes / 65536)
  | 17 => wordOf s.log.w
  | 18 => wordOf s.cue.good
  | 19 => wordOf s.cue.bad
  | 20 => wordOf s.cue.repeats
  | 21 => wordOf s.log.overflow
  | 22 => queueWord s
  | 23 => clipWord s.clip
  | 24 => wordOf s.clip.underruns
  | 25 => BitVec.ofInt 16 s.remote.netCount
  | 26 => shadowWord s.shadow
  | 27 => identityWord s
  | 28 => wordOf s.cue.tapeTime
  | n => if 52 ≤ n ∧ n < 64 then presenceWord s.tray (n - 52) else 0

end Sys2Proof.Machine
end

