-- ==== Sys2Proof/Machine/Ops.lean ====
section
/-! DEFINITION. The named operations over memory and over the Status Writer, and the one way each block's new state is
put in place: it makes dirty the Status Block words the block publishes whenever they change (R27, R68, R84, R104, R124,
R143, R151, R171), and latches, results, log records and corrections go through here. -/

namespace Sys2Proof.Machine

/-! ## The RAM -/

/-- The byte at an address (R185): an unlisted one reads as Config.unwrittenByte. -/
def memByte : List Host.Cell → Nat → Byte
  | [], _ => Config.unwrittenByte
  | (b, v) :: rest, a => if b = a then v else memByte rest a

/-- Stores one byte, keeping the addresses rising and no entry equal to what an unlisted address reads as. -/
def memSet : List Host.Cell → Nat → Byte → List Host.Cell
  | [], a, v => if v = Config.unwrittenByte then [] else [(a, v)]
  | (b, w) :: rest, a, v =>
    if a < b then (if v = Config.unwrittenByte then (b, w) :: rest else (a, v) :: (b, w) :: rest)
    else if a = b then (if v = Config.unwrittenByte then rest else (a, v) :: rest)
    else (b, w) :: memSet rest a v

/-- The word at a byte address: the byte there in its low half, the next in its high half (00_scope.md). -/
def memWord (m : List Host.Cell) (a : Nat) : Word := joinBytes (memByte m a) (memByte m (a + 1))

/-- Stores a word; an address has 20 bits (00_scope.md, Signals). -/
def memSetWord (m : List Host.Cell) (a : Nat) (w : Word) : List Host.Cell :=
  memSet (memSet m (a % ramBytes) (loByte w)) ((a + 1) % ramBytes) (hiByte w)

/-- Stores what a host write carries: both bytes, or the lane its strobes select (R185). -/
def memStore (m : List Host.Cell) (a : WordAddr) (w : LaneWrite) : List Host.Cell :=
  match w with
  | .word v => memSetWord m (2 * a.toNat) v
  | .low v => memSet m (2 * a.toNat) v
  | .high v => memSet m (2 * a.toNat + 1) v

/-- Whether a memory lists addresses strictly rising from `lo`, inside the RAM, and no byte an unlisted one reads as. -/
def memOkFrom : Nat → List Host.Cell → Bool
  | _, [] => true
  | lo, (a, v) :: rest =>
    decide (lo ≤ a) && decide (a < ramBytes) && decide (v ≠ Config.unwrittenByte) && memOkFrom (a + 1) rest

/-- The canonical form of a memory. -/
def Memory.wf (m : List Host.Cell) : Bool := memOkFrom 0 m

/-! ## Rising sets of word indices -/

/-- Puts an index into a rising list without repeats. -/
def insertIndex (i : Nat) : List Nat → List Nat
  | [] => [i]
  | j :: rest => if i < j then i :: j :: rest else if i = j then j :: rest else j :: insertIndex i rest

/-- Takes an index out. -/
def removeIndex (i : Nat) (l : List Nat) : List Nat := l.filter (fun j => j != i)

/-! ## The Status Writer's dirty set and latches -/

/-- Makes a Status Block word dirty (R206). -/
def markDirty (i : Nat) (s : State) : State :=
  { s with sw := { s.sw with dirty := insertIndex i s.sw.dirty } }

/-- Makes a word dirty when a condition holds. -/
def markIf (b : Bool) (i : Nat) (s : State) : State := if b then markDirty i s else s

/-- A change of a field of STATUS makes STATUS and ALT_STATUS dirty (R206). -/
def markStatus (s : State) : State := markDirty 0 (markDirty 1 s)

/-- markStatus when a condition holds. -/
def markStatusIf (b : Bool) (s : State) : State := if b then markStatus s else s

/-- Makes all 64 words dirty (R210, R211). -/
def markAll (s : State) : State := { s with sw := { s.sw with dirty := List.range 64 } }

/-- A block latches an event (R207): a clear latch is set, and EVENTS and STATUS made dirty; ATTN is a field of STATUS,
so its change makes ALT_STATUS dirty too (R206). -/
def latch (e : Event) (s : State) : State :=
  if s.sw.latches.getLsbD e.bit then s
  else
    markDirty 2 (markDirty 0 (markIf (!s.sw.attn) 1
      { s with sw := { s.sw with latches := s.sw.latches ||| (BitVec.twoPow 16 e.bit) } }))

/-- latch when a condition holds. -/
def latchIf (b : Bool) (e : Event) (s : State) : State := if b then latch e s else s

/-! ## Putting a block's new state in place -/

/-- The Tray Transport (R27): STATUS for its state, POSITION, and each Presence Map word that changed (R49). -/
def putTray (t : Tray) (s : State) : State :=
  let o := s.tray
  let s := { s with tray := t }
  let s := markStatusIf (decide (t.state ≠ o.state)) s
  let s := markIf (decide (t.n ≠ o.n ∨ t.slot ≠ o.slot ∨ t.known ≠ o.known ∨ t.gate ≠ o.gate)) 7 s
  if t.presence = o.presence then s
  else (List.range 12).foldl (fun s j => markIf (decide (presenceWord t j ≠ presenceWord o j)) (52 + j) s) s

/-- The Lamp Drive (R73, R84, R87, R100): STATUS for the lamp state, LOUT, K, H, and both lamp-minutes words together
(R215). -/
def putLamp (l : Lamp) (s : State) : State :=
  let o := s.lamp
  let s := { s with lamp := l }
  let s := markStatusIf (decide (l.state ≠ o.state)) s
  let s := markIf (decide (l.lout ≠ o.lout)) 8 s
  let s := markIf (decide (l.k ≠ o.k)) 10 s
  let s := markIf (decide (l.h ≠ o.h)) 11 s
  let s := markIf (decide (l.minutes ≠ o.minutes)) 15 s
  markIf (decide (l.minutes ≠ o.minutes)) 16 s

/-- The Thermal Controller (R84, R104, R118): CE, TH, TG, FAN, and STATUS for the power state. -/
def putThermal (t : Thermal) (s : State) : State :=
  let o := s.thermal
  let s := { s with thermal := t }
  let s := markStatusIf (decide (t.power ≠ o.power)) s
  let s := markIf (decide (t.ce ≠ o.ce)) 9 s
  let s := markIf (decide (t.th ≠ o.th)) 12 s
  let s := markIf (decide (t.tg ≠ o.tg)) 13 s
  markIf (decide (t.duty ≠ o.duty ∨ t.runOn.isSome ≠ o.runOn.isSome)) 14 s

/-- The Cue Track Decoder (R124, R146): the counters, the tape time, and STATUS for PROG (R23). -/
def putCue (c : CueTrack) (s : State) : State :=
  let o := s
  let s := { s with cue := c }
  let s := markStatusIf (decide (s.prog ≠ o.prog)) s
  let s := markIf (decide (c.good ≠ o.cue.good)) 18 s
  let s := markIf (decide (c.bad ≠ o.cue.bad)) 19 s
  let s := markIf (decide (c.repeats ≠ o.cue.repeats)) 20 s
  markIf (decide (c.tapeTime ≠ o.cue.tapeTime)) 28 s

/-- The Log Writer (R140, R142, R124): RING_W and LOG_OVERFLOW. -/
def putLog (l : LogWriter) (s : State) : State :=
  let o := s.log
  let s := { s with log := l }
  let s := markIf (decide (l.w ≠ o.w)) 17 s
  markIf (decide (l.overflow ≠ o.overflow)) 21 s

/-- Tape Deck Control (R143, R146): each change of the set makes QUEUE and STATUS dirty, a change of TAPE_RUN QUEUE. -/
def putDeck (d : Deck) (s : State) : State :=
  let o := s.deck
  let s := { s with deck := d }
  let changed := decide (d.auto ≠ o.auto ∨ d.cue ≠ o.cue ∨ d.host ≠ o.host ∨ d.remote ≠ o.remote)
  let s := markStatusIf changed s
  markIf (changed || decide (d.tapeRun ≠ o.tapeRun)) 22 s

/-- The Clip Player (R151): CLIP and UNDERRUNS. -/
def putClip (c : ClipPlayer) (s : State) : State :=
  let o := s.clip
  let s := { s with clip := c }
  let s := markIf (decide (clipWord c ≠ clipWord o)) 23 s
  markIf (decide (c.underruns ≠ o.underruns)) 24 s

/-- The Remote Receiver (R171): REMOTE_NET. -/
def putRemote (r : Remote) (s : State) : State :=
  let o := s.remote
  let s := { s with remote := r }
  markIf (decide (r.netCount ≠ o.netCount)) 25 s

/-- The Record Shadow (R68): SHADOW whenever either count changes. -/
def putShadow (sh : Shadow) (s : State) : State :=
  let o := s.shadow
  let s := { s with shadow := sh }
  markIf (decide (shadowWord sh ≠ shadowWord o)) 26 s

/-- Auto-hold follows the queue depth (R145): while the option is on, AUTO is added at 6 or more and removed at 2 or
less. -/
def autoHold (s : State) : State :=
  if s.hdr.settings.autoHold then
    if 6 ≤ s.cx.queue.length then putDeck { s.deck with auto := true } s
    else if s.cx.queue.length ≤ 2 then putDeck { s.deck with auto := false } s
    else s
  else s

/-- The Cue Executor (R1, R3): STATUS for EXEC; a change of the queue depth makes QUEUE dirty and reaches auto-hold. -/
def putCx (c : CueExecutor) (s : State) : State :=
  let o := s.cx
  let s := { s with cx := c }
  let s := markStatusIf (decide (c.busy ≠ o.busy)) s
  if c.queue.length = o.queue.length then s else autoHold (markDirty 22 s)

/-! ## Header Monitor: corrections and the command record -/

/-- Puts a header word into the set of corrections waiting (R201). -/
def addCorrection (i : Nat) (s : State) : State :=
  { s with hdr := { s.hdr with corrections := insertIndex i s.hdr.corrections } }

/-- The command record (R202, R206): a change of CMDW as composed makes STATUS and ALT_STATUS dirty. -/
def putRecord (r : CommandRecord) (s : State) : State :=
  let o := s.hdr.record
  let s := { s with hdr := { s.hdr with record := r } }
  markStatusIf (decide (r.cmdw ≠ o.cmdw)) s

/-- REMAINING and LAST_SLOT of an action that issued no transport request: 0, and the current slot when the position is
known, 0 when it is not (R22, R203). -/
def plainLastSlot (s : State) : Nat := if s.tray.known then s.tray.slot else 0

/-- The record's command ends (R204): its block hands over result code, REMAINING and LAST_SLOT, the record becomes
CLOSING, and the Status Writer stores them and makes their three words dirty. Nothing happens unless the record is
ACTIVE: a command RESET has discarded posts no result (R205). -/
def endCommand (code : ResultCode) (remaining lastSlot : Nat) (s : State) : State :=
  let r := s.hdr.record
  if r.state = .active then
    let s := putRecord { r with state := .closing, handed := true, toLand := [3, 4, 5] } s
    let s := { s with sw := { s.sw with
      resultTag := r.tag, resultCode := code, remaining := remaining, lastSlot := lastSlot } }
    markDirty 3 (markDirty 4 (markDirty 5 s))
  else s

/-- A command that did not reach the transport ends (R203). -/
def endPlain (code : ResultCode) (s : State) : State := endCommand code 0 (plainLastSlot s) s

/-- Whether the command record is ACTIVE with a command of this code. -/
def activeWith (code : Byte) (s : State) : Bool :=
  decide (s.hdr.record.state = .active) && decide (s.hdr.record.code = code)

/-! ## Log Writer: handing over a record -/

/-- A record is handed to the Log Writer (R139): discarded with no ring, staged while the buffer holds fewer than 4,
dropped with the overflow counter and cue_fault otherwise. -/
def handLog (r : LogRecord) (s : State) : State :=
  if s.hdr.settings.ringBase = 0 then s
  else if s.log.staging.length < 4 then putLog { s.log with staging := s.log.staging ++ [r] } s
  else latch .cueFault (putLog { s.log with overflow := countUp s.log.overflow } s)

/-! ## Memory Port: withdrawing a request and abandoning an access (R195) -/

/-- The access now in the RAM, if it is this requester's, is marked abandoned: its word will be discarded. -/
def voidAccess (who : Requester) (s : State) : State :=
  match s.port.ram with
  | some a => if a.who = who then { s with port := { s.port with ram := some { a with void := true } } } else s
  | none => s

/-- The Record Shadow abandons its request or its access. -/
def withdrawShadow (s : State) : State :=
  voidAccess .recordShadow { s with port := { s.port with reqs := { s.port.reqs with recordShadow := none } } }

/-- The Curve Loader abandons its request or its access. -/
def withdrawCurve (s : State) : State :=
  voidAccess .curveLoader { s with port := { s.port with reqs := { s.port.reqs with curveLoader := none } } }

/-- The Log Writer abandons its request or its access. -/
def withdrawLog (s : State) : State :=
  voidAccess .logWriter { s with port := { s.port with reqs := { s.port.reqs with logWriter := none } } }

/-- The Clip Player abandons its request or its access. -/
def withdrawClip (s : State) : State :=
  voidAccess .clipPlayer { s with port := { s.port with reqs := { s.port.reqs with clipPlayer := none } } }

/-- The Header Monitor withdraws its request for a word whose correction is cancelled (R201). -/
def withdrawHeader (i : Nat) (s : State) : State :=
  if s.port.reqs.headerMonitor = some i then
    { s with port := { s.port with reqs := { s.port.reqs with headerMonitor := none } } }
  else s

end Sys2Proof.Machine
end

