-- ==== Sys2Proof/Machine/Shadow.lean ====
section
/-! DEFINITION. The Record Shadow: lookup, allocation, fetch, pins, comparison of host writes, base changes and RESET
(03_slot_records_and_the_record_shadow.md, R52 to R72). -/

namespace Sys2Proof.Machine

/-- What a lookup is answered (R54, R56 to R58): the copy at once, "absent" (for a slot, its default), or later, when
the entry's fetch completes. -/
inductive LookupAnswer where
  | copy (words : List Word)
  | absent
  | waiting
deriving DecidableEq, Repr

/-- The fields of a FILLING or VALID entry. -/
def WatchEntry.fields : WatchEntry → Option EntryData
  | .free => none
  | .filling d => some d
  | .valid d _ _ => some d

/-- Whether an entry holds this kind and key. -/
def WatchEntry.holds (kind : RecKind) (key : Nat) (e : WatchEntry) : Bool :=
  match e.fields with
  | some d => decide (d.kind = kind) && decide (d.key = key)
  | none => false

/-- The entry at an index. -/
def Shadow.entry (sh : Shadow) (i : Nat) : WatchEntry := (sh.table[i]?).getD .free

/-- The FILLING or VALID entry of a kind and key, of which there is one at most (R55, R66). -/
def Shadow.find (sh : Shadow) (kind : RecKind) (key : Nat) : Option Nat :=
  sh.table.toList.findIdx? (WatchEntry.holds kind key)

/-- Puts an entry at an index. -/
def Shadow.setEntry (sh : Shadow) (i : Nat) (e : WatchEntry) : Shadow :=
  { sh with table := sh.table.setIfInBounds i e }

/-- The VALID entry with pin count 0 that was least recently used (R58), with its rank, looked for from index i on. -/
def leastRecent : List WatchEntry → Nat → Option (Nat × Nat)
  | [], _ => none
  | e :: rest, i =>
    match e, leastRecent rest (i + 1) with
    | .valid d _ u, some (j, v) => if d.pins = 0 ∧ u ≤ v then some (i, u) else some (j, v)
    | .valid d _ u, none => if d.pins = 0 then some (i, u) else none
    | _, best => best

/-- The entry a miss is given (R58): the lowest-numbered FREE one, else the least recently used unpinned VALID one, else
none, and the lookup waits. R58 says that this third case cannot arise; with assumption 58 it can. -/
def Shadow.victim (sh : Shadow) : Option Nat :=
  match sh.table.toList.findIdx? (fun e => decide (e = .free)) with
  | some i => some i
  | none => (leastRecent sh.table.toList 0).map (·.1)

/-- The base of a kind of record, in effect (R54). -/
def recordBase (kind : RecKind) (s : State) : Nat :=
  match kind with
  | .slot => s.hdr.settings.slotBase
  | .clip => s.hdr.settings.clipBase

/-- A lookup of a record, to read it or to pin it (R54, R56 to R58). An entry allocated joins the fetch list (R59), which
has no bound of its own (assumption 58). A lookup that finds no entry to take makes none and is answered waiting: its
user holds the wait, and `serveWaiting` serves it (R58). -/
def lookup (kind : RecKind) (key : Nat) (pin : Bool) (s : State) : State × LookupAnswer :=
  if recordBase kind s = 0 then (s, .absent)
  else
    let sh := s.shadow
    match sh.find kind key with
    | some i =>
      match sh.entry i with
      | .valid d stale _ =>
        let e := WatchEntry.valid { d with pins := d.pins + flagNat pin } stale sh.useStamp
        (putShadow { sh.setEntry i e with useStamp := sh.useStamp + 1 } s, .copy d.copy)
      | .filling d => (putShadow (sh.setEntry i (.filling { d with pins := d.pins + flagNat pin })) s, .waiting)
      | .free => (s, .waiting)
    | none =>
      match sh.victim with
      | some i =>
        let d : EntryData :=
          { kind := kind, key := key, addr := recordAddr kind key (recordBase kind s), copy := [], pins := flagNat pin }
        (putShadow { sh.setEntry i (.filling d) with fetchList := sh.fetchList ++ [i] } s, .waiting)
      | none => (s, .waiting)

/-! ## Lookups that wait for an entry (R58) -/

/-- A lookup that a user has made: the record, and whether it is pinned. -/
structure RecordLookup where
  kind : RecKind
  key : Nat
  pin : Bool
deriving DecidableEq, Repr

/-- The lookup that a pin of the transport's was asked for with. -/
def pinLookups : Option Nat → List RecordLookup
  | some slot => [{ kind := .slot, key := slot, pin := true }]
  | none => []

/-- The lookup that the transport's search waits on, which only reads (R34). -/
def searchLookups : TrayWait → List RecordLookup
  | .search se => [{ kind := .slot, key := se.pos, pin := false }]
  | _ => []

/-- The lookup that the Clip Player's start record waits on (R153, R154). -/
def startLookups : Option StartRecord → List RecordLookup
  | some st => if st.pinned ∧ st.copy = none then [{ kind := .clip, key := st.request.clip, pin := true }] else []
  | none => []

/-- The lookups whose records the users hold or wait on. -/
def userLookups (s : State) : List RecordLookup :=
  pinLookups s.tray.destPin
    ++ (searchLookups s.tray.wait ++ (pinLookups s.tray.shownPin ++ startLookups s.clip.start))

/-- The lookups that wait for an entry (R58, third case): those of the users whose record stands in no entry, since a
record held or being fetched stands in one (R55). -/
def waitingLookups (s : State) : List RecordLookup :=
  (userLookups s).filter (fun l => decide (s.shadow.find l.kind l.key = none))

/-- The lookups that wait for an entry are served, as far as there are entries to take (R58). DESIGN CHOICE, unsafe: the
manual gives them no order, and the transport's go before the Clip Player's (assumption 58). -/
def serveWaiting (s : State) : State :=
  (waitingLookups s).foldl (fun s l => (lookup l.kind l.key l.pin s).1) s

/-! ## Pins (R62) -/

/-- Lowers the pin count of a record's entry: at 0 a stale entry becomes FREE, and any other is kept (R62). -/
def lowerPin (kind : RecKind) (key : Nat) (s : State) : State :=
  let sh := s.shadow
  match sh.find kind key with
  | some i =>
    match sh.entry i with
    | .valid d true u =>
      if d.pins ≤ 1 then putShadow (sh.setEntry i .free) s
      else putShadow (sh.setEntry i (.valid { d with pins := d.pins - 1 } true u)) s
    | .valid d false u => putShadow (sh.setEntry i (.valid { d with pins := d.pins - 1 } false u)) s
    | .filling d => putShadow (sh.setEntry i (.filling { d with pins := d.pins - 1 })) s
    | .free => s
  | none => s

/-- Whether a release of this record's pin brings a VALID entry's pin count to 0 (R58, R62). -/
def Shadow.lastPin (sh : Shadow) (kind : RecKind) (key : Nat) : Bool :=
  match sh.find kind key with
  | some i =>
    match sh.entry i with
    | .valid d _ _ => decide (d.pins ≤ 1)
    | _ => false
  | none => false

/-- A holder releases its pin (R62); a release that brings a VALID entry's pin count to 0 serves the lookups that wait
for an entry (R58). -/
def releasePin (kind : RecKind) (key : Nat) (s : State) : State :=
  if s.shadow.lastPin kind key then serveWaiting (lowerPin kind key s) else lowerPin kind key s

/-! ## The shadow fetch (R59 to R61) -/

/-- What the fetch under way reads next (R59): the next word of the entry at the head of the fetch list. -/
def Shadow.nextFetch (sh : Shadow) : Option Nat :=
  match sh.fetchList with
  | i :: _ =>
    match sh.entry i with
    | .filling d => some (d.addr + 2 * d.copy.length)
    | _ => none
  | [] => none

/-- A class F record word returns (R59, R60): it joins the copy; the last word makes the entry VALID and the most
recently used, and the kind, key and copy are answered to the users that wait on it. An entry that becomes VALID with no
pin on it may be replaced (R60): DESIGN CHOICE, unsafe: it serves the lookups that wait for an entry, though R58 names
only a pin's release (assumption 58). -/
def recordWord (w : Word) (s : State) : State × Option EntryData :=
  let sh := s.shadow
  match sh.fetchList with
  | i :: rest =>
    match sh.entry i with
    | .filling d =>
      let d := { d with copy := d.copy ++ [w] }
      if d.copy.length < recordLength d.kind then (putShadow (sh.setEntry i (.filling d)) s, none)
      else
        let s := putShadow { sh.setEntry i (.valid d false sh.useStamp) with
          fetchList := rest, useStamp := sh.useStamp + 1 } s
        (if d.pins = 0 then serveWaiting s else s, some d)
    | _ => (s, none)
  | [] => (s, none)

/-- Whether a write of `len` bytes at `start` overlaps an entry's words (R64). -/
def EntryData.overlapped (d : EntryData) (start len : Nat) : Bool :=
  overlaps start len d.addr (2 * recordLength d.kind)

/-- What a granted host write does to one entry (R61, R64, R65). -/
def WatchEntry.afterWrite (start len : Nat) (e : WatchEntry) : WatchEntry :=
  match e with
  | .free => .free
  | .filling d => if d.overlapped start len then .filling { d with copy := [] } else e
  | .valid d stale u =>
    if d.overlapped start len then (if d.pins = 0 then .free else .valid d true u) else .valid d stale u

/-- Whether an entry has turned stale. -/
def WatchEntry.turnedStale (before after : WatchEntry) : Bool :=
  match before, after with
  | .valid _ false _, .valid _ true _ => true
  | _, _ => false

/-- Whether some entry of a table has turned stale against an older one. -/
def anyTurnedStale : List WatchEntry → List WatchEntry → Bool
  | b :: bs, a :: as => b.turnedStale a || anyTurnedStale bs as
  | _, _ => false

/-- Whether the entry under fetch is overlapped, so that its fetch restarts (R61). -/
def Shadow.headOverlapped (sh : Shadow) (start len : Nat) : Bool :=
  match sh.fetchList with
  | i :: _ =>
    match sh.entry i with
    | .filling d => d.overlapped start len
    | _ => false
  | [] => false

/-- A granted host write outside the Show Header is compared with the Watch Table (R61, R64, R65). -/
def shadowCompare (start len : Nat) (s : State) : State :=
  let sh := s.shadow
  let table := sh.table.map (WatchEntry.afterWrite start len)
  let stale := anyTurnedStale sh.table.toList table.toList
  let restart := sh.headOverlapped start len
  let s := putShadow { sh with table := table } s
  let s := latchIf stale .shadowStale s
  if restart then withdrawShadow s else s

/-- What a base change does to one entry of its kind (R67). -/
def WatchEntry.afterBase (kind : RecKind) (base : Nat) (e : WatchEntry) : WatchEntry :=
  match e with
  | .free => .free
  | .filling d =>
    if d.kind = kind then
      (if base = 0 then .free else .filling { d with addr := recordAddr kind d.key base, copy := [] })
    else e
  | .valid d stale u =>
    if d.kind = kind then (if d.pins = 0 then .free else .valid d true u) else .valid d stale u

/-- The keys of the FILLING entries of a kind, whose users a base of 0 answers (R67). -/
def Shadow.fillingKeys (sh : Shadow) (kind : RecKind) : List Nat :=
  sh.table.toList.filterMap (fun e =>
    match e with
    | .filling d => if d.kind = kind then some d.key else none
    | _ => none)

/-- The keys of the records of a kind whose users a base of 0 answers: those of the FILLING entries (R67) and, DESIGN
CHOICE, unsafe, those of the lookups that wait for an entry (assumption 58). -/
def unansweredKeys (kind : RecKind) (s : State) : List Nat :=
  s.shadow.fillingKeys kind
    ++ (waitingLookups s).filterMap (fun l => if l.kind = kind then some l.key else none)

/-- Whether the entry under fetch is of a kind. -/
def Shadow.headOfKind (sh : Shadow) (kind : RecKind) : Bool :=
  match sh.fetchList with
  | i :: _ =>
    match sh.entry i with
    | .filling d => decide (d.kind = kind)
    | _ => false
  | [] => false

/-- A new base of a kind, different from the one in effect, acts on the Watch Table (R67). -/
def shadowBaseChange (kind : RecKind) (base : Nat) (s : State) : State :=
  let sh := s.shadow
  let table := sh.table.map (WatchEntry.afterBase kind base)
  let stale := anyTurnedStale sh.table.toList table.toList
  let restart := sh.headOfKind kind
  let sh' : Shadow := { sh with table := table }
  let sh' := { sh' with fetchList := sh'.fetchList.filter (fun i => decide (sh'.entry i ≠ .free)) }
  let s := putShadow sh' s
  let s := latchIf stale .shadowStale s
  if restart then withdrawShadow s else s

/-- A RESET command frees every entry, abandons the fetch and empties the fetch list (R70). -/
def shadowReset (s : State) : State :=
  withdrawShadow (putShadow { s.shadow with table := Vector.replicate 16 .free, fetchList := [] } s)

/-- The copy its users read under the transport's shown-slide pin (R63): none when no slot table is set, when no pin is
held, and while the pinned entry is FILLING. -/
def shownCopy (s : State) : Option (List Word) :=
  if s.hdr.settings.slotBase = 0 then none
  else
    match s.tray.shownPin with
    | some slot =>
      match s.shadow.find .slot slot with
      | some i =>
        match s.shadow.entry i with
        | .valid d _ _ => some d.copy
        | _ => none
      | none => none
    | none => none

/-- The trim T the Lamp Drive uses (R52, R63, R80). -/
def shownTrim (s : State) : Int :=
  if s.tray.gate = .loaded then
    match shownCopy s with
    | some copy => slotTrim copy
    | none => 0
  else 0

end Sys2Proof.Machine
end

