-- ==== Sys2Proof/Machine/Thermal.lean ====
section
/-! DEFINITION. The Thermal Controller's shared operations: the protection ceiling, the fan duty, run-on, the standby
deferral, the gate and dwell protections (05_cooling_and_thermal_protection.md). -/

namespace Sys2Proof.Machine

/-- C_th (R112): 1023 up to Td, then 32 light levels less for each degree; it can fall below 0. -/
def deratingTerm (td th : Nat) : Int := if th ≤ td then 1023 else 1023 - 32 * ((th : Int) - (td : Int))

/-- C_gate and C_dwell (R113, R114): Pc while the flag is set. -/
def flagTerm (flag : Bool) (pc : Nat) : Nat := if flag then pc else 1023

/-- C = max(F, min(C_th, C_gate, C_dwell)) (R115). -/
def ceilingOf (s : State) : Nat :=
  (max (s.lamp.f : Int)
    (min (deratingTerm s.hdr.settings.td s.thermal.th)
      (min (flagTerm s.thermal.gateFlag s.hdr.settings.pc : Int) (flagTerm s.thermal.dwellFlag s.hdr.settings.pc)))).toNat

/-- C is worked out again, and Ce becomes C at once when C is below it (R115). -/
def updateCeiling (s : State) : State :=
  let c := ceilingOf s
  putThermal { s.thermal with c := c, ce := min c s.thermal.ce } s

/-- Ce rises by 8 toward C, or by the remaining difference when that is less (R115). -/
def slewCeiling (s : State) : State :=
  if s.thermal.ce < s.thermal.c then putThermal { s.thermal with ce := min s.thermal.c (s.thermal.ce + 8) } s else s

/-- The Lamp Drive hands over a new F (R81, R115): C is worked out again, and Ce is raised to F at once. -/
def handFloor (s : State) : State :=
  let s := updateCeiling s
  if s.thermal.ce < s.lamp.f then putThermal { s.thermal with ce := s.lamp.f } s else s

/-- The duty of a zone (R107). -/
def zoneDuty (zone : Nat) : Nat :=
  match zone with
  | 0 => 30
  | 1 => 55
  | 2 => 80
  | _ => 100

/-- The commanded duty (R108). -/
def dutyOf (s : State) : Nat :=
  if s.thermal.power = .standby then 0
  else if s.thermal.fanFault || s.thermal.sensorFault then 100
  else if s.lamp.state.lit || s.thermal.runOn.isSome then max 55 (zoneDuty s.thermal.zone)
  else zoneDuty s.thermal.zone

/-- The duty is decided again (R108); the tach watch starts afresh when it rises from 0 (R109). -/
def decideDuty (s : State) : State :=
  let duty := dutyOf s
  let start := if s.thermal.duty = 0 ∧ duty ≠ 0 then s.now else s.thermal.tachStart
  putThermal { s.thermal with duty := duty, tachStart := start } s

/-- In STANDBY_PENDING the unit moves to STANDBY when the lamp is neither WARMING nor ON and run-on is not active
(R118). -/
def evalStandby (s : State) : State :=
  if s.thermal.power = .standbyPending ∧ s.lamp.state.lit = false ∧ s.thermal.runOn = none then
    decideDuty (putThermal { s.thermal with power := .standby } s)
  else s

/-- Run-on starts, with its elapsed time at 0 (R110). -/
def startRunOn (s : State) : State := decideDuty (putThermal { s.thermal with runOn := some s.now } s)

/-- Run-on ends: the duty is decided again and the standby deferral evaluated (R110). -/
def endRunOn (s : State) : State := evalStandby (decideDuty (putThermal { s.thermal with runOn := none } s))

/-- Whether 60 s of run-on have been reached (R110). -/
def runOnServed (s : State) : Bool :=
  match s.thermal.runOn with
  | some t => decide (Config.runOnTime ≤ s.now - t)
  | none => false

/-- Run-on ends when 60 s have been reached and Th is below 45 with the lamp-house sensor not in fault (R110). -/
def tryEndRunOn (s : State) : State :=
  if runOnServed s && decide (s.thermal.th < 45) && decide (s.thermal.failTh ≠ 4) then endRunOn s else s

/-- The lamp's change of state reaches the Thermal Controller (R87, R108, R110, R118). -/
def lampReport (old : LampState) (s : State) : State :=
  let s := if old.lit && !s.lamp.state.lit then startRunOn s else s
  let s := if s.lamp.state = .warming ∧ s.thermal.runOn.isSome then endRunOn s else s
  evalStandby (decideDuty s)

/-- The fan zone after an accepted Th (R107): up to the highest zone whose lower bound Th reaches, else down while Th is
below the present zone's downward threshold. -/
def zoneAfter (zone th : Nat) : Nat :=
  let reached := if 90 ≤ th then 3 else if 70 ≤ th then 2 else if 50 ≤ th then 1 else 0
  let holds := if 85 ≤ th then 3 else if 65 ≤ th then 2 else if 45 ≤ th then 1 else 0
  if zone < reached then reached else min zone holds

/-- The gate flag against the gate limit, with 5 °C of hysteresis (R113), from the last accepted Tg, whatever the sensor's
failed-read count (assumption 50). -/
def updateGateFlag (s : State) : State :=
  let limit := s.hdr.settings.gateLimit
  let flag := if limit ≤ s.thermal.tg then true else if s.thermal.tg < limit - 5 then false else s.thermal.gateFlag
  updateCeiling (putThermal { s.thermal with gateFlag := flag } s)

/-- The transport reports the end of a drop (R39, R114): the dwell timer returns to 0 and the dwell flag is cleared. -/
def dropReported (s : State) : State :=
  updateCeiling (putThermal { s.thermal with dwellUs := 0, dwellFlag := false } s)

/-- The dwell limit in microseconds. -/
def dwellLimitUs (s : State) : Nat := s.hdr.settings.dwellLimit * 1000000

/-- The dwell flag is set and dwell_limit latched (R114); the timer keeps its value (assumption 51). -/
def setDwellFlag (s : State) : State :=
  latch .dwellLimit (updateCeiling (putThermal { s.thermal with dwellFlag := true } s))

/-- A new dwell limit, already in effect (R114): 0 returns the timer to 0 and clears the flag; one at or below the time
counted sets the flag and latches dwell_limit at once, and leaves the timer above the limit (assumption 51). -/
def dwellLimitChanged (s : State) : State :=
  if s.hdr.settings.dwellLimit = 0 then dropReported s
  else if dwellLimitUs s ≤ s.thermal.dwellUs then setDwellFlag s
  else s

end Sys2Proof.Machine
end

