-- ==== Sys2Proof/Machine/Audio.lean ====
section
/-! DEFINITION. The program-audio gain (R165 to R167), which the Lamp Drive's APPLY and the Clip Player both reach. -/

namespace Sys2Proof.Machine

/-- The gain's target: the duck level while the player is not IDLE, the volume while it is (R165). -/
def ClipPlayer.gainTarget (c : ClipPlayer) : Nat := if c.state = .idle then c.volume else c.duck

/-- The target of the ramp under way, or G when none is (R165). -/
def ClipPlayer.gainGoal (c : ClipPlayer) : Nat :=
  match c.gainRamp with
  | some r => r.gt
  | none => c.gain

/-- The target is worked out again; when it differs, a new gain ramp begins from the present G (R165). A target equal to
the present G needs no ramp. -/
def ClipPlayer.retarget (now : Nat) (c : ClipPlayer) : ClipPlayer :=
  if c.gainTarget = c.gainGoal then c
  else if c.gainTarget = c.gain then { c with gainRamp := none }
  else { c with gainRamp := some { g0 := c.gain, gt := c.gainTarget, ticks := 0, start := now } }

/-- How many ticks a gain ramp lasts (R166): 50 for a fall, 300 for a rise. -/
def GainRamp.duration (r : GainRamp) : Nat := if r.gt < r.g0 then 50 else 300

/-- G at tick k of a ramp (R166). -/
def GainRamp.level (r : GainRamp) (k : Nat) : Nat :=
  if r.gt < r.g0 then r.g0 - (r.g0 - r.gt) * k / 50 else r.g0 + (r.gt - r.g0) * k / 300

/-- One tick of the gain ramp (R166). -/
def ClipPlayer.gainTick (c : ClipPlayer) : ClipPlayer :=
  match c.gainRamp with
  | none => c
  | some r =>
    let k := r.ticks + 1
    if r.duration ≤ k then { c with gain := r.gt, gainRamp := none }
    else { c with gain := r.level k, gainRamp := some { r with ticks := k } }

/-- APPLY hands over volume and duck (R167): the gain's target is worked out again. -/
def handAudio (volume duck : Nat) (s : State) : State :=
  putClip (ClipPlayer.retarget s.now { s.clip with volume := volume, duck := duck }) s

end Sys2Proof.Machine
end

