-- ==== Sys2Proof/Machine/Lamp.lean ====
section
/-! DEFINITION. The Lamp Drive and the Curve Loader: the ramp generator, lamp states, the half-cycle computation, the
change window, curve loads and APPLY, lamp minutes (04_lamp_drive_and_the_light_computation.md). -/

namespace Sys2Proof.Machine

/-! ## Lamp states (R87 to R91) -/

/-- The lamp changes state (R87): it is reported to the Thermal Controller, and once the lamp is neither WARMING nor ON
its pending firing is not made (R83, R90) and a firing that waits to be judged is no longer judged (R89). DEDUCED,
unsafe: a lamp that is WARMING again before the firing's delay has passed does not get it back (assumption 68). -/
def setLampState (st : LampState) (s : State) : State :=
  if s.lamp.state = st then s
  else
    let old := s.lamp.state
    lampReport old (putLamp { s.lamp with
      state := st, judging := s.lamp.judging && st.lit, firing := if st.lit then s.lamp.firing else none } s)

/-- A trip from the Thermal Controller sets the lamp TRIPPED from every state (R90). -/
def tripLamp (s : State) : State := setLampState .tripped s

/-- A cooling fault stands: a sensor in fault or the fan fault (R117). -/
def coolingFaultStands (s : State) : Bool := s.thermal.fanFault || s.thermal.sensorFault

/-- hpt, half-cycles per tenth of a second (R75). -/
def hptOf (h : Nat) : Nat := (200000 + h) / (2 * h)

/-- The lamp enters WARMING (R88); with a cooling fault standing it is tripped again at once (R117). -/
def enterWarming (s : State) : State :=
  let s := putLamp { s.lamp with warmCount := 0, failures := 0, warmTarget := 20 * hptOf s.lamp.h } s
  let s := setLampState .warming s
  if coolingFaultStands s then tripLamp (latch .coolingFault s) else s

/-- A warm request (R88, R90, R117): accepted in OFF, and in TRIPPED when Th is below Tr. -/
def warmRequest (s : State) : State :=
  match s.lamp.state with
  | .off => enterWarming s
  | .tripped => if s.thermal.th < s.hdr.settings.tr then enterWarming s else s
  | _ => s

/-- An off request (R91): WARMING and FAILED become OFF. -/
def offRequest (s : State) : State :=
  match s.lamp.state with
  | .warming => setLampState .off s
  | .failed => setLampState .off s
  | _ => s

/-- An off-marked ramp has completed (R91): ON and FAILED become OFF. -/
def offMarkActs (s : State) : State :=
  match s.lamp.state with
  | .on => setLampState .off s
  | .failed => setLampState .off s
  | _ => s

/-! ## The ramp generator (R76 to R79) -/

/-- L, the whole-number level (R76). -/
def Lamp.level (l : Lamp) : Nat := l.q / Config.unitsPerLevel

/-- The distance between two amounts of Q. -/
def distance (a b : Nat) : Nat := if a ≤ b then b - a else a - b

/-- The increment of a ramp from q to a target over `tenths` (R77). -/
def rampIncrement (q target tenths hpt : Nat) : Nat :=
  if tenths = 0 ∨ q = target then distance q target else max 1 (roundDiv (distance q target) (tenths * hpt))

/-- A ramp request is taken (R77): it replaces the ramp that is active, if one is. -/
def takeRamp (level tenths : Nat) (byAction offMark : Bool) (s : State) : State :=
  let target := level * Config.unitsPerLevel
  let r : Ramp :=
    { target := target
      increment := rampIncrement s.lamp.q target tenths (hptOf s.lamp.h)
      up := decide (s.lamp.q < target), byAction := byAction, offMark := offMark }
  putLamp { s.lamp with ramp := some r } s

/-- A dropped off mark in STANDBY_PENDING with the lamp ON is answered with a fresh off-marked ramp to F (R119). -/
def renewOffRamp (s : State) : State :=
  if s.thermal.power = .standbyPending ∧ s.lamp.state = .on then
    takeRamp s.lamp.f s.hdr.settings.blankRate false true s
  else s

/-- Whether the ramp that is active carries the off mark. -/
def Lamp.offMarked (l : Lamp) : Bool :=
  match l.ramp with
  | some r => r.offMark
  | none => false

/-- A ramp request with the report of a dropped off mark that it may cause (R77, R119). A ramp that is itself off-marked
leaves the mark standing. -/
def requestRamp (level tenths : Nat) (byAction offMark : Bool) (s : State) : State :=
  let dropped := s.lamp.offMarked && !offMark
  let s := takeRamp level tenths byAction offMark s
  if dropped then renewOffRamp s else s

/-- A freeze (R79): the ramp stops where it stands, without completion event; its off mark is dropped (R119). -/
def freezeRamp (s : State) : State :=
  match s.lamp.ramp with
  | some r =>
    let s := putLamp { s.lamp with ramp := none } s
    if r.offMark then renewOffRamp s else s
  | none => s

/-- One step of the active ramp (R78): Q moves by the increment, and at or past the target becomes the target and the
ramp completes, its completion event and off mark on their way (assumption 12). -/
def rampStep (s : State) : State :=
  match s.lamp.ramp with
  | none => s
  | some r =>
    let reached := if r.up then decide (r.target ≤ s.lamp.q + r.increment) else decide (s.lamp.q ≤ r.target + r.increment)
    if reached then
      putLamp { s.lamp with q := r.target, ramp := none
                            rampDone := s.lamp.rampDone ++ [{ byAction := r.byAction, offMark := r.offMark }] } s
    else putLamp { s.lamp with q := if r.up then s.lamp.q + r.increment else s.lamp.q - r.increment } s

/-! ## The change window (R86) -/

/-- The window opens: at once the dark event, when dark holds, and otherwise it is owed until the next half-cycle. -/
def openWindow (s : State) : State :=
  if s.lamp.window then s
  else putLamp { s.lamp with window := true, darkOwed := !s.lamp.dark, darkSent := false } s

/-- The window closes. -/
def closeWindow (s : State) : State :=
  if s.lamp.window then putLamp { s.lamp with window := false, darkOwed := false, darkSent := false } s else s

/-! ## Settings and curves (R92 to R99) -/

/-- The dirty mark of a curve (R96). -/
def Lamp.dirtyMark (l : Lamp) : CurveSel → Bool
  | .a => l.dirtyA
  | .b => l.dirtyB

/-- Sets a curve's dirty mark. -/
def Lamp.setDirty (l : Lamp) (c : CurveSel) (b : Bool) : Lamp :=
  match c with
  | .a => { l with dirtyA := b }
  | .b => { l with dirtyB := b }

/-- A load is needed when CURVE_BASE is set and the select differs from the curve in use or is marked dirty (R94). -/
def loadNeeded (sel : CurveSel) (s : State) : Bool :=
  decide (s.hdr.settings.curveBase ≠ 0) && (decide (s.lamp.curve ≠ .loaded sel) || s.lamp.dirtyMark sel)

/-- A load of a curve begins at point 0 and clears its dirty mark (R95); a word requested before is discarded. -/
def startLoad (c : CurveSel) (s : State) : State :=
  withdrawCurve (putLamp { s.lamp.setDirty c false with loader := some { curve := c, index := 0 } } s)

/-- A load is abandoned (R98, R99). -/
def abandonLoad (s : State) : State := withdrawCurve (putLamp { s.lamp with loader := none } s)

/-- An APPLY is taken (R94, R98): the pending settings go into the apply record, and a load starts, goes on, restarts or
is abandoned as they need it. -/
def takeApply (s : State) : State :=
  let rec0 := s.hdr.pend
  let s := putLamp { s.lamp with applyRec := some rec0 } s
  match s.lamp.loader with
  | none => if loadNeeded rec0.sel s then startLoad rec0.sel s else s
  | some l =>
    if l.curve = rec0.sel then s
    else if loadNeeded rec0.sel s then startLoad rec0.sel s
    else abandonLoad s

/-- The apply record takes effect (R94, R97): F and M, volume and duck, and the APPLY completes ok. -/
def applyEffect (rec0 : PendingSettings) (s : State) : State :=
  let s := putLamp { s.lamp with f := rec0.f, m := rec0.m, applyRec := none } s
  let s := handFloor s
  let s := handAudio rec0.volume rec0.duck s
  if activeWith codeApply s then endPlain .ok s else s

/-- The apply record takes effect with no load in flight (R94). -/
def applyWithoutLoad (s : State) : State :=
  match s.lamp.applyRec, s.lamp.loader with
  | some rec0, none => applyEffect rec0 s
  | _, _ => s

/-- The banks swap once a load is complete (R97), and the apply record takes effect with them. -/
def curveSwapNow (s : State) : State :=
  match s.lamp.loader with
  | some l =>
    if l.index = 33 then
      let s := putLamp { s.lamp with
        bank := s.lamp.spare, spare := s.lamp.bank, curve := .loaded l.curve, loader := none } s
      applyWithoutLoad s
    else s
  | none => s

/-- What a half-cycle event takes up before its computation (R94, R97). -/
def takeUpSettings (s : State) : State :=
  match s.lamp.loader with
  | some _ => curveSwapNow s
  | none => applyWithoutLoad s

/-- A class F curve word returns (R95): clamped to 4095, raised to the point before it, and stored in the spare bank.
DESIGN CHOICE, unsafe: stored at once, so that while a load runs, and after one broken off, the spare bank can hold new
points before older lower ones, against R93's conclusion for both banks (assumption 77). -/
def curveWord (w : Word) (s : State) : State :=
  match s.lamp.loader with
  | some l =>
    if l.index < 33 then
      let v := min 4095 w.toNat
      let v := if l.index = 0 then v else max v ((s.lamp.spare[l.index - 1]?).getD 0)
      putLamp { s.lamp with
        spare := s.lamp.spare.setIfInBounds l.index v, loader := some { l with index := l.index + 1 } } s
    else s
  | none => s

/-- What the Curve Loader reads next (R95). -/
def nextCurveWord (s : State) : Option Nat :=
  match s.lamp.loader with
  | some l => if l.index < 33 then some (curveAddr s.hdr.settings.curveBase l.curve + 2 * l.index) else none
  | none => none

/-- A granted host write is compared with one curve (R96): the curve being loaded restarts its load, any other is
marked dirty. -/
def compareCurve (c : CurveSel) (start len : Nat) (s : State) : State :=
  if overlaps start len (curveAddr s.hdr.settings.curveBase c) oneCurve then
    match s.lamp.loader with
    | some l =>
      if l.curve = c then withdrawCurve (putLamp { s.lamp with loader := some { l with index := 0 } } s)
      else putLamp (s.lamp.setDirty c true) s
    | none => putLamp (s.lamp.setDirty c true) s
  else s

/-- A granted host write outside the Show Header is compared with both curves while CURVE_BASE is set (R96). -/
def curveCompare (start len : Nat) (s : State) : State :=
  if s.hdr.settings.curveBase = 0 then s else compareCurve .b start len (compareCurve .a start len s)

/-- A new CURVE_BASE, already in effect (R99). -/
def curveBaseChanged (s : State) : State :=
  if s.hdr.settings.curveBase = 0 then
    let s := putLamp { s.lamp with dirtyA := false, dirtyB := false } s
    match s.lamp.loader with
    | some _ => abandonLoad s
    | none => s
  else
    let s := putLamp { s.lamp with dirtyA := true, dirtyB := true } s
    match s.lamp.loader with
    | some l => startLoad l.curve s
    | none => s

/-! ## The half-cycle (R78 to R89) -/

/-- The trim stage (R80): Lt = min(1023, floor(L × (128 + T) / 128)). -/
def trimStage (level : Nat) (t : Int) : Nat := min 1023 (level * (128 + t).toNat / 128)

/-- The scale stage (R80): Lm = floor(Lt × M / 256). -/
def scaleStage (lt m : Nat) : Nat := lt * m / 256

/-- The floor and state stage (R81). -/
def stateStage (st : LampState) (window : Bool) (lc f : Nat) : Nat :=
  match st with
  | .on => if window then f else max lc f
  | .warming => max f 48
  | _ => 0

/-- The curve stage (R82). -/
def curveStage (bank : Vector Nat 33) (lout : Nat) : Nat :=
  let i := lout / 32
  let p := (bank[i]?).getD 0
  p + ((bank[i + 1]?).getD 0 - p) * (lout % 32) / 32

/-- The firing delay (R83), within 200..H − 400. -/
def firingDelay (h k : Nat) : Nat := clampTo 200 (h - 400) (h * (4096 - k) / 4096)

/-- Lout of a half-cycle, from the ramp level through trim, scale, ceiling, floor and state (R80, R81). -/
def loutOf (s : State) : Nat :=
  stateStage s.lamp.state s.lamp.window
    (min (scaleStage (trimStage s.lamp.level (shownTrim s)) s.lamp.m) s.thermal.ce) s.lamp.f

/-- The computation of a half-cycle event (R80 to R84). `crossing` is false for a substitute event; a firing is
scheduled in a real half-cycle of a lit lamp with K above 0, one still pending is not made, and the half-cycle begins
with no pulse of LAMP_FIRE. -/
def computeLight (crossing : Bool) (s : State) : State :=
  let lout := loutOf s
  let k := curveStage s.lamp.bank lout
  let fr : Firing := { time := s.now + firingDelay s.lamp.h k, k := k }
  let fires := crossing && s.lamp.mainsPresent && s.lamp.state.lit && decide (k ≠ 0)
  let firing := if fires then some fr else none
  putLamp { s.lamp with lout := lout, k := k, firing := firing, fired := none } s

/-- A firing that has not been seen lit by the next half-cycle event is judged unlit (R89): the fourth in a row sets the
lamp FAILED and latches lamp_failed. -/
def judgeUnlit (s : State) : State :=
  if s.lamp.judging then
    let n := s.lamp.failures + 1
    let s := putLamp { s.lamp with judging := false, failures := n } s
    if n = 4 then latch .lampFailed (setLampState .failed s) else s
  else s

/-- The lamp enters ON when the warming count has reached 20 × hpt (R88). -/
def warmedUp (s : State) : State :=
  if s.lamp.state = .warming ∧ s.lamp.warmTarget ≤ s.lamp.warmCount then setLampState .on s else s

/-- A half-cycle event in WARMING adds 1 to the warming count (R88). -/
def warmStep (s : State) : State :=
  if s.lamp.state = .warming then warmedUp (putLamp { s.lamp with warmCount := s.lamp.warmCount + 1 } s) else s

/-- The dark event of an opened window, at the first half-cycle event after the opening, once dark holds (R86). -/
def sendDark (s : State) : State :=
  if s.lamp.window && s.lamp.darkOwed && s.lamp.dark then
    putLamp { s.lamp with darkOwed := false, darkSent := true } s
  else s

/-- One half-cycle event, real or substitute, in the order the chapter gives its stages: the last firing is judged
(R89), applied settings and a loaded curve take effect (R94, R97), Ce slews (R115), the ramp steps (R78), warming counts
(R88), the light is computed (R80 to R83), dark is evaluated (R85, R86). The order is assumption 29. A lamp whose
off-marked ramp completes here is still ON in the computation (assumption 12). -/
def halfCycle (crossing : Bool) (s : State) : State :=
  sendDark (computeLight crossing (warmStep (rampStep (slewCeiling (takeUpSettings (judgeUnlit s))))))

/-- H of a history of eight (R73). -/
def averageOf (history : List Nat) : Nat := history.foldl (· + ·) 0 / 8

/-- A mains crossing (R73, R74). -/
def crossing (s : State) : State :=
  if s.lamp.mainsPresent then
    let m := s.now - s.lamp.lastCross
    if Config.halfPeriodMin ≤ m ∧ m ≤ Config.halfPeriodMax then
      let history := s.lamp.history.drop 1 ++ [m]
      halfCycle true (putLamp { s.lamp with history := history, h := averageOf history, lastCross := s.now } s)
    else s
  else halfCycle true (putLamp { s.lamp with mainsPresent := true, lastCross := s.now } s)

/-- Whether 15,000 µs have passed since the last accepted crossing (R74). -/
def mainsLossDue (s : State) : Bool :=
  s.lamp.mainsPresent && decide (Config.mainsLossTime ≤ s.now - s.lamp.lastCross)

/-- Mains becomes absent (R74): mains_loss is latched, and a substitute half-cycle event occurs at once. -/
def loseMains (s : State) : State :=
  if mainsLossDue s then
    halfCycle false (latch .mainsLoss
      (putLamp { s.lamp with mainsPresent := false, nextSub := s.now + s.lamp.h } s))
  else s

/-- Whether a substitute event is due (R74). -/
def substituteDue (s : State) : Bool := !s.lamp.mainsPresent && decide (s.lamp.nextSub ≤ s.now)

/-- A substitute half-cycle event; the next follows H µs after it (R74). -/
def substitute (s : State) : State :=
  if substituteDue s then halfCycle false (putLamp { s.lamp with nextSub := s.lamp.nextSub + s.lamp.h } s) else s

/-- Whether the pending firing's delay has passed. -/
def firingDue (s : State) : Bool :=
  match s.lamp.firing with
  | some fr => decide (fr.time ≤ s.now)
  | none => false

/-- The delay of a firing passes (R83): LAMP_FIRE is pulsed while the lamp is WARMING or ON with mains present, and a
pulse with K of 400 or more is to be judged (R89). The pulse stands in `fired` until the next half-cycle event
(assumption 68). -/
def fireLamp (s : State) : State :=
  match s.lamp.firing with
  | some fr =>
    if fr.time ≤ s.now then
      let pulsed := s.lamp.state.lit && s.lamp.mainsPresent
      putLamp { s.lamp with
        firing := none
        fired := if pulsed then some fr else s.lamp.fired
        judging := s.lamp.judging || (pulsed && decide (400 ≤ fr.k)) } s
    else s
  | none => s

/-- LAMP_CURRENT is seen active: a firing that waits to be judged is judged lit, which sets the failure counter to 0
(R89). -/
def lampCurrentSeen (s : State) : State :=
  if s.lamp.judging then putLamp { s.lamp with judging := false, failures := 0 } s else s

/-! ## Lamp minutes (R100, R101) -/

/-- lamp_life is latched once the minutes count reaches LIFE_LIMIT × 60, with LIFE_LIMIT not 0 and the flag clear
(R101). -/
def checkLife (s : State) : State :=
  if s.hdr.settings.lifeLimit ≠ 0 ∧ s.hdr.settings.lifeLimit * 60 ≤ s.lamp.minutes ∧ s.lamp.lifeReported = false then
    latch .lampLife (putLamp { s.lamp with lifeReported := true } s)
  else s

/-- The flag is cleared when a LAMP_MINUTES command or a change of LIFE_LIMIT leaves the count below the limit, and when
LIFE_LIMIT becomes 0 (R101). -/
def reviewLife (s : State) : State :=
  if s.hdr.settings.lifeLimit = 0 ∨ s.lamp.minutes < s.hdr.settings.lifeLimit * 60 then
    putLamp { s.lamp with lifeReported := false } s
  else checkLife s

/-- The minutes count rises by 1, to at most 16,777,215 (R100). -/
def minuteTick (s : State) : State :=
  if Config.minuteTime ≤ s.lamp.minuteUs then
    checkLife (putLamp { s.lamp with
      minuteUs := s.lamp.minuteUs - Config.minuteTime, minutes := min Config.lampMinutesMax (s.lamp.minutes + 1) } s)
  else s

/-- The LAMP_MINUTES command (R101). -/
def setLampMinutes (p1 p2 : Word) (s : State) : State :=
  let n := if 255 < p2.toNat then Config.lampMinutesMax else p1.toNat + 65536 * p2.toNat
  reviewLife (putLamp { s.lamp with minutes := n, minuteUs := 0 } s)

end Sys2Proof.Machine
end

