-- ==== Sys2Proof/Machine/Cooling.lean ====
section
/-! DEFINITION. The Thermal Controller's readings, its fan and its timers (R105 to R117), which reach the Lamp Drive by
trips. -/

namespace Sys2Proof.Machine

/-- A trip is sent to the Lamp Drive for a cooling fault, which is latched (R106, R109). -/
def coolingFault (s : State) : State := tripLamp (decideDuty (latch .coolingFault s))

/-- Whether the read cycle is due (R105). -/
def readCycleDue (s : State) : Bool := decide (s.thermal.nextRead ≤ s.now)

/-- A read cycle starts both sensors' reads; the next follows 250 ms later (R105). -/
def startReadCycle (s : State) : State :=
  if readCycleDue s then
    putThermal { s.thermal with
      nextRead := s.thermal.nextRead + Config.sensorPeriod, readingTh := true, readingTg := true } s
  else s

/-- The over-temperature flag against Tt (R116): when it becomes set, thermal_trip is latched and the lamp tripped. -/
def judgeOverTemp (s : State) : State :=
  if s.hdr.settings.tt ≤ s.thermal.th then
    if s.thermal.overTemp then s
    else tripLamp (latch .thermalTrip (putThermal { s.thermal with overTemp := true } s))
  else putThermal { s.thermal with overTemp := false } s

/-- The hot restart at the first accepted Th (R111). In STANDBY it starts no run-on: the part is not in STANDBY while
run-on is active (R118; assumption 24). -/
def hotRestart (s : State) : State :=
  if s.thermal.firstTaken then s
  else
    let hot := decide (45 ≤ s.thermal.th) && decide (s.lamp.state = .off) && s.thermal.runOn.isNone
      && decide (s.thermal.power ≠ .standby)
    let s := if hot then startRunOn s else s
    putThermal { s.thermal with firstTaken := true } s

/-- An accepted lamp-house reading (R105), with its re-evaluations in the order the rule lists them: zone and duty
(R107, R108), trip (R116), run-on end (R110), hot restart (R111), ceiling (R112, R115). -/
def acceptTh (v : Nat) (s : State) : State :=
  let s := putThermal { s.thermal with
    th := v, failTh := 0, readingTh := false, zone := zoneAfter s.thermal.zone v } s
  updateCeiling (hotRestart (tryEndRunOn (judgeOverTemp (decideDuty s))))

/-- An accepted gate reading (R105): the gate flag and the ceiling (R113, R115). -/
def acceptTg (v : Nat) (s : State) : State :=
  updateGateFlag (decideDuty (putThermal { s.thermal with tg := v, failTg := 0, readingTg := false } s))

/-- A failed read of the lamp-house sensor (R105, R106). -/
def failTh (s : State) : State :=
  let reached := decide (s.thermal.failTh = 3)
  let s := putThermal { s.thermal with failTh := min 4 (s.thermal.failTh + 1), readingTh := false } s
  if reached then coolingFault s else s

/-- A failed read of the gate sensor (R105, R106). -/
def failTg (s : State) : State :=
  let reached := decide (s.thermal.failTg = 3)
  let s := putThermal { s.thermal with failTg := min 4 (s.thermal.failTg + 1), readingTg := false } s
  if reached then coolingFault s else s

/-- The value a read gives, when it is one in 0..200 (R105). -/
def SensorRead.accepted : SensorRead → Option Nat
  | .value c => if 0 ≤ c ∧ c ≤ 200 then some c.toNat else none
  | .noAnswer => none
  | .badCheck => none

/-- A sensor's read ends (R105). -/
def sensorDone (sensor : Sensor) (read : SensorRead) (s : State) : State :=
  match sensor, SensorRead.accepted read with
  | .lampHouse, some v => acceptTh v s
  | .lampHouse, none => failTh s
  | .gate, some v => acceptTg v s
  | .gate, none => failTg s

/-- A FAN_TACH pulse (R109): the watch goes back to 0 and a standing fan fault is cleared. In STANDBY the watch is
stopped and a standing fault stays. -/
def tachPulse (s : State) : State :=
  if s.thermal.duty = 0 then s
  else decideDuty (putThermal { s.thermal with tachStart := s.now, fanFault := false } s)

/-- Whether 2 s have elapsed on a running tach watch (R109). -/
def tachDue (s : State) : Bool :=
  decide (s.thermal.duty ≠ 0) && decide (Config.tachLimit ≤ s.now - s.thermal.tachStart)

/-- The tach watch expires (R109) and starts again at 0. -/
def tachExpiry (s : State) : State :=
  if tachDue s then
    let stood := s.thermal.fanFault
    let s := putThermal { s.thermal with tachStart := s.now, fanFault := true } s
    if stood then s else coolingFault s
  else s

/-- Whether the dwell timer has reached its limit (R114) and still counts: an occurrence taken before it that ends the
counting leaves it at the limit with the flag clear (assumption 52). -/
def dwellDue (s : State) : Bool := s.dwellCounts && decide (dwellLimitUs s ≤ s.thermal.dwellUs)

/-- The dwell timer reaches the dwell limit (R114). -/
def dwellReached (s : State) : State := if dwellDue s then setDwellFlag s else s

end Sys2Proof.Machine
end

