-- ==== Sys2Proof/Machine/Transport.lean ====
section
/-! DEFINITION. The Tray Transport: requests, planning, homing, the change cycle, jams, stops, removal and seating
(02_tray_transport.md, R27 to R51). -/

namespace Sys2Proof.Machine

/-! ## Positions -/

/-- The next position in a direction, among n. -/
def nextPos (n : Nat) (d : Dir) (p : Nat) : Nat :=
  match d with
  | .forward => (p + 1) % n
  | .reverse => (p + (n - 1)) % n

/-- The distance from one position to another in a direction. -/
def posDistance (n : Nat) (d : Dir) (a b : Nat) : Nat :=
  match d with
  | .forward => (b + (n - a)) % n
  | .reverse => (a + (n - b)) % n

/-- The position k further in a direction. -/
def posAfter (n : Nat) (d : Dir) (p k : Nat) : Nat :=
  match d with
  | .forward => (p + k) % n
  | .reverse => (p + (n - k % n)) % n

/-- The direction and the positions to go of GOTO (R31): the shorter way round, an exact half forward. -/
def gotoPlan (n slot target : Nat) : Dir × Nat :=
  let d := posDistance n .forward slot target
  if d ≤ n / 2 then (.forward, d) else (.reverse, n - d)

/-! ## Answers (R42) -/

/-- The remaining count of a request ended before it was planned. -/
def TrayKind.count : TrayKind → Nat
  | .advance n => n
  | .reverse n => n
  | .goto _ => 0
  | .clearJam => 0

/-- The current slot when the position is known, 0 when it is not. -/
def Tray.slotIfKnown (t : Tray) : Nat := if t.known then t.slot else 0

/-- The remaining count and last slot of a request as it ends now (R42): of a planned one its positions to go and the
slot of its last pulse, of an unplanned one its count and the slot if known. While the search of a
continuation (R41) waits for a record, the plan is still that of the leg that has ended (assumption 48). -/
def Tray.endValues (t : Tray) (r : TrayRequest) : Nat × Nat :=
  match r.plan with
  | some p => (p.toGo, t.slot)
  | none => (r.kind.count, t.slotIfKnown)

/-- A completion event is sent to the executor. -/
def sendCompletion (o : TrayOutcome) (remaining lastSlot : Nat) (s : State) : State :=
  putTray { s.tray with
    remaining := remaining, lastSlot := lastSlot
    completion := some { outcome := o, remaining := remaining, lastSlot := lastSlot } } s

/-- A request answered at once, with the values of an unplanned one (R29, R42). -/
def answerAtOnce (o : TrayOutcome) (kind : TrayKind) (s : State) : State :=
  sendCompletion o kind.count s.tray.slotIfKnown s

/-- The request in hand ends with an outcome and the values of R42. -/
def endRequest (o : TrayOutcome) (s : State) : State :=
  match s.tray.request with
  | some r =>
    let v := s.tray.endValues r
    sendCompletion o v.1 v.2 (putTray { s.tray with request := none, wait := .none, repin := false } s)
  | none => s

/-! ## Pins (R34, R62) -/

/-- Releases the destination pin, when one is held. -/
def releaseDest (s : State) : State :=
  match s.tray.destPin with
  | some slot => releasePin .slot slot (putTray { s.tray with destPin := none } s)
  | none => s

/-- Releases the shown-slide pin, when one is held. -/
def releaseShown (s : State) : State :=
  match s.tray.shownPin with
  | some slot => releasePin .slot slot (putTray { s.tray with shownPin := none } s)
  | none => s

/-- Pins the record of a slide shown by a lookup of its own. -/
def pinShown (slot : Nat) (s : State) : State :=
  match lookup .slot slot true s with
  | (s, .absent) => s
  | (s, _) => putTray { s.tray with shownPin := some slot } s

/-- At the end of a drop that found a slide, the destination pin becomes the shown-slide pin (R40); where the drop was at
another slot, or a RESET dropped the pin, the seated slot is looked up (R34, R71). DEDUCED, unsafe: the manual does not
say what becomes of a pin on another slot than the one seated (assumption 25). -/
def seatPin (s : State) : State :=
  if s.tray.destPin = some s.tray.slot then
    putTray { s.tray with shownPin := s.tray.destPin, destPin := none } s
  else
    let other := s.tray.destPin.isSome || s.tray.repin
    let s := releaseDest s
    match s.tray.request with
    | some r =>
      match r.plan with
      | some p => if other || decide (p.dest ≠ s.tray.slot) then pinShown s.tray.slot s else s
      | none => pinShown s.tray.slot s
    | none => s

/-! ## Jams (R43) -/

/-- The transport enters JAMMED with the position flag given, and answers the request. -/
def enterJam (known : Bool) (s : State) : State :=
  let s := putTray { s.tray with state := .jammed, gate := .unknown, known := known, wait := .none } s
  endRequest .jammed (releaseShown (releaseDest (latch .jam s)))

/-! ## The change cycle (R36 to R39) -/

/-- DROP is entered (R39). -/
def enterDrop (s : State) : State :=
  putTray { s.tray with state := .drop, timerStart := s.now, wait := .none } s

/-- Sets the plan of the request in hand. -/
def Tray.setPlan (t : Tray) (p : Plan) : Tray :=
  match t.request with
  | some r => { t with request := some { r with plan := some p } }
  | none => t

/-- The positions to go of the request in hand, and whether a stop is requested. -/
def Tray.toGo (t : Tray) : Nat :=
  match t.request with
  | some r =>
    match r.plan with
    | some p => p.toGo
    | none => 0
  | none => 0

/-- Whether the request in hand has a stop requested. -/
def Tray.stopping (t : Tray) : Bool :=
  match t.request with
  | some r => r.stopRequested
  | none => false

/-- The arm has reached its top limit in LIFT (R36): the gate is EMPTY, and ROTATE follows, or DROP when there is nothing
to rotate or a stop is requested (R45). -/
def liftReached (s : State) : State :=
  let s := putTray { s.tray with gate := .empty } s
  if s.tray.stopping || decide (s.tray.toGo = 0) then enterDrop s
  else putTray { s.tray with state := .rotate, timerStart := s.now } s

/-- LIFT is entered (R36); a top limit already active ends it at once. -/
def startLift (s : State) : State :=
  let s := releaseShown s
  let s := putTray { s.tray with
    state := .lift, retry := false, lowering := false, timerStart := s.now, wait := .none } s
  if s.tray.topOn then liftReached s else s

/-- The outcome of the drop that has just been read: seated or empty (R35, R40). -/
def dropOutcome (t : Tray) : TrayOutcome := if t.gate = .loaded then .seated else .empty

/-- Whether the request in hand was planned after homing, and goes nowhere (R35). -/
def Tray.homedHere (t : Tray) : Bool :=
  match t.request with
  | some r => r.homed && decide (t.toGo = 0)
  | none => false

/-- The plan's destination is fixed and its record answered: a rotation halted for a re-plan goes on or ends (R38), a
plan of 0 positions after homing ends its request with the homing drop's outcome (R35), and any other planned request
starts its cycle (R36). DESIGN CHOICE, unsafe: the ended request waits for its destination's record like any other
(assumption 56). -/
def destinationReady (s : State) : State :=
  let s := putTray { s.tray with wait := .none } s
  if s.tray.state = .rotate then
    (if s.tray.toGo = 0 then enterDrop s else putTray { s.tray with timerStart := s.now } s)
  else if s.tray.homedHere then endRequest (dropOutcome s.tray) (releaseDest s)
  else startLift s

/-- The destination is fixed and its slot record pinned (R34). -/
def fixDestination (p : Plan) (s : State) : State :=
  let s := putTray (s.tray.setPlan p) s
  match lookup .slot p.dest true s with
  | (s, .absent) => destinationReady s
  | (s, .copy _) => destinationReady (putTray { s.tray with destPin := some p.dest } s)
  | (s, .waiting) => putTray { s.tray with destPin := some p.dest, wait := .destination } s

/-! ## The skip search (R33, R34) -/

/-- The direction of an ADVANCE or a REVERSE. -/
def TrayKind.dir : TrayKind → Dir
  | .reverse _ => .reverse
  | _ => .forward

/-- The examined count of the request in hand. -/
def Tray.examined (t : Tray) : Nat :=
  match t.request with
  | some r => r.examined
  | none => 0

/-- Whether the plan of the request in hand goes to a position. -/
def Tray.goesTo (t : Tray) (dest : Nat) : Bool :=
  match t.request with
  | some r =>
    match r.plan with
    | some p => decide (p.dest = dest)
    | none => false
  | none => false

/-- A re-plan of a rotation (R38): one that keeps the destination keeps its pin and needs no lookup; one that moves it
releases the destination pin and pins the new destination's record. -/
def replan (p : Plan) (s : State) : State :=
  if s.tray.goesTo p.dest then destinationReady (putTray (s.tray.setPlan p) s)
  else fixDestination p (releaseDest s)

/-- The search is over (R33): its destination is fixed (R34), or in a rotation re-planned (R38). -/
def searchDone (dir : Dir) (dest : Nat) (found : List Nat) (find : Nat) (s : State) : State :=
  match s.tray.request with
  | some r =>
    let p : Plan := { dir := dir, dest := dest, toGo := posDistance s.tray.n dir s.tray.slot dest }
    let s := putTray { s.tray with wait := .none, request := some { r with found := found, toFind := find } } s
    if s.tray.state = .rotate then replan p s
    else fixDestination p s
  | none => s

/-- The last of a list, or position 0 (R33). -/
def lastOrGap : List Nat → Nat
  | [] => 0
  | [p] => p
  | _ :: rest => lastOrGap rest

/-- Whether a position is eligible, its record's skip flag given (R33). -/
def eligible (t : Tray) (p : Nat) (skip : Bool) : Bool :=
  decide (p ≠ 0) && decide ((t.presence[p]?).getD .unknown ≠ .empty) && !skip

/-- One position has been looked at (R33): either the search is over, or it goes on with the search given back. DESIGN
CHOICE, unsafe: the last eligible position found is one of this search's own, not of the leg before a slip (assumption
75). -/
def searchLook (se : Search) (skip : Bool) (s : State) : State × Option Search :=
  match s.tray.request with
  | some r =>
    let dir := r.kind.dir
    let s := putTray { s.tray with request := some { r with examined := r.examined + 1 } } s
    let hit := eligible s.tray se.pos skip
    let found := if hit then se.found ++ [se.pos] else se.found
    let find := if hit then se.find - 1 else se.find
    if find = 0 then (searchDone dir se.pos found 0 s, none)
    else if s.tray.n - 1 ≤ s.tray.examined then (searchDone dir (lastOrGap found) found find s, none)
    else (s, some { pos := nextPos s.tray.n dir se.pos, find := find, found := found })
  | none => (s, none)

/-- The search looks at positions until it is over or waits for a record (R34). -/
def searchRun : Nat → Search → State → State
  | 0, _, s => s
  | fuel + 1, se, s =>
    match lookup .slot se.pos false s with
    | (s, .waiting) => putTray { s.tray with wait := .search se } s
    | (s, .copy c) =>
      match searchLook se (slotSkip c) s with
      | (s, some se') => searchRun fuel se' s
      | (s, none) => s
    | (s, .absent) =>
      match searchLook se false s with
      | (s, some se') => searchRun fuel se' s
      | (s, none) => s

/-- A search for `find` eligible positions starts next to the current slot, continuing the examined count; a request
that has looked at N − 1 positions already finds position 0 (R33, R38, R41). DESIGN CHOICE, unsafe: it does so after a
slip too, though eligible positions were found before the slip (assumption 75). -/
def startSearch (find : Nat) (s : State) : State :=
  match s.tray.request with
  | some r =>
    let dir := r.kind.dir
    if s.tray.n - 1 ≤ r.examined then searchDone dir 0 [] find s
    else searchRun 96 { pos := nextPos s.tray.n dir s.tray.slot, find := find, found := [] } s
  | none => s

/-! ## Planning (R31 to R33) -/

/-- An ADVANCE or REVERSE is planned with skipping (R33): the search for its k eligible positions starts. -/
def planSearch (k : Nat) (s : State) : State :=
  match s.tray.request with
  | some r => startSearch k (putTray { s.tray with request := some { r with skipping := true } } s)
  | none => s

/-- The request in hand is planned from the current slot, in READY. A count above N − 1, of a tray since replaced, is
planned as it stands (assumption 47). -/
def planRequest (s : State) : State :=
  match s.tray.request with
  | some r =>
    let n := s.tray.n
    let slot := s.tray.slot
    match r.kind with
    | .goto target =>
      let g := gotoPlan n slot target
      fixDestination { dir := g.1, dest := target, toGo := g.2 } s
    | .advance k =>
      if s.hdr.settings.skip then planSearch k s
      else fixDestination { dir := .forward, dest := posAfter n .forward slot k, toGo := k } s
    | .reverse k =>
      if s.hdr.settings.skip then planSearch k s
      else fixDestination { dir := .reverse, dest := posAfter n .reverse slot k, toGo := k } s
    | .clearJam => s
  | none => s

/-! ## Homing (R35) -/

/-- Step 3: the arm is at the top, the gate EMPTY, and the tray turns forward. -/
def homingRotate (s : State) : State :=
  putTray { s.tray with gate := .empty, homingStep := .rotate, homingCount := 0, timerStart := s.now } s

/-- The arm is driven up in homing. -/
def homingUp (s : State) : State :=
  let s := putTray { s.tray with lowering := false, timerStart := s.now } s
  if s.tray.topOn then homingRotate s else s

/-- Step 2: the lift, which releases the shown-slide pin. -/
def homingLift (s : State) : State :=
  let s := releaseShown s
  homingUp (putTray { s.tray with homingStep := .lift, retry := false } s)

/-- HOMING is entered; an arm already at BOTTOM passes step 1. -/
def startHoming (s : State) : State :=
  let s := putTray { s.tray with state := .homing, homingStep := .lower, timerStart := s.now, lowering := false } s
  if s.tray.bottomOn then homingLift s else s

/-! ## Requests (R29, R30, R44) -/

/-- The recovery ends (R44). -/
def recoverDone (s : State) : State :=
  let s := putTray { s.tray with state := if s.tray.known then .ready else .unhomed } s
  endRequest .ok s

/-- A fresh request record. -/
def TrayRequest.fresh (kind : TrayKind) (dark : Bool) : TrayRequest where
  kind := kind
  dark := dark
  plan := none
  examined := 0
  stopRequested := false
  skipping := false
  found := []
  toFind := 0
  homed := false

/-- The transport takes a request in hand. -/
def holdRequest (kind : TrayKind) (dark : Bool) (s : State) : State :=
  putTray { s.tray with request := some (TrayRequest.fresh kind dark), wait := .none, repin := false } s

/-- Whether a request is turned away in READY or UNHOMED: a DARK one without the dark permit (R30), or a GOTO beyond the
tray (R31). -/
def turnedAway (kind : TrayKind) (dark : Bool) (s : State) : Bool :=
  (dark && !s.lamp.dark) ||
    (match kind with
     | .goto slot => decide (s.tray.n ≤ slot)
     | _ => false)

/-- A request arrives from the Cue Executor (R29). DESIGN CHOICE, unsafe: a GOTO beyond the tray that arrives in TRAY_OUT
or JAMMED is answered by the state, as R29's table has it, and not refused as R31 has it (assumption 78). -/
def requestTransport (kind : TrayKind) (dark : Bool) (s : State) : State :=
  if s.tray.request.isSome then answerAtOnce .refused kind s
  else
    match s.tray.state with
    | .trayOut => answerAtOnce .trayOut kind s
    | .jammed =>
      if kind = .clearJam then
        let s := holdRequest kind dark s
        let s := putTray { s.tray with state := .recover, timerStart := s.now } s
        if s.tray.bottomOn then recoverDone s else s
      else answerAtOnce .jammed kind s
    | .ready =>
      if kind = .clearJam then answerAtOnce .ok kind s
      else if turnedAway kind dark s then answerAtOnce .refused kind s
      else planRequest (holdRequest kind dark s)
    | .unhomed =>
      if kind = .clearJam then answerAtOnce .ok kind s
      else if turnedAway kind dark s then answerAtOnce .refused kind s
      else startHoming (holdRequest kind dark s)
    | _ => answerAtOnce .refused kind s

/-- A stop request arrives from the executor (R45). -/
def stopTransport (s : State) : State :=
  match s.tray.request with
  | some r =>
    if r.stopRequested then s
    else
      let s := putTray { s.tray with request := some { r with stopRequested := true } } s
      match s.tray.state with
      | .ready => endRequest .stopped (releaseDest s)
      | _ => s
  | none => s

/-! ## Limit switches -/

/-- The arm comes down again for a retry (R36): when the lowering has reached the bottom, a fresh lift starts. -/
def relift (s : State) : State :=
  let s := putTray { s.tray with lowering := false, timerStart := s.now } s
  if s.tray.topOn then liftReached s else s

/-- A drop ends (R39): GATE_SENSE sets the gate and the Presence entry of the current slot, the Thermal Controller is
told, and the settling begins. -/
def dropDone (slideSeen : Bool) (s : State) : State :=
  let t := s.tray
  let s := putTray { t with
    gate := if slideSeen then .loaded else .empty
    presence := t.presence.setIfInBounds t.slot (if slideSeen then .present else .empty)
    timerStart := s.now } s
  dropReported s

/-- ARM_TOP changes (R27, R28, R36): its level is read in every state, and it is an event in a lift alone. -/
def armTopChange (active : Bool) (s : State) : State :=
  let s := putTray { s.tray with topOn := active } s
  if active then
    match s.tray.state with
    | .lift => if s.tray.lowering then s else liftReached s
    | .homing => if s.tray.homingStep = .lift ∧ s.tray.lowering = false then homingRotate s else s
    | _ => s
  else s

/-- ARM_BOTTOM changes, with GATE_SENSE as a drop reads it (R27, R28, R35, R36, R39, R44): its level is read in every
state, and it is an event in the states that wait for it. -/
def armBottomChange (active slideSeen : Bool) (s : State) : State :=
  let s := putTray { s.tray with bottomOn := active } s
  if active then
    match s.tray.state with
    | .lift => if s.tray.lowering then relift s else s
    | .drop =>
      let s := dropDone slideSeen s
      putTray { s.tray with state := .settle } s
    | .recover => recoverDone s
    | .homing =>
      match s.tray.homingStep with
      | .lower => homingLift s
      | .lift => if s.tray.lowering then homingUp s else s
      | .drop =>
        let s := dropDone slideSeen s
        putTray { s.tray with homingStep := .settle } s
      | _ => s
    | _ => s
  else s

/-! ## Time limits -/

/-- Whether the present time limit has passed. -/
def limitPassed (limit : Nat) (s : State) : Bool := decide (limit ≤ s.now - s.tray.timerStart)

/-- Whether a lift is under way, in a change or in homing. -/
def Tray.lifting (t : Tray) : Bool :=
  (decide (t.state = .lift) || (decide (t.state = .homing) && decide (t.homingStep = .lift))) && !t.lowering

/-- Whether a lowering of a retry or of homing step 1 is under way. -/
def Tray.loweringNow (t : Tray) : Bool :=
  ((decide (t.state = .lift) || (decide (t.state = .homing) && decide (t.homingStep = .lift))) && t.lowering)
    || (decide (t.state = .homing) && decide (t.homingStep = .lower))

/-- Whether the tray is turning under the 400 ms limit. -/
def Tray.turning (t : Tray) : Bool :=
  (decide (t.state = .rotate) && decide (t.wait = .none))
    || (decide (t.state = .homing) && decide (t.homingStep = .rotate))

/-- Whether a drop is under way. -/
def Tray.dropping (t : Tray) : Bool :=
  decide (t.state = .drop) || (decide (t.state = .homing) && decide (t.homingStep = .drop))

/-- Whether a settling is under way. -/
def Tray.settling (t : Tray) : Bool :=
  decide (t.state = .settle) || (decide (t.state = .homing) && decide (t.homingStep = .settle))

/-- Whether each time limit is due. -/
def liftDue (s : State) : Bool := s.tray.lifting && limitPassed Config.liftLimit s
def lowerDue (s : State) : Bool := s.tray.loweringNow && limitPassed Config.lowerLimit s
def rotateDue (s : State) : Bool := s.tray.turning && limitPassed Config.rotateLimit s
def dropDue (s : State) : Bool := s.tray.dropping && limitPassed Config.dropLimit s
def settleDue (s : State) : Bool := s.tray.settling && limitPassed Config.settleTime s
def recoverDue (s : State) : Bool := decide (s.tray.state = .recover) && limitPassed Config.recoverLimit s

/-- Whether the position flag is kept by a jam outside rotation: known in a change, not in homing (R43). -/
def Tray.keptKnown (t : Tray) : Bool := decide (t.state ≠ .homing) && t.known

/-- 800 ms of a lift pass (R36, R35): the first time the arm is lowered for a retry, the second time is a jam. -/
def liftExpiry (s : State) : State :=
  if liftDue s then
    if s.tray.retry then enterJam s.tray.keptKnown s
    else
      let s := putTray { s.tray with retry := true, lowering := true, timerStart := s.now } s
      if s.tray.bottomOn then (if s.tray.state = .lift then relift s else homingUp s) else s
  else s

/-- 600 ms of a lowering pass (R36, R35). -/
def lowerExpiry (s : State) : State := if lowerDue s then enterJam s.tray.keptKnown s else s

/-- 400 ms pass without a pulse (R37, R35). -/
def rotateExpiry (s : State) : State := if rotateDue s then enterJam false s else s

/-- 600 ms of a drop pass (R39, R35). -/
def dropExpiry (s : State) : State := if dropDue s then enterJam s.tray.keptKnown s else s

/-- 800 ms of a recovery pass (R44): JAMMED again, with the position flag kept. -/
def recoverExpiry (s : State) : State := if recoverDue s then enterJam s.tray.known s else s

/-! ## INDEX pulses (R37, R38, R35) -/

/-- Takes a reached eligible position off the list of those ahead. -/
def TrayRequest.reached (r : TrayRequest) (slot : Nat) : TrayRequest :=
  match r.found with
  | p :: rest => if p = slot then { r with found := rest } else r
  | [] => r

/-- A home mark where the count is not 0 (R38): the count is corrected to 0, position_slip latched, and the request
re-planned from 0, or ended there when a stop is requested (R45). While the skip search from 0 waits for a record, the
destination in effect is the old one and the positions to go are those from 0 to it (R42, assumption 49). DESIGN
CHOICE, unsafe: the eligible positions that a skip search from 0 still has to find are those of the planned leg not yet
reached together with those the plan had not found, the slip pulse's own position not counted as reached (assumption
64). -/
def slipHome (r : TrayRequest) (p : Plan) (toGo : Nat) (s : State) : State :=
  let n := s.tray.n
  let s := latch .positionSlip (putTray { s.tray with slot := 0 } s)
  match r.kind with
  | .goto target =>
    let p := { p with toGo := posDistance n p.dir 0 target }
    let s := putTray (s.tray.setPlan p) s
    if r.stopRequested || decide (p.toGo = 0) then enterDrop s else s
  | _ =>
    let p := { p with toGo := if r.skipping then posDistance n p.dir 0 p.dest else toGo }
    if r.stopRequested then enterDrop (putTray (s.tray.setPlan p) s)
    else if r.skipping then startSearch (r.found.length + r.toFind) (putTray (s.tray.setPlan p) s)
    else replan { p with dest := posAfter n p.dir 0 toGo } s

/-- An INDEX pulse of ROTATE (R37, R38). -/
def rotatePulse (home : Bool) (s : State) : State :=
  match s.tray.request with
  | some r =>
    match r.plan with
    | some p =>
      let slot := nextPos s.tray.n p.dir s.tray.slot
      let toGo := p.toGo - 1
      let s := putTray { s.tray with slot := slot, timerStart := s.now } s
      if home ∧ slot ≠ 0 then slipHome r p toGo s
      else
        let s := if home = false ∧ slot = 0 then latch .positionSlip (putTray { s.tray with known := false } s) else s
        let s := putTray { s.tray with
          request := some { r.reached slot with plan := some { p with toGo := toGo } } } s
        if r.stopRequested || decide (toGo = 0) then enterDrop s else s
    | none => s
  | none => s

/-- An INDEX pulse of homing's rotation (R35). -/
def homingPulse (home : Bool) (s : State) : State :=
  if home then putTray { s.tray with slot := 0, homingStep := .drop, timerStart := s.now } s
  else
    let s := putTray { s.tray with homingCount := s.tray.homingCount + 1, timerStart := s.now } s
    if s.tray.homingCount = s.tray.n + 2 then enterJam false s else s

/-- An INDEX pulse (R28, R35, R37): ignored outside rotation, and while the motor is stopped for a record (R38). -/
def indexPulseSeen (home : Bool) (s : State) : State :=
  match s.tray.state with
  | .rotate => if s.tray.wait = .none then rotatePulse home s else s
  | .homing => if s.tray.homingStep = .rotate then homingPulse home s else s
  | _ => s

/-! ## Settling (R40, R41, R35) -/

/-- Whether an empty drop is to be continued (R40). -/
def continues (s : State) : Bool :=
  match s.tray.request with
  | some r =>
    decide (s.tray.gate = .empty) && r.skipping && decide (s.tray.slot ≠ 0) && s.tray.known
      && !r.stopRequested
      && (match r.kind with
          | .advance _ => true
          | .reverse _ => true
          | _ => false)
  | none => false

/-- SETTLE ends a change (R40), or goes on after an empty drop (R41). -/
def settleChange (s : State) : State :=
  let s := if s.tray.gate = .loaded then seatPin s else releaseDest s
  if continues s then startSearch 1 (putTray { s.tray with state := .ready } s)
  else
    let s := putTray { s.tray with state := if s.tray.known then .ready else .unhomed } s
    endRequest (dropOutcome s.tray) s

/-- The settling of homing ends (R35): the position is known, the record of a slide seated at 0 is looked up (assumption
57), and the request is planned from 0, or ends when a stop is requested (R45). -/
def settleHoming (s : State) : State :=
  let s := putTray { s.tray with state := .ready, known := true, slot := 0 } s
  let s := if s.tray.gate = .loaded then pinShown 0 s else s
  match s.tray.request with
  | some r =>
    if r.stopRequested then endRequest (dropOutcome s.tray) s
    else planRequest (putTray { s.tray with request := some { r with homed := true } } s)
  | none => s

/-- 150 ms of settling pass (R40, R35). -/
def settleExpiry (s : State) : State :=
  if settleDue s then (if s.tray.state = .homing then settleHoming s else settleChange s) else s

/-! ## Records answered (R34, R57, R60) -/

/-- A slot record that the transport waits for is answered with its copy. -/
def trayRecord (slot : Nat) (copy : List Word) (s : State) : State :=
  match s.tray.wait with
  | .search se =>
    if se.pos = slot then
      match searchLook se (slotSkip copy) (putTray { s.tray with wait := .none } s) with
      | (s, some se') => searchRun 96 se' s
      | (s, none) => s
    else s
  | .destination =>
    match s.tray.request with
    | some r =>
      match r.plan with
      | some p => if p.dest = slot then destinationReady s else s
      | none => s
    | none => s
  | .none => s

/-- Whether one of the transport's pins is among these keys. -/
def pinFilling (pin : Option Nat) (keys : List Nat) : Bool :=
  match pin with
  | some k => keys.contains k
  | none => false

/-- A slot base of 0 drops the pins on the entries it frees (R67), and those of lookups that wait for an entry. -/
def trayDropPins (keys : List Nat) (s : State) : State :=
  putTray { s.tray with
    destPin := if pinFilling s.tray.destPin keys then none else s.tray.destPin
    shownPin := if pinFilling s.tray.shownPin keys then none else s.tray.shownPin } s

/-! ## Removal and seating (R47, R48) -/

/-- The tray is removed (R47). DESIGN CHOICE, unsafe: the position flag is cleared before the request is answered, so that
one not yet planned, in a first skip search or in RECOVER, is answered with a last slot of 0 (R42, assumption 76). -/
def removeTray (s : State) : State :=
  if s.tray.state = .trayOut then s
  else
    let s := putTray { s.tray with
      state := .trayOut, presence := Vector.replicate 96 .unknown, known := false, gate := .unknown, wait := .none } s
    endRequest .trayOut (releaseShown (releaseDest (latch .trayRemoved s)))

/-- A tray is seated, which the mechanism allows only at position 0 (R48). -/
def seatTray (tray96 : Bool) (s : State) : State :=
  if s.tray.state = .trayOut then
    putTray { s.tray with n := if tray96 then 96 else 48, slot := 0, known := true, gate := .empty, state := .ready } s
  else s

/-- The lookup that a held request waits on is made afresh against the emptied table (R70): the search's position, or the
destination's pin lookup. -/
def lookAfresh (s : State) : State :=
  match s.tray.request, s.tray.wait with
  | some _, .search se => searchRun 96 se s
  | some r, .destination =>
    match r.plan with
    | some p => fixDestination p s
    | none => s
  | _, _ => s

/-- After a RESET command the transport re-establishes the records it needs (R70, R71): its pins are gone; a held request's
seating will look its record up, and a lookup it waits on is made afresh; with none held, a slide shown is looked up at
once. -/
def trayAfterReset (s : State) : State :=
  let s := putTray { s.tray with destPin := none, shownPin := none, repin := s.tray.request.isSome } s
  if s.tray.gate = .loaded ∧ s.tray.known ∧ s.tray.request = none then pinShown s.tray.slot s else lookAfresh s

end Sys2Proof.Machine
end

