-- ==== Sys2Proof/Machine/ClipOps.lean ====
section
/-! DEFINITION. The Clip Player: start requests, serving, the play and its FIFO, fading out and stopping
(07_sound_clips_and_program_audio.md, R151 to R164, R168, R169). -/

namespace Sys2Proof.Machine

/-- The player changes state; the program gain's target is worked out again (R165), and CLIP_OUT is 0 in IDLE and
FETCHING (R159). -/
def setPlayer (st : PlayerState) (s : State) : State :=
  let out := if st = .idle ∨ st = .fetching then 0 else s.clip.lastOutput
  putClip (ClipPlayer.retarget s.now { s.clip with state := st, lastOutput := out }) s

/-! ## Answers (R155) -/

/-- A start request is answered, and the answer posted according to its source (R155). -/
def answerStart (source : ClipSource) (code : ResultCode) (s : State) : State :=
  match source with
  | .command _ => if activeWith codeClip s then endPlain code s else s
  | .tape t => if code = .ok then s else handLog (.execFail false kindClip code t) s
  | .injected => if code = .ok then s else handLog (.execFail true kindClip code 0) s
  | .remote => s
  | .linked => s

/-! ## Plays (R156, R157, R161) -/

/-- A play begins (R157): the copy is latched, the FIFO is empty and priming. -/
def beginPlay (clip : Nat) (source : ClipSource) (copy : List Word) (s : State) : State :=
  let d := descriptorOf copy
  setPlayer .playing (putClip { s.clip with
    playing := some { clip := clip, source := source, desc := d }
    fetchAddr := d.start, toFetch := d.length, fetchDone := false, inFlight := false, priming := true
    underrunReported := false, fadeCount := 0, lastOutput := 0, fifo := [] } s)

/-- The head of the clip queue leaves it, its pin is released and its play begins; an empty queue makes the player IDLE
(R154, R161, R162). -/
def playNext (s : State) : State :=
  match s.clip.queue with
  | e :: rest =>
    let s := putClip { s.clip with queue := rest } s
    let s := if e.pinned then releasePin .clip e.clip s else s
    beginPlay e.clip e.source e.copy s
  | [] => setPlayer .idle (putClip { s.clip with playing := none, fifo := [], inFlight := false } s)

/-- Every entry leaves the clip queue, and its pin is released (R153, R163). -/
def emptyClipQueue (s : State) : State :=
  let s' := s.clip.queue.foldl (fun s e => if e.pinned then releasePin .clip e.clip s else s) s
  putClip { s'.clip with queue := [] } s'

/-- The playing clip enters FADING_OUT (R162); a play still priming leaves priming, and its first sample is due at
once. -/
def enterFade (s : State) : State :=
  let c := s.clip
  let rate := match c.playing with
    | some p => p.desc.rate
    | none => 0
  let c := { c with fadeCount := fadeLength rate }
  let c := if c.priming then { c with priming := false, sampleBase := s.now, samples := 0 } else c
  setPlayer .fadingOut (putClip c s)

/-! ## Serving (R152 to R154) -/

/-- The start record becomes absent and its pin is released. -/
def dropStart (st : StartRecord) (s : State) : State :=
  let s := putClip { s.clip with start := none } s
  if st.pinned then releasePin .clip st.request.clip s else s

/-- Whether a lookup's answer gives a valid descriptor (R156). -/
def copyValid : Option (List Word) → Bool
  | some copy => descriptorValid (descriptorOf copy)
  | none => false

/-- A CUT request's descriptor has been answered (R153). -/
def resolveCut (st : StartRecord) (copy : Option (List Word)) (s : State) : State :=
  if copyValid copy then
    if s.clip.state = .fetching then
      beginPlay st.request.clip st.request.source (copy.getD []) (answerStart st.request.source .ok (dropStart st s))
    else putClip { s.clip with start := some { st with copy := copy } } s
  else
    let s := answerStart st.request.source .clipInvalid (dropStart st s)
    if s.clip.state = .fetching then setPlayer .idle s else s

/-- A QUEUE request's descriptor has been answered (R154); appended while the player is IDLE, it starts at once. -/
def resolveQueue (st : StartRecord) (copy : Option (List Word)) (s : State) : State :=
  if copyValid copy && decide (s.clip.queue.length < 4) then
    let e : ClipEntry :=
      { clip := st.request.clip, source := st.request.source, copy := copy.getD [], pinned := st.pinned }
    let s := putClip { s.clip with queue := s.clip.queue ++ [e], start := none } s
    let s := answerStart st.request.source .ok s
    if s.clip.state = .idle then playNext s else s
  else answerStart st.request.source .clipInvalid (dropStart st s)

/-- The start record's descriptor has been answered. -/
def resolveStart (copy : Option (List Word)) (s : State) : State :=
  match s.clip.start with
  | some st => if st.request.queueMode then resolveQueue st copy s else resolveCut st copy s
  | none => s

/-- The start record is made for a request, and its descriptor looked up with a pin (R153, R154). -/
def lookupStart (r : ClipRequest) (s : State) : State :=
  match lookup .clip r.clip true s with
  | (s, .copy c) =>
    resolveStart (some c) (putClip { s.clip with start := some { request := r, copy := none, pinned := true } } s)
  | (s, .absent) =>
    resolveStart none (putClip { s.clip with start := some { request := r, copy := none, pinned := false } } s)
  | (s, .waiting) => putClip { s.clip with start := some { request := r, copy := none, pinned := true } } s

/-- A request is served (R153, R154): a CUT empties the queue and brings the player toward its clip. -/
def serve (r : ClipRequest) (s : State) : State :=
  if r.queueMode then lookupStart r s
  else
    let s := emptyClipQueue s
    let s := match s.clip.state with
      | .idle => setPlayer .fetching s
      | .playing => enterFade s
      | _ => s
    lookupStart r s

/-- While no start record is held, the oldest request of the list is served (R152). -/
def serveNext : Nat → State → State
  | 0, s => s
  | fuel + 1, s =>
    match s.clip.start, s.clip.requests with
    | none, r :: rest => serveNext fuel (serve r (putClip { s.clip with requests := rest } s))
    | _, _ => s

/-- Serving goes on for as many requests as the list can hold. -/
def serveAll (s : State) : State := serveNext 5 s

/-- A start request arrives (R152). -/
def startRequest (r : ClipRequest) (s : State) : State :=
  if s.thermal.power ≠ .normal then
    (match r.source with
     | .command _ => if activeWith codeClip s then endPlain .standby s else s
     | _ => s)
  else if s.clip.start = none ∧ s.clip.requests = [] then serveAll (serve r s)
  else if s.clip.requests.length < 4 then putClip { s.clip with requests := s.clip.requests ++ [r] } s
  else answerStart r.source .clipInvalid s

/-- The shadow answers the descriptor the start record waits for (R57, R60); `none` is "absent". -/
def clipRecord (clip : Nat) (copy : Option (List Word)) (s : State) : State :=
  match s.clip.start with
  | some st =>
    if st.copy = none ∧ st.request.clip = clip then serveAll (resolveStart copy s) else s
  | none => s

/-- A clip base of 0 answers "absent" for a descriptor being filled and drops its pin (R67). -/
def clipAbsent (clip : Nat) (s : State) : State :=
  match s.clip.start with
  | some st =>
    if st.copy = none ∧ st.request.clip = clip then
      clipRecord clip none (putClip { s.clip with start := some { st with pinned := false } } s)
    else s
  | none => s

/-! ## The sample FIFO (R158 to R162) -/

/-- Whether the player has a sample word to request (R158). -/
def ClipPlayer.wantsWord (c : ClipPlayer) : Bool :=
  (decide (c.state = .playing) || decide (c.state = .fadingOut)) && !c.fetchDone && !c.inFlight
    && decide (c.fifo.length ≤ 62)

/-- Whether a class S request is urgent (R158, R191). -/
def ClipPlayer.urgent (c : ClipPlayer) : Bool := decide (c.fifo.length ≤ 16)

/-- The samples of a word: its low byte and then its high byte, the latter not taken when only one is left (R158). -/
def wordSamples (w : Word) (toFetch : Nat) : List Int :=
  if toFetch = 1 then [signedByte (loByte w)] else [signedByte (loByte w), signedByte (hiByte w)]

/-- The last samples of a pass have been fetched (R161): a new pass of a looping clip with an empty queue, else fetch
done. -/
def ClipPlayer.endPass (c : ClipPlayer) : ClipPlayer :=
  match c.playing with
  | some p =>
    if p.desc.loop && c.queue.isEmpty then { c with fetchAddr := p.desc.start, toFetch := p.desc.length }
    else { c with fetchDone := true }
  | none => { c with fetchDone := true }

/-- Priming ends at 32 samples, or at fetch done with any (R159); the first sample is then due at once. -/
def ClipPlayer.endPriming (now : Nat) (c : ClipPlayer) : ClipPlayer :=
  if c.priming && (decide (32 ≤ c.fifo.length) || (c.fetchDone && !c.fifo.isEmpty)) then
    { c with priming := false, sampleBase := now, samples := 0 }
  else c

/-- A sample word returns (R158). -/
def ClipPlayer.takeWord (now : Nat) (w : Word) (c : ClipPlayer) : ClipPlayer :=
  let taken := wordSamples w c.toFetch
  let c := { c with
    fifo := c.fifo ++ taken, toFetch := c.toFetch - taken.length, fetchAddr := c.fetchAddr + 2, inFlight := false }
  ClipPlayer.endPriming now (if c.toFetch = 0 then c.endPass else c)

/-- The rate of the playing clip, in samples per second. -/
def ClipPlayer.rate (c : ClipPlayer) : Nat :=
  match c.playing with
  | some p => sampleRate p.desc.rate
  | none => 8000

/-- When the next sample is due, in whole microseconds. -/
def ClipPlayer.nextDue (c : ClipPlayer) : Nat := c.sampleBase + c.samples * 1000000 / c.rate

/-- Whether a sample is due (R159). -/
def sampleIsDue (s : State) : Bool :=
  (decide (s.clip.state = .playing) || decide (s.clip.state = .fadingOut)) && !s.clip.priming
    && decide (s.clip.nextDue ≤ s.now)

/-- The gain of the playing clip. -/
def ClipPlayer.clipGain (c : ClipPlayer) : Nat :=
  match c.playing with
  | some p => p.desc.gain
  | none => 0

/-- The fade count set at the entry to FADING_OUT (R162). -/
def ClipPlayer.fadeStart (c : ClipPlayer) : Nat :=
  match c.playing with
  | some p => fadeLength p.desc.rate
  | none => 80

/-- The output of a sample in PLAYING (R159), rounded toward minus infinity. -/
def playValue (sample : Int) (gain volume : Nat) : Int := (sample * gain * volume).fdiv 65536

/-- The output of a sample during the fade (R162), c the count after it has fallen and n the count set on entry. -/
def fadeValue (sample : Int) (gain volume c n : Nat) : Int := (sample * gain * volume * c).fdiv (65536 * n)

/-- The fade ends (R162). -/
def fadeEnd (s : State) : State :=
  let s := withdrawClip s
  let s := putClip { s.clip with
    lastOutput := 0, fifo := [], playing := none, inFlight := false, fadeCount := 0, fetchDone := true } s
  match s.clip.start with
  | some st =>
    if st.request.queueMode then playNext s
    else
      match st.copy with
      | some copy =>
        serveAll (beginPlay st.request.clip st.request.source copy
          (answerStart st.request.source .ok (dropStart st s)))
      | none => setPlayer .fetching s
  | none => playNext s

/-- A sample is output (R159, R162). -/
def outputSample (x : Int) (rest : List Int) (s : State) : State :=
  let c := s.clip
  if c.state = .fadingOut then
    let left := c.fadeCount - 1
    let s := putClip { c with
      fifo := rest, fadeCount := left, samples := c.samples + 1
      lastOutput := fadeValue x c.clipGain c.volume left c.fadeStart } s
    if left = 0 ∨ (c.fetchDone ∧ rest = []) then fadeEnd s else s
  else
    let s := putClip { c with
      fifo := rest, samples := c.samples + 1, lastOutput := playValue x c.clipGain c.volume } s
    if c.fetchDone ∧ rest = [] then playNext s else s

/-- A sample is missed (R160): last output repeats, the underrun count rises, and a play latches underrun once. -/
def missSample (s : State) : State :=
  let c := s.clip
  let s := putClip { c with
    underruns := countUp c.underruns, underrunReported := true, samples := c.samples + 1
    fadeCount := c.fadeCount - flagNat (decide (c.state = .fadingOut)) } s
  let s := latchIf (!c.underrunReported) .underrun s
  if s.clip.state = .fadingOut ∧ s.clip.fadeCount = 0 then fadeEnd s else s

/-- A sample is due (R159, R160, R162). -/
def dueSample (s : State) : State :=
  if sampleIsDue s then
    match s.clip.fifo with
    | x :: rest => outputSample x rest s
    | [] =>
      if s.clip.fetchDone then (if s.clip.state = .fadingOut then fadeEnd s else playNext s) else missSample s
  else s

/-- A gain tick is due (R166): the ticks are counted from the start of the ramp (assumption 60). -/
def gainTickDue (s : State) : Bool :=
  match s.clip.gainRamp with
  | some r => decide (r.start + (r.ticks + 1) * Config.gainTick ≤ s.now)
  | none => false

/-- A tick of the gain ramp (R166). -/
def gainTickNow (s : State) : State := if gainTickDue s then putClip s.clip.gainTick s else s

/-! ## Stops and RESET (R163, R168, R169) -/

/-- Every request of the list is removed and answered aborted. -/
def abortRequests (s : State) : State :=
  let rs := s.clip.requests
  rs.foldl (fun s r => answerStart r.source .aborted s) (putClip { s.clip with requests := [] } s)

/-- The start record is answered aborted and its pin released. -/
def abortStart (s : State) : State :=
  match s.clip.start with
  | some st => answerStart st.request.source .aborted (dropStart st s)
  | none => s

/-- A stop arrives (R163). -/
def clipStopNow (s : State) : State :=
  let s := abortStart (abortRequests (emptyClipQueue s))
  match s.clip.state with
  | .playing => enterFade s
  | .fetching => setPlayer .idle s
  | _ => s

/-- A RESET command stops the player without a fade (R169); pins go with the Watch Table, and no releases are sent.
DESIGN CHOICE, unsafe: the EXEC_FAIL records of the request list come before that of the start record (assumption
61). -/
def clipReset (s : State) : State :=
  let s := withdrawClip s
  let start := s.clip.start
  let s := abortRequests (putClip { s.clip with queue := [], start := none } s)
  let s := match start with
    | some st => answerStart st.request.source .aborted s
    | none => s
  setPlayer .idle (putClip { s.clip with
    playing := none, fifo := [], inFlight := false, priming := false, fadeCount := 0 } s)

end Sys2Proof.Machine
end

