-- ==== Sys2Proof/Machine/Executor.lean ====
section
/-! DEFINITION. The Cue Executor: its arbiter, take-up, the phases of an action, results, STOP, and its part in RESET and
STANDBY (01_the_cue_executor.md, R1 to R26). -/

namespace Sys2Proof.Machine

/-! ## The current action and its ending (R1, R22) -/

/-- Puts the current action in place. -/
def setAction (a : Action) (s : State) : State := putCx { s.cx with action := some a } s

/-- Whether an action goes through the tray (R7). -/
def ActionRequest.isChange : ActionRequest → Bool
  | .advance _ => true
  | .reverse _ => true
  | .goto _ => true
  | .clearJam => true
  | _ => false

/-- The result of an action is posted according to its source (R22). A command-record action that RESET aborted posts
none (R25). -/
def postResult (req : ActionRequest) (source : Source) (silent : Bool) (code : ResultCode) (remaining lastSlot : Nat)
    (s : State) : State :=
  match source with
  | .command _ => if silent then s else endCommand code remaining lastSlot s
  | .remote => s
  | .tape t => if code = .ok then s else handLog (.execFail false req.cueKind code t) s
  | .injected => if code = .ok then s else handLog (.execFail true req.cueKind code 0) s

/-- The completion events still on their way find no action of theirs (R20, R79). -/
def orphanRamps (s : State) : State :=
  putLamp { s.lamp with rampDone := s.lamp.rampDone.map (fun r => { r with byAction := false }) } s

/-- The current action ends with a result (R1, R22): its window is closed and the executor is IDLE. REMAINING and
LAST_SLOT are the transport's, when it answered, and otherwise 0 and the current slot if known. -/
def endAction (code : ResultCode) (s : State) : State :=
  match s.cx.action with
  | some a =>
    let s := if a.window then closeWindow s else s
    let s := orphanRamps (putCx { s.cx with action := none } s)
    match a.completion with
    | some v => postResult a.request a.source a.silent code v.1 v.2 s
    | none => postResult a.request a.source a.silent code 0 (plainLastSlot s) s
  | none => s

/-- The current action enters another phase. -/
def enterPhase (ph : Phase) (s : State) : State :=
  match s.cx.action with
  | some a => setAction { a with phase := ph } s
  | none => s

/-! ## MOVING (R9, R10, R13, R14) -/

/-- The transport request of an action; a DISSOLVE moves as an ADVANCE of 1 (R14). -/
def ActionRequest.trayKind : ActionRequest → TrayKind
  | .advance n => .advance n
  | .reverse n => .reverse n
  | .goto slot => .goto slot
  | .clearJam => .clearJam
  | _ => .advance 1

/-- The transport request of the current action is issued (R10), DARK-marked when the window is held open (R9). Its
count is that of the take-up, whatever tray has been seated since (assumption 47). -/
def issueRequest (s : State) : State :=
  match s.cx.action with
  | some a => requestTransport a.request.trayKind a.window (setAction { a with issued := true } s)
  | none => s

/-- MOVING is entered without a window (R8, R10, R13). -/
def enterMovingOpen (s : State) : State := issueRequest (enterPhase .moving s)

/-- MOVING is entered through the change window (R9): the request is issued at once when the lamp is already dark, and
otherwise held for the dark event. -/
def enterMovingDark (s : State) : State :=
  match s.cx.action with
  | some a =>
    let s := openWindow (setAction { a with phase := .moving, window := true } s)
    if s.lamp.dark then issueRequest s else s
  | none => s

/-- The dark event of the window reaches the executor (R9, R86). -/
def darkArrives (s : State) : State :=
  if s.lamp.darkSent then
    let s := putLamp { s.lamp with darkSent := false } s
    match s.cx.action with
    | some a => if a.phase = .moving ∧ a.window ∧ a.issued = false then issueRequest s else s
    | none => s
  else s

/-- The linked clip of the slide shown is handed to the Clip Player (R11, R164). -/
def startLinked (s : State) : State :=
  match shownCopy s with
  | some copy =>
    match slotLinkedClip copy with
    | some c => startRequest { clip := c, queueMode := false, source := .linked } s
    | none => s
  | none => s

/-- After the change: RESTORING when a restore level is held, otherwise the action ends ok (R10, R12). -/
def restoreOrEnd (s : State) : State :=
  match s.cx.action with
  | some a =>
    match a.restore with
    | some level => requestRamp level s.hdr.settings.blankRate true false (enterPhase .restoring s)
    | none => endAction .ok s
  | none => s

/-- The transport's completion event reaches the executor (R10, R13, R14, R20). DESIGN CHOICE, unsafe: a tape-sourced or
injected action that RESET has aborted, and whose transport then jams or loses its tray, ends jammed or tray_out, as R20
has an aborted action end, though R25 names the result aborted (assumption 70). -/
def transportCompleted (c : TrayCompletion) (s : State) : State :=
  match s.cx.action with
  | some a =>
    if a.phase = .moving ∧ a.issued then
      let s := if a.window then closeWindow s else s
      let s := setAction { a with window := false, completion := some (c.remaining, c.lastSlot) } s
      match c.outcome with
      | .jammed => endAction .jammed s
      | .trayOut => endAction .trayOut s
      | .refused => endAction .aborted s
      | .stopped => endAction .aborted s
      | .seated => if a.stopped then endAction .aborted s else restoreOrEnd (startLinked s)
      | .empty => if a.stopped then endAction .aborted s else restoreOrEnd s
      | .ok => if a.stopped then endAction .aborted s else endAction .ok s
    else s
  | none => s

/-! ## Take-up (R2, R4 to R8, R14 to R19) -/

/-- A count within 1..N − 1 (R4, R6). -/
def clampCount (n size : Nat) : Nat := if n = 0 then 1 else min n (size - 1)

/-- The action of a queue entry, against the tray size in effect (R4). -/
def entryRequest (e : QueueEntry) (size : Nat) : ActionRequest :=
  match e.kind with
  | .advance => .advance (clampCount e.param size)
  | .reverse => .reverse (clampCount e.param size)
  | .goto => .goto e.param
  | .dissolve => .dissolve (min e.param 2550)
  | .fade => .fade (if e.param / 256 = 15 then 1023 else 68 * (e.param / 256)) (e.param % 256)
  | .lamp => .lamp (decide (e.param ≠ 0))

/-- The action of a pending command (R6). -/
def commandRequest (code : Byte) (p1 p2 size : Nat) : ActionRequest :=
  if code = codeAdvance then .advance (clampCount p1 size)
  else if code = codeReverse then .reverse (clampCount p1 size)
  else if code = codeGoto then .goto p1
  else if code = codeClearJam then .clearJam
  else if code = codeDissolve then .dissolve (min p1 2550)
  else if code = codeFade then .fade (min p1 1023) (min p2 2550)
  else .lamp (decide (p1 ≠ 0))

/-- The action of a net count (R5). -/
def netRequest (n : Int) : ActionRequest := if 0 < n then .advance n.toNat else .reverse n.natAbs

/-- The action of a one-shot key (R5). -/
def oneShotRequest (k : OneShot) (s : State) : ActionRequest :=
  match k with
  | .dissolve => .dissolve (4 * s.hdr.settings.blankRate)
  | .lamp => .lamp (decide (s.lamp.state = .off) || decide (s.lamp.state = .tripped))

/-- The result of an action that fails at take-up (R7): the first row that applies. -/
def takeUpFailure (req : ActionRequest) (s : State) : Option ResultCode :=
  let lit := !s.lamp.dark
  let dissolves := match req with
    | .dissolve _ => lit
    | _ => false
  let needsTray := req.isChange || dissolves
  let beyond := match req with
    | .goto slot => decide (s.tray.n ≤ slot)
    | _ => false
  if s.thermal.power ≠ .normal then some .standby
  else if needsTray && decide (s.tray.state = .trayOut) then some .trayOut
  else if beyond then some .badParam
  else if req.isChange && decide (req ≠ .clearJam) && decide (s.tray.state = .jammed) then some .jammed
  else none

/-- The record of an action just taken up. -/
def freshAction (req : ActionRequest) (source : Source) (lit : Bool) (ph : Phase) : Action where
  request := req
  source := source
  lit := lit
  phase := ph
  restore := none
  window := false
  issued := false
  stopped := false
  silent := false
  completion := none

/-- The first phase of a CHANGE other than CLEAR_JAM (R8). -/
def beginChange (req : ActionRequest) (source : Source) (s : State) : State :=
  match s.hdr.settings.changeMode with
  | .opened => enterMovingOpen (setAction (freshAction req source false .moving) s)
  | .dark =>
    if s.lamp.dark then enterMovingDark (setAction (freshAction req source false .moving) s)
    else
      requestRamp s.lamp.f s.hdr.settings.blankRate true false
        (setAction { freshAction req source false .blanking with restore := some s.lamp.level } s)

/-- The first phase of a DISSOLVE (R14, R15). -/
def beginDissolve (rate : Nat) (source : Source) (s : State) : State :=
  if s.lamp.dark then
    requestRamp s.cx.showLevel rate true false (setAction (freshAction (.dissolve rate) source false .fadingIn) s)
  else
    requestRamp s.lamp.f rate true false (setAction (freshAction (.dissolve rate) source true .fadingOut) s)

/-- A FADE (R16): a target above F becomes the show level. -/
def beginFade (level rate : Nat) (source : Source) (s : State) : State :=
  let s := if s.lamp.f < level then putCx { s.cx with showLevel := level } s else s
  requestRamp level rate true false (setAction (freshAction (.fade level rate) source false .fading) s)

/-- A LAMP on (R17). -/
def beginLampOn (source : Source) (s : State) : State :=
  let held := setAction (freshAction (.lamp true) source false .warming) s
  match s.lamp.state with
  | .off => warmRequest held
  | .warming => held
  | .on => endAction .ok held
  | .failed => endAction .ok held
  | .tripped => if s.thermal.th < s.hdr.settings.tr then warmRequest held else endAction .thermalHold held

/-- A LAMP off (R19). -/
def beginLampOff (source : Source) (s : State) : State :=
  let held := setAction (freshAction (.lamp false) source false .fading) s
  match s.lamp.state with
  | .on => requestRamp s.lamp.f s.hdr.settings.blankRate true true held
  | .warming => endAction .ok (offRequest held)
  | .failed => endAction .ok (offRequest held)
  | .off => endAction .ok held
  | .tripped => endAction .ok held

/-- The first phase of an action that has passed the checks of R7. -/
def beginAction (req : ActionRequest) (source : Source) (s : State) : State :=
  match req with
  | .clearJam => enterMovingOpen (setAction (freshAction req source false .moving) s)
  | .dissolve rate => beginDissolve rate source s
  | .fade level rate => beginFade level rate source s
  | .lamp true => beginLampOn source s
  | .lamp false => beginLampOff source s
  | .advance _ => beginChange req source s
  | .reverse _ => beginChange req source s
  | .goto _ => beginChange req source s

/-- An action is taken up (R7): it fails at once, or its first phase begins. -/
def takeUp (req : ActionRequest) (source : Source) (s : State) : State :=
  match takeUpFailure req s with
  | some code => postResult req source false code 0 (plainLastSlot s) s
  | none => beginAction req source s

/-- The pending command, as an action (R6). -/
def pendingAction (s : State) : ActionRequest :=
  let r := s.hdr.record
  commandRequest r.code r.p1.toNat r.p2.toNat s.tray.n

/-- Whether some source is waiting (R2). -/
def sourceWaiting (s : State) : Bool :=
  s.cx.pendingCmd || decide (s.remote.netCount ≠ 0) || s.remote.oneShot.isSome || !s.cx.queue.isEmpty

/-- The executor's arbiter (R2): the pending command, then the net count, then the one-shot key, then the head of the
Cue Queue; the source chosen is consumed as it is taken. -/
def arbitrate (s : State) : State :=
  if s.cx.pendingCmd then
    takeUp (pendingAction s) (.command s.hdr.record.tag) (putCx { s.cx with pendingCmd := false } s)
  else if s.remote.netCount ≠ 0 then
    takeUp (netRequest s.remote.netCount) .remote (putRemote { s.remote with netCount := 0 } s)
  else
    match s.remote.oneShot with
    | some k => takeUp (oneShotRequest k s) .remote (putRemote { s.remote with oneShot := none } s)
    | none =>
      match s.cx.queue with
      | e :: rest =>
        takeUp (entryRequest e s.tray.n) (if e.injected then .injected else .tape e.tapeTime)
          (putCx { s.cx with queue := rest } s)
      | [] => s

/-- Whether the arbiter's choice is a LAMP off, for a warming lamp (R18). -/
def choiceIsLampOff (s : State) : Bool :=
  if s.cx.pendingCmd then decide (s.hdr.record.code = codeLamp) && decide (s.hdr.record.p1 = 0)
  else if s.remote.netCount ≠ 0 then false
  else
    match s.remote.oneShot with
    | some k => decide (k = .lamp)
    | none =>
      match s.cx.queue with
      | e :: _ => decide (e.kind = .lamp) && decide (e.param = 0)
      | [] => false

/-- Whether the current action is a LAMP on in WARMING. -/
def Action.waitsForLamp (a : Action) : Bool := decide (a.phase = .warming)

/-! ## What comes about at once (R2, R10, R17, R18) -/

/-- One thing the executor does without waiting, if there is one: takes the transport's completion, ends a LAMP on whose
lamp has tripped, failed or become ON (R17) or that a LAMP off cuts short (R18), or takes up the next action. -/
def executorStep (s : State) : Option State :=
  match s.tray.completion with
  | some c => some (transportCompleted c (putTray { s.tray with completion := none } s))
  | none =>
    match s.cx.action with
    | some a =>
      if a.waitsForLamp then
        if s.lamp.state = .tripped then some (endAction .thermalHold s)
        else if s.lamp.state = .failed then some (endAction .aborted s)
        else if s.lamp.state = .on then some (endAction .ok s)
        else if choiceIsLampOff s then some (endAction .aborted s)
        else none
      else none
    | none => if sourceWaiting s then some (arbitrate s) else none

/-- The executor goes on until nothing comes about at once. The Cue Queue, the net count, the one-shot and the pending
command bound how often it can. -/
def settle : Nat → State → State
  | 0, s => s
  | fuel + 1, s =>
    match executorStep s with
    | some s' => settle fuel s'
    | none => s

/-! ## Ramps and warming completed (R8, R12, R14 to R17, R19) -/

/-- A ramp's completion event reaches the action that asked for the ramp (R78). -/
def rampCourse (s : State) : State :=
  match s.cx.action with
  | some a =>
    match a.phase with
    | .blanking => enterMovingDark s
    | .fadingOut =>
      if s.tray.state = .trayOut then endAction .trayOut s
      else if s.tray.state = .jammed then endAction .jammed s
      else enterMovingDark s
    | .fadingIn => endAction .ok s
    | .fading => endAction .ok s
    | .restoring => endAction .ok s
    | _ => s
  | none => s

/-- The oldest completion event on its way is delivered (R78): its off mark acts on the lamp (R91), and the action that
asked for the ramp goes on. -/
def rampArrives (s : State) : State :=
  match s.lamp.rampDone with
  | r :: rest =>
    let s := putLamp { s.lamp with rampDone := rest } s
    let s := if r.offMark then offMarkActs s else s
    if r.byAction then rampCourse s else s
  | [] => s

/-! ## STOP, RESET and STANDBY (R20, R21, R25, R26) -/

/-- The current action is aborted at its safe point (R20); `silent` marks an abort by RESET, after which a command-record
action posts nothing (R25). -/
def stopAction (silent : Bool) (s : State) : State :=
  match s.cx.action with
  | some a =>
    let quiet := a.silent || silent
    match a.phase with
    | .moving =>
      if a.issued then
        if a.stopped then setAction { a with silent := quiet } s
        else stopTransport (setAction { a with stopped := true, silent := quiet } s)
      else endAction .aborted (setAction { a with silent := quiet } s)
    | .warming => endAction .aborted (setAction { a with silent := quiet } s)
    | _ => endAction .aborted (freezeRamp (setAction { a with silent := quiet } s))
  | none => s

/-- A command pending for the executor and not yet taken up ends aborted (R21). -/
def stopPending (s : State) : State :=
  if s.cx.pendingCmd then endPlain .aborted (putCx { s.cx with pendingCmd := false } s) else s

/-- A STOP reaches the executor, from the host or from the hand remote (R20, R21). -/
def stopExecutor (s : State) : State := stopPending (stopAction false s)

/-- The Cue Queue, the pending command and the remote request are emptied (R25, R26). -/
def emptySources (s : State) : State :=
  putRemote { s.remote with netCount := 0, oneShot := none } (putCx { s.cx with queue := [], pendingCmd := false } s)

/-- The executor's part in RESET (R25, R103): abort, empty, freeze the ramp, and a ramp to F that belongs to no action. -/
def resetExecutor (s : State) : State :=
  let s := freezeRamp (emptySources (stopAction true s))
  requestRamp s.lamp.f s.hdr.settings.blankRate false false s

/-- The executor's part in STANDBY (R26): abort with results posted, empty, and the lamp turned off as by a LAMP off. -/
def standbyExecutor (s : State) : State :=
  let s := emptySources (stopAction false s)
  match s.lamp.state with
  | .on => requestRamp s.lamp.f s.hdr.settings.blankRate false true s
  | _ => offRequest s

end Sys2Proof.Machine
end

