-- ==== Sys2Proof/Machine/CueTrackOps.lean ====
section
/-! DEFINITION. The Cue Track Decoder, the Log Writer and Tape Deck Control (06_cue_track_and_tape_deck.md, R124 to
R150): carrier, chips, groups, frames, addressing and routes, the cue ring, the pause holders and the tape time. -/

namespace Sys2Proof.Machine

/-! ## Tape Deck Control (R143, R144) -/

/-- A HOLD cue adds CUE and sets its timer (R144). DESIGN CHOICE, unsafe: the time starts at the present time, and not at
the frame's END time where that is later (assumption 81). -/
def holdCue (p : Nat) (s : State) : State :=
  putDeck { s.deck with cue := true, holdUntil := if p = 0 then none else some (s.now + p * 100000) } s

/-- A RELEASE removes CUE, HOST and REMOTE and stops the hold timer (R143). -/
def releaseDeck (s : State) : State :=
  putDeck { s.deck with cue := false, host := false, remote := false, holdUntil := none } s

/-- Whether the hold timer has run out. -/
def holdDue (s : State) : Bool :=
  match s.deck.holdUntil with
  | some t => decide (t ≤ s.now)
  | none => false

/-- The hold timer runs out (R144). -/
def holdExpiry (s : State) : State :=
  if holdDue s then putDeck { s.deck with cue := false, holdUntil := none } s else s

/-! ## Routing (R132, R134 to R137) -/

/-- Whether a U field names this unit (R132). -/
def addressed (u : Nat) (s : State) : Bool :=
  if u ≤ 7 then decide (u = s.unit.toNat)
  else if u ≤ 14 then s.hdr.settings.groupMask.getLsbD (u - 8)
  else true

/-- The flags of a CUE record that names no trouble. -/
def plainFlags (injected : Bool) : CueFlags where
  dropped := false
  unknownKind := false
  badParam := false
  injected := injected

/-- A sequenced cue is offered to the Cue Queue (R135), after its record is handed to the Log Writer (assumption 63). -/
def routeSequenced (kind : SeqKind) (u k param tapeTime : Nat) (injected : Bool) (s : State) : State :=
  let fl := plainFlags injected
  if kind = .goto ∧ s.tray.n ≤ param then handLog (.cue { fl with badParam := true } u k param tapeTime) s
  else if s.cx.queue.length < 8 then
    let e : QueueEntry := { kind := kind, param := param, injected := injected, tapeTime := tapeTime }
    putCx { s.cx with queue := s.cx.queue ++ [e] } (handLog (.cue fl u k param tapeTime) s)
  else latch .cueFault (handLog (.cue { fl with dropped := true } u k param tapeTime) s)

/-- An immediate cue is handed to its block (R136), after its record is handed to the Log Writer (assumption 63). -/
def routeImmediate (u k param tapeTime : Nat) (injected : Bool) (s : State) : State :=
  let fl := plainFlags injected
  if k = kindClip then
    startRequest
      { clip := param % 64, queueMode := decide (param / 64 % 2 = 1)
        source := if injected then .injected else .tape tapeTime }
      (handLog (.cue fl u k param tapeTime) s)
  else if k = kindClipStop then clipStopNow (handLog (.cue fl u k param tapeTime) s)
  else if k = kindHold then holdCue param (handLog (.cue fl u k param tapeTime) s)
  else if k = kindMark then handLog (.cue fl u k param tapeTime) s
  else handLog (.cue { fl with unknownKind := true } u k param tapeTime) s

/-- A valid frame, or an injected one, is addressed and routed (R132, R134, R137). -/
def routeFrame (u k param tapeTime : Nat) (injected : Bool) (s : State) : State :=
  if addressed u s then
    match seqKindOf k with
    | some kind => routeSequenced kind u k param tapeTime injected s
    | none => routeImmediate u k param tapeTime injected s
  else if s.hdr.settings.foreignLog then handLog (.foreign injected u k param tapeTime) s
  else s

/-! ## Frames (R129 to R131, R133) -/

/-- A frame fails with a cause and a data-group count (R131). -/
def failFrame (cause : FrameCause) (count : Nat) (s : State) : State :=
  let s := putCue { s.cue with bad := countUp s.cue.bad, frame := .between, fields := [] } s
  let s := latch .cueFault s
  if s.hdr.settings.errorLog then handLog (.frameError cause count s.cue.tapeTime) s else s

/-- The frame in progress, if one is, fails (R127, R129). -/
def failProgress (s : State) : State :=
  match s.cue.frame with
  | .between => s
  | .collecting => failFrame .truncated s.cue.fields.length s
  | .awaitingEnd => failFrame .noEnd s.cue.fields.length s

/-- Whether a valid frame repeats the last accepted one (R133). -/
def isRepeat (nibbles : List Nat) (endTime : Nat) (s : State) : Bool :=
  match s.cue.lastAccepted with
  | some l => decide (l.nibbles = nibbles) && decide (endTime - l.endTime ≤ Config.repeatWindow)
  | none => false

/-- A frame's END has arrived after seven data groups (R130, R133, R132). -/
def completeFrame (nibbles : List Nat) (endTime : Nat) (s : State) : State :=
  match nibbles with
  | [u, k, p2, p1, p0, c1, c0] =>
    if 16 * c1 + c0 = cueCheck u k p2 p1 p0 then
      let s := putCue { s.cue with frame := .between, fields := [] } s
      if isRepeat nibbles endTime s then putCue { s.cue with repeats := countUp s.cue.repeats } s
      else
        let s := putCue { s.cue with
          good := countUp s.cue.good, lastAccepted := some { nibbles := nibbles, endTime := endTime } } s
        routeFrame u k (cueParam p2 p1 p0) s.cue.tapeTime false s
    else failFrame .check 7 s
  | _ => s

/-! ## Groups and the aligner (R128, R129, 11.5) -/

/-- What a group of six chips reads (11.5). -/
inductive CueGroup where
  | start | ending | fill | data (nibble : Nat) | invalid
deriving DecidableEq, Repr

/-- The classification of a group (R128). -/
def classifyGroup (chips : List Bool) : CueGroup :=
  let n := bitsNat chips
  if n = startPattern then .start
  else if n = endPattern then .ending
  else if n = fillPattern then .fill
  else
    match nibblePatterns.findIdx? (fun p => p == n) with
    | some i => .data i
    | none => .invalid

/-- The aligner returns to HUNT with the chip window emptied (R128). -/
def toHunt (s : State) : State :=
  putCue { s.cue with locked := false, window := [], group := [], spoiled := false } s

/-- A frame begins at START (R129). -/
def beginFrame (s : State) : State := putCue { s.cue with frame := .collecting, fields := [] } s

/-- A data nibble is stored as the next field (R129). -/
def storeNibble (v : Nat) (s : State) : State :=
  let fields := s.cue.fields ++ [v]
  putCue { s.cue with fields := fields, frame := if fields.length < 7 then .collecting else .awaitingEnd } s

/-- A group reaches the frame assembler in LOCKED (R128, R129); `time` is the time of the transition that completed
it. -/
def takeGroup (g : CueGroup) (time : Nat) (s : State) : State :=
  match s.cue.frame, g with
  | .between, .fill => s
  | .between, .start => beginFrame s
  | .between, _ => toHunt s
  | .collecting, .data v => storeNibble v s
  | .collecting, .start => beginFrame (failFrame .truncated s.cue.fields.length s)
  | .collecting, .fill => failFrame .truncated s.cue.fields.length s
  | .collecting, .ending => failFrame .truncated s.cue.fields.length s
  | .collecting, .invalid => toHunt (failFrame .invalidGroup s.cue.fields.length s)
  | .awaitingEnd, .data _ => toHunt (failFrame .noEnd s.cue.fields.length s)
  | .awaitingEnd, .start => beginFrame (failFrame .noEnd s.cue.fields.length s)
  | .awaitingEnd, .fill => failFrame .noEnd s.cue.fields.length s
  | .awaitingEnd, .ending => completeFrame s.cue.fields time s
  | .awaitingEnd, .invalid => toHunt (failFrame .noEnd s.cue.fields.length s)

/-- FILL, FILL and START as eighteen chips (R128). -/
def huntPattern : Nat := (fillPattern * 64 + fillPattern) * 64 + startPattern

/-- A chip reaches the aligner (R128). -/
def takeChip (chip : Bool) (time : Nat) (s : State) : State :=
  if s.cue.locked then
    let group := s.cue.group ++ [chip]
    if group.length < 6 then putCue { s.cue with group := group } s
    else
      let g := if s.cue.spoiled then .invalid else classifyGroup group
      takeGroup g time (putCue { s.cue with group := [], spoiled := false } s)
  else
    let window := (s.cue.window ++ [chip]).drop (s.cue.window.length + 1 - 18)
    if window.length = 18 ∧ bitsNat window = huntPattern then
      beginFrame (putCue { s.cue with locked := true, window := [], group := [], spoiled := false } s)
    else putCue { s.cue with window := window } s

/-- n chips of one tone are handed to the aligner, in order (R125). -/
def takeChips (tone : Bool) (time : Nat) : Nat → State → State
  | 0, s => s
  | n + 1, s => takeChips tone time n (takeChip tone time s)

/-! ## Transitions and the carrier (R125 to R127, R147, R148) -/

/-- A transition while the carrier is PRESENT (R125). With decoding disabled no chip reaches the aligner (R147). -/
def trackEdge (e : CueEdge) (time : Nat) (s : State) : State :=
  let p := s.cue.period
  let n := roundDiv e.interval p
  let s := putCue { s.cue with lastTransition := time } s
  if chipsValid n e.interval p then
    let s := if s.hdr.settings.decoding then takeChips e.tone time n s else s
    putCue { s.cue with period := trackPeriod p n e.interval, lastValid := time } s
  else putCue { s.cue with spoiled := s.cue.locked } s

/-- A new acquisition run starts at a transition (R126). -/
def startRun (time : Nat) (s : State) : State :=
  putCue { s.cue with carrier := .acquiring, runStart := time, runIntervals := [], lastTransition := time } s

/-- The carrier becomes PRESENT (R126): P is the average of the run's last intervals, rounded down. -/
def acquireCarrier (intervals : List Nat) (time : Nat) (s : State) : State :=
  putCue { s.cue with
    carrier := .present, period := intervals.foldl (· + ·) 0 / intervals.length
    lastValid := time, lastTransition := time, runIntervals := intervals
    locked := false, window := [], group := [], spoiled := false, frame := .between, fields := []
    tapeTime := 0, tapeUs := 0 } s

/-- A transition while the carrier is ACQUIRING (R126). -/
def acquireEdge (e : CueEdge) (time : Nat) (s : State) : State :=
  if Config.chipMin ≤ e.interval ∧ e.interval ≤ Config.chipMax then
    let intervals := (s.cue.runIntervals ++ [e.interval]).drop (s.cue.runIntervals.length + 1 - 8)
    if Config.acquireTime ≤ time - s.cue.runStart then acquireCarrier intervals time s
    else putCue { s.cue with runIntervals := intervals, lastTransition := time } s
  else startRun time s

/-- The carrier is lost (R127): it is ABSENT, the aligner in HUNT, carrier_lost latched, and a frame in progress
fails. -/
def dropCarrier (s : State) : State :=
  let progress := s.cue.frame
  let count := s.cue.fields.length
  let s := latch .carrierLost (toHunt (putCue { s.cue with carrier := .absent } s))
  if progress = .between then s else failFrame .truncated count s

/-- Whether the 500 ms since the last valid transition run out before a transition at this time (R127). One that comes
as they run out is taken first, since their expiry is another command (assumption 45). -/
def lostBefore (time : Nat) (s : State) : Bool :=
  decide (s.cue.carrier = .present) && decide (Config.carrierLossTime < time - s.cue.lastValid)

/-- A transition on CUE_IN (R125, R126), ignored in standby (R148). Its time is its interval after the transition
before it; one that ends a silence, in ABSENT, stands at the present time when that is later (assumption 16). One that
comes more than 500 ms after the last valid transition finds the carrier lost (R127). -/
def cueEdge (e : CueEdge) (s : State) : State :=
  let time := s.cue.lastTransition + e.interval
  if s.thermal.power ≠ .normal then s
  else
    let s := if lostBefore time s then dropCarrier s else s
    match s.cue.carrier with
    | .absent => startRun (max s.now time) s
    | .acquiring => acquireEdge e time s
    | .present => trackEdge e time s

/-- Transitions in the order they arrive. DESIGN CHOICE, unsafe: the cues of all frames of one row are queued before an
IDLE executor takes the first of them up, so that a ninth is dropped (assumption 74); the tape time of its frames and
errors does not advance with the intervals (assumption 79); and the Log Writer takes no record between its frames, so
that a fifth record is dropped (assumption 80). -/
def cueEdges (edges : List CueEdge) (s : State) : State := edges.foldl (fun s e => cueEdge e s) s

/-- Whether 500 ms have passed since the last valid transition (R127). -/
def carrierLossDue (s : State) : Bool :=
  decide (s.cue.carrier = .present) && decide (Config.carrierLossTime ≤ s.now - s.cue.lastValid)

/-- The 500 ms pass, if they have (R127). -/
def loseCarrier (s : State) : State := if carrierLossDue s then dropCarrier s else s

/-- A frame in progress is discarded without a frame error, and the aligner returns to HUNT (R147, R148, R150). -/
def discardFrame (s : State) : State := toHunt (putCue { s.cue with frame := .between, fields := [] } s)

/-- A STANDBY command stops the decoder (R148). -/
def standbyDecoder (s : State) : State :=
  let s := discardFrame s
  putCue { s.cue with carrier := .absent } s

/-- A whole frame of the tape, from its START to its END group, as one of the cue commands brings it (R129, R130): it is
heard only with the carrier PRESENT. Its transitions move the chip period one after the other (R125) and keep the
carrier, and its END is taken at the present time (assumption 15); with decoding enabled it fails a frame left in
progress and is taken, and disabled it only tracks the carrier (R147). -/
def tapeFrame (nibbles intervals : List Nat) (s : State) : State :=
  if s.cue.carrier = .present then
    let time := max s.now s.cue.lastTransition
    let s := putCue { s.cue with
      period := trackPeriods intervals s.cue.period, lastValid := time, lastTransition := time } s
    if s.hdr.settings.decoding then
      let s := failProgress s
      completeFrame nibbles time (putCue { s.cue with locked := true, window := [], group := [], spoiled := false } s)
    else s
  else s

/-! ## The tape time (R146) -/

/-- Whether a tick of the tape time is due. -/
def tapeTickDue (s : State) : Bool :=
  decide (s.cue.carrier = .present) && s.deck.tapeRun && decide (Config.tapeTick ≤ s.cue.tapeUs)

/-- A tick of the tape time, which returns to 0 after 65,535 (R146). -/
def tapeTickNow (s : State) : State :=
  if tapeTickDue s then
    putCue { s.cue with tapeTime := (s.cue.tapeTime + 1) % 65536, tapeUs := s.cue.tapeUs - Config.tapeTick } s
  else s

/-! ## The Log Writer (R138 to R142) -/

/-- An IDLE Log Writer takes the oldest staged record: with the ring full it is dropped, and the next is looked at; with
room it is WRITING (R140). -/
def logPump : Nat → State → State
  | 0, s => s
  | fuel + 1, s =>
    if s.hdr.settings.ringBase = 0 ∨ s.log.writing.isSome then s
    else
      match s.log.staging with
      | [] => s
      | _ :: rest =>
        if (s.log.w + 1) % s.hdr.settings.ringSize = s.log.rd then
          logPump fuel (latch .cueFault
            (putLog { s.log with staging := rest, overflow := countUp s.log.overflow } s))
        else putLog { s.log with writing := some 0 } s

/-- What the Log Writer writes next (R140): the address and the word. -/
def nextLogWord (s : State) : Option (Nat × Word) :=
  match s.log.writing, s.log.staging with
  | some k, r :: _ =>
    if k < 4 then some (s.hdr.settings.ringBase + 8 * s.log.w + 2 * k, r.words.getD k 0) else none
  | _, _ => none

/-- A word of the record has landed (R140); after the fourth W advances, the record leaves the buffer, and a pending Rd
takes effect (R141). -/
def logLanded (s : State) : State :=
  match s.log.writing with
  | some k =>
    if k < 3 then putLog { s.log with writing := some (k + 1) } s
    else
      putLog { s.log with
        writing := none, staging := s.log.staging.drop 1, w := (s.log.w + 1) % s.hdr.settings.ringSize
        rd := s.log.pendingRd.getD s.log.rd, pendingRd := none } s
  | none => s

/-- An accepted RING_RD reaches the Log Writer (R141). -/
def handRingRd (v : Nat) (s : State) : State :=
  if s.log.writing.isSome then putLog { s.log with pendingRd := some v } s else putLog { s.log with rd := v } s

/-- The ring is started afresh (R142): 0 is written back into RING_RD by a correction. -/
def freshRing (s : State) : State :=
  let s := withdrawLog s
  let s := putLog { s.log with staging := [], w := 0, rd := 0, pendingRd := none, writing := none } s
  let s := markDirty 17 s
  addCorrection 33 { s with hdr := { s.hdr with ringRd := 0 } }

/-- A RESET command's part in the three blocks (R150): the frame is discarded and the holders emptied. -/
def cueTrackReset (s : State) : State :=
  let s := discardFrame s
  putDeck { s.deck with auto := false, cue := false, host := false, remote := false, holdUntil := none } s

end Sys2Proof.Machine
end

