-- ==== Sys2Proof/Machine/RemoteOps.lean ====
section
/-! DEFINITION. The Remote Receiver: frames, presses and repeats, what a press does, the focus motor
(08_remote_keys_and_focus.md, R171 to R183), and the power-state commands it shares with the host (R213). -/

namespace Sys2Proof.Machine

/-! ## WAKE (R179, R213) -/

/-- The power state returns to NORMAL (R213): the duty is decided again, and the tach watch starts afresh when the duty
rises from 0 (R109). In NORMAL nothing changes. DESIGN CHOICE, unsafe: the clip fade that the standby began (R168) goes
on to its own end when the WAKE comes before it (assumption 66). -/
def wakeUnit (s : State) : State :=
  if s.thermal.power = .normal then s else decideDuty (putThermal { s.thermal with power := .normal } s)

/-! ## The focus motor (R180 to R182) -/

/-- The command of a COMMAND run ends with a result (R182). -/
def endFocusCommand (run : FocusRun) (code : ResultCode) (s : State) : State :=
  if run.owner = .command ∧ activeWith codeFocus s then endPlain code s else s

/-- The run held is removed and both drives released; a COMMAND run's command ends with the result given (R180 to
R182). -/
def endFocus (code : ResultCode) (s : State) : State :=
  match s.remote.focus with
  | some run => endFocusCommand run code (putRemote { s.remote with focus := none } s)
  | none => s

/-- A focus run starts, taking the motor over from a run held (R180, R181). -/
def startFocus (inward : Bool) (owner : FocusOwner) (limit : Nat) (s : State) : State :=
  let s := endFocus .aborted s
  let run : FocusRun := { inward := inward, owner := owner, start := s.now, limit := limit, lastRepeat := s.now }
  putRemote { s.remote with focus := some run } s

/-- A STOP ends a COMMAND run aborted and leaves the others (R182). -/
def stopFocusCommand (s : State) : State :=
  match s.remote.focus with
  | some run => if run.owner = .command then endFocus .aborted s else s
  | none => s

/-- A repeat of a focus key acts on the REMOTE run of that key (R180). -/
def focusRepeat (inward : Bool) (s : State) : State :=
  match s.remote.focus with
  | some run =>
    if run.owner = .remote ∧ run.inward = inward then
      putRemote { s.remote with focus := some { run with lastRepeat := s.now } } s
    else s
  | none => s

/-- Whether a REMOTE run has gone 250 ms without a repeat (R180). -/
def repeatDue (s : State) : Bool :=
  match s.remote.focus with
  | some run => decide (run.owner = .remote) && decide (Config.repeatGap ≤ s.now - run.lastRepeat)
  | none => false

/-- 250 ms without a repeat stop a REMOTE run (R180). -/
def repeatExpiry (s : State) : State := if repeatDue s then endFocus .ok s else s

/-- Whether the run has reached its time limit (R180). -/
def focusDue (s : State) : Bool :=
  match s.remote.focus with
  | some run => decide (run.limit ≤ s.now - run.start)
  | none => false

/-- The run reaches its time limit (R180). -/
def focusExpiry (s : State) : State := if focusDue s then endFocus .ok s else s

/-- FOCUS_STALL becomes active: it ends the run held, and is not read with no drive active (R180). DESIGN CHOICE,
unsafe: the level of the input is not held, so a run that starts under a stall reported before goes on until the next
FOCUS_STALL (assumption 67). -/
def stallFocus (s : State) : State := endFocus .ok s

/-! ## What a press does (R176 to R179) -/

/-- Where a press comes from. -/
inductive PressSource where
  | remote | panel
deriving DecidableEq, Repr

/-- The net count changes by a press, held within −9..+9 (R177). -/
def addNet (d : Int) (s : State) : State :=
  putRemote { s.remote with netCount := max (-9) (min 9 (s.remote.netCount + d)) } s

/-- A one-shot key is pressed (R178). -/
def pressOneShot (k : OneShot) (s : State) : State := putRemote { s.remote with oneShot := some k } s

/-- The owner of a focus run that a press starts (R180). -/
def PressSource.owner : PressSource → FocusOwner
  | .remote => .remote
  | .panel => .panel

/-- A STOP from the hand remote (R176, R182). -/
def remoteStop (s : State) : State := stopFocusCommand (stopExecutor s)

/-- The effect of a press that is not refused (R176, step 3). -/
def pressEffect (key : Nat) (src : PressSource) (s : State) : State :=
  if key = keyCodeFwd then addNet 1 s
  else if key = keyCodeRev then addNet (-1) s
  else if key = keyCodeDissolve then pressOneShot .dissolve s
  else if key = keyCodeLamp then pressOneShot .lamp s
  else if key = keyCodeStop then remoteStop s
  else if key = keyCodeHold then putDeck { s.deck with remote := true } s
  else if key = keyCodeRelease then releaseDeck s
  else if key = keyCodeFocusIn then startFocus true src.owner Config.focusKeyLimit s
  else if key = keyCodeFocusOut then startFocus false src.owner Config.focusKeyLimit s
  else if keyCodeClip ≤ key ∧ key < keyCodeClip + 4 then
    startRequest { clip := key - keyCodeClip, queueMode := false, source := .remote } s
  else s

/-- Whether a key's press is refused in standby (R176, step 1). -/
def refusedInStandby (key : Nat) : Bool :=
  decide (key = keyCodeFwd) || decide (key = keyCodeRev) || decide (key = keyCodeDissolve)
    || decide (key = keyCodeFocusIn) || decide (key = keyCodeFocusOut)

/-- Whether a key is subject to the program-mode lockout (R176, step 2). -/
def subjectToLockout (key : Nat) : Bool :=
  decide (key = keyCodeFwd) || decide (key = keyCodeRev) || decide (key = keyCodeDissolve)
    || decide (key = keyCodeLamp)

/-- Whether the lockout holds: PROG with the override clear (R176). -/
def lockedOut (s : State) : Bool := s.prog && !s.hdr.settings.override

/-- A new press (R176): standby, lockout, effect. -/
def takePress (key : Nat) (src : PressSource) (s : State) : State :=
  if s.thermal.power ≠ .normal then
    if key = keyCodeLamp then (if s.hdr.settings.wakeByRemote then wakeUnit s else s)
    else if refusedInStandby key then s
    else pressEffect key src s
  else if lockedOut s && subjectToLockout key then s
  else pressEffect key src s

/-! ## Remote frames (R173, R174) -/

/-- Whether a frame is judged at all: a right check, and an accepted system code (R173). -/
def frameAccepted (sys key toggle check : Nat) (s : State) : Bool :=
  remoteCheckOk sys key toggle check
    && (decide (s.hdr.settings.sysCode = 0) || decide (s.hdr.settings.sysCode = sys))

/-- Whether an accepted frame is a new press (R174). -/
def isNewPress (sys key toggle : Nat) (s : State) : Bool :=
  match s.remote.lastFrame with
  | some l =>
    decide (l.sys ≠ sys) || decide (l.key ≠ key) || decide (l.toggle ≠ toggle)
      || decide (Config.repeatGap < s.now - l.endTime)
  | none => true

/-- A frame becomes the last frame (R173). -/
def setLastFrame (sys key toggle : Nat) (s : State) : State :=
  putRemote { s.remote with lastFrame := some { sys := sys, key := key, toggle := toggle, endTime := s.now } } s

/-- A repeat of the key held (R174): it acts on a focus run that it belongs to, and on nothing else. -/
def repeatEffect (key : Nat) (s : State) : State :=
  if key = keyCodeFocusIn then focusRepeat true s
  else if key = keyCodeFocusOut then focusRepeat false s
  else s

/-- A completed frame is judged (R173) and taken as a press or a repeat (R174). Its end is the present time. -/
def judgeFrame (sys key toggle check : Nat) (s : State) : State :=
  if frameAccepted sys key toggle check s then
    let fresh := isNewPress sys key toggle s
    let s := setLastFrame sys key toggle s
    if fresh then takePress key .remote s else repeatEffect key s
  else s

/-- The line state returns to WAITING, with no bits received. -/
def lineIdle (s : State) : State := putRemote { s.remote with line := .waiting, bits := [], markSeen := false } s

/-- A completed frame of one of the key commands: the line is WAITING again and the frame is judged. -/
def remoteFrameIn (key : Nat) (fr : RemoteFrame) (s : State) : State :=
  judgeFrame fr.sys.toNat key fr.toggle.toNat fr.check.toNat (lineIdle s)

/-! ## Panel keys (R175, R183) -/

/-- A panel key. -/
def Remote.key (r : Remote) : PanelKey → PanelKeyState
  | .fwd => r.keyFwd
  | .rev => r.keyRev
  | .focusIn => r.keyFocusIn
  | .focusOut => r.keyFocusOut
  | .lamp => r.keyLamp

/-- Sets a panel key. -/
def Remote.setKey (r : Remote) (k : PanelKey) (v : PanelKeyState) : Remote :=
  match k with
  | .fwd => { r with keyFwd := v }
  | .rev => { r with keyRev := v }
  | .focusIn => { r with keyFocusIn := v }
  | .focusOut => { r with keyFocusOut := v }
  | .lamp => { r with keyLamp := v }

/-- The key code whose press a panel key makes (R175). -/
def PanelKey.code : PanelKey → Nat
  | .fwd => keyCodeFwd
  | .rev => keyCodeRev
  | .focusIn => keyCodeFocusIn
  | .focusOut => keyCodeFocusOut
  | .lamp => keyCodeLamp

/-- A panel key's input has been active without a break for a time (R175): at 20 ms an UP key becomes DOWN, with a press
unless it was held through the RESET pin (R183). -/
def panelDown (k : PanelKey) (activeFor : Nat) (s : State) : State :=
  let v := s.remote.key k
  if activeFor < Config.debounceTime ∨ v.down then s
  else
    let s := putRemote (s.remote.setKey k { down := true, heldAtPin := false }) s
    if v.heldAtPin then s else takePress (PanelKey.code k) .panel s

/-- Whether a focus run ends with the release of this key (R180). DESIGN CHOICE, unsafe: with both focus keys DOWN, only
the release of the key of the run's direction, which started it, ends a PANEL run (assumption 69). -/
def endsOnRelease (k : PanelKey) (s : State) : Bool :=
  match s.remote.focus with
  | some run => decide (run.owner = .panel) && decide (k = if run.inward then .focusIn else .focusOut)
  | none => false

/-- A panel key's input has been inactive without a break for a time (R175): at 20 ms the key is UP; the release of a
focus key ends the PANEL run of its direction (R180). -/
def panelUp (k : PanelKey) (inactiveFor : Nat) (s : State) : State :=
  if inactiveFor < Config.debounceTime then s
  else
    let wasDown := (s.remote.key k).down
    let s := putRemote (s.remote.setKey k { down := false, heldAtPin := false }) s
    if wasDown && endsOnRelease k s then endFocus .ok s else s

/-- A press of a key that both the remote and the panel have. -/
def keyPress (k : PanelKey) (p : Press) (s : State) : State :=
  match p with
  | .remote fr => remoteFrameIn (PanelKey.code k) fr s
  | .panel activeFor => panelDown k activeFor s

/-! ## The line (R172) -/

/-- The windows of R172, in microseconds. -/
def leaderMark (len : Nat) : Bool := decide (4500 ≤ len) && decide (len ≤ 7500)
def leaderSpace (len : Nat) : Bool := decide (2250 ≤ len) && decide (len ≤ 3750)
def shortElement (len : Nat) : Bool := decide (300 ≤ len) && decide (len ≤ 700)
def longSpace (len : Nat) : Bool := decide (1200 ≤ len) && decide (len ≤ 1800)

/-- The bit a space carries, if it lies in a bit window (R172). -/
def spaceBit (len : Nat) : Option Bool :=
  if shortElement len then some false else if longSpace len then some true else none

/-- The frame is abandoned, and the mark that abandoned it examined as a leader mark (R172). -/
def abandonAtMark (len : Nat) (s : State) : State :=
  let s := lineIdle s
  if leaderMark len then putRemote { s.remote with line := .leader, markSeen := true } s else s

/-- The sixteen bits received, as system code, key, toggle and check (R172). -/
def judgeBits (bits : List Bool) (s : State) : State :=
  judgeFrame (bitsNat (bits.take 5)) (bitsNat ((bits.drop 5).take 6)) (bitsNat ((bits.drop 11).take 1))
    (bitsNat (bits.drop 12)) s

/-- A mark on REMOTE_IN (R172). -/
def lineMark (len : Nat) (s : State) : State :=
  match s.remote.line with
  | .waiting => abandonAtMark len s
  | .leader => abandonAtMark len s
  | .bits =>
    if s.remote.markSeen = false ∧ shortElement len then putRemote { s.remote with markSeen := true } s
    else abandonAtMark len s
  | .closing =>
    if shortElement len then
      let bits := s.remote.bits
      judgeBits bits (lineIdle s)
    else abandonAtMark len s

/-- A space on REMOTE_IN (R172). A space where a mark is awaited stands for one that has gone on past 3.75 ms when it is
longer, and changes nothing when it is not. -/
def lineSpace (len : Nat) (s : State) : State :=
  match s.remote.line with
  | .waiting => s
  | .leader =>
    if leaderSpace len then putRemote { s.remote with line := .bits, bits := [], markSeen := false } s
    else lineIdle s
  | .bits =>
    if s.remote.markSeen then
      match spaceBit len with
      | some b =>
        let bits := s.remote.bits ++ [b]
        putRemote { s.remote with
          bits := bits, markSeen := false, line := if bits.length < 16 then .bits else .closing } s
      | none => lineIdle s
    else if 3750 < len then lineIdle s
    else s
  | .closing => if 3750 < len then lineIdle s else s

/-- An element of REMOTE_IN. -/
def lineElement (e : LineElement) (s : State) : State :=
  match e with
  | .mark len => lineMark len s
  | .space len => lineSpace len s

/-- Elements in the order they arrive. DESIGN CHOICE, unsafe: the elements of one row all end at the present time, so that
a frame completed before the last of them has that as its end time (assumption 72); and the presses of all frames of one
row arrive before an IDLE executor takes the first of them up (assumption 74). -/
def lineElements (es : List LineElement) (s : State) : State := es.foldl (fun s e => lineElement e s) s

/-! ## RESET and STANDBY (R183) -/

/-- A focus run is stopped by RESET, whose command is discarded without a result (R183). -/
def resetFocus (s : State) : State := putRemote { s.remote with focus := none } s

end Sys2Proof.Machine
end

