-- ==== Sys2Proof/Machine/HeaderOps.lean ====
section
/-! DEFINITION. The Header Monitor and the Status Writer: evaluation of header words, the region check, the command
record, RESET, STANDBY, landings and read notices (09_memory_port.md R189, R190;
10_show_header_status_block_and_commands.md R198 to R214). -/

namespace Sys2Proof.Machine

/-! ## Records answered (R57, R60, R67) -/

/-- The users that wait on a record are answered with its copy (R60). -/
def answerRecord (d : EntryData) (s : State) : State :=
  match d.kind with
  | .slot => trayRecord d.key d.copy s
  | .clip => clipRecord d.key (some d.copy) s

/-- A new SLOT_BASE, already in effect, acts on the Watch Table; a base of 0 answers the users of entries being filled
with the slot default and drops their pins (R67), and the entries it frees serve the lookups that wait for one
(assumption 58). -/
def slotBaseChanged (s : State) : State :=
  let base := s.hdr.settings.slotBase
  let keys := unansweredKeys .slot s
  let s := shadowBaseChange .slot base s
  if base = 0 then serveWaiting (keys.foldl (fun s k => trayRecord k defaultSlotCopy s) (trayDropPins keys s)) else s

/-- A new CLIP_BASE, already in effect, acts on the Watch Table; a base of 0 answers "absent" (R67), and the entries it
frees serve the lookups that wait for one (assumption 58). -/
def clipBaseChanged (s : State) : State :=
  let base := s.hdr.settings.clipBase
  let keys := unansweredKeys .clip s
  let s := shadowBaseChange .clip base s
  if base = 0 then serveWaiting (keys.foldl (fun s k => clipAbsent k s) s) else s

/-! ## The region check (R189, R190) -/

/-- The four regions (R189). -/
inductive Region where
  | slot | clip | curve | ring
deriving DecidableEq, Repr

/-- The base in effect of a region. -/
def Settings.base (st : Settings) : Region → Nat
  | .slot => st.slotBase
  | .clip => st.clipBase
  | .curve => st.curveBase
  | .ring => st.ringBase

/-- The extent of a region in bytes (R189). -/
def Settings.extent (st : Settings) : Region → Nat
  | .slot => slotExtent
  | .clip => clipExtent
  | .curve => curveExtent
  | .ring => ringExtent st.ringSize

/-- Whether an extent shares no byte with a region in effect; a base of 0 is no region. -/
def Settings.clearOf (st : Settings) (base extent : Nat) (r : Region) : Bool :=
  decide (st.base r = 0) || !overlaps base extent (st.base r) (st.extent r)

/-- Whether a ring of this base and extent stands clear of the three regions the part reads (R189). -/
def Settings.ringClear (st : Settings) (base extent : Nat) : Bool :=
  st.clearOf base extent .slot && st.clearOf base extent .clip && st.clearOf base extent .curve

/-- The region check of a candidate base (R189). -/
def Settings.regionOk (st : Settings) (r : Region) (base : Nat) : Bool :=
  decide (base = 0) ||
    (decide (base % 2 = 0) && decide (256 ≤ base) && decide (base + st.extent r ≤ ramBytes)
      && (match r with
          | .ring => st.ringClear base (st.extent .ring)
          | _ => st.clearOf base (st.extent r) .ring))

/-- The check of a candidate RING_SIZE (R190). -/
def Settings.sizeOk (st : Settings) (size : Nat) : Bool :=
  decide (st.ringBase = 0) ||
    (decide (st.ringBase + ringExtent size ≤ ramBytes) && st.ringClear st.ringBase (ringExtent size))

/-! ## Values in effect (R198, R214) -/

/-- A flag as a bit of a word. -/
def flagBit (b : Bool) (i : Nat) : Nat := flagNat b * 2 ^ i

/-- MODE from the fields in effect. -/
def modeWord (st : Settings) : Word :=
  wordOf (flagBit (decide (st.changeMode = .opened)) 0 + flagBit st.skip 1)

/-- CUE_OPTIONS from the fields in effect. -/
def cueOptionsWord (st : Settings) : Word :=
  wordOf (flagBit st.decoding 0 + flagBit st.foreignLog 1 + flagBit st.errorLog 2 + flagBit st.autoHold 3)

/-- REMOTE_OPTIONS from the fields in effect. -/
def remoteOptionsWord (st : Settings) : Word :=
  wordOf (st.sysCode + flagBit st.override 8 + flagBit st.wakeByRemote 9)

/-- The value in effect, or the pending value, of a header word; a word that has none has its image. -/
def valueInEffect (h : Header) (i : Nat) : Word :=
  let st := h.settings
  match i with
  | 4 => st.irqMask
  | 5 => st.groupMask.setWidth 16
  | 6 => modeWord st
  | 7 => wordOf st.blankRate
  | 8 => wordOf h.pend.f
  | 9 => wordOf h.pend.m
  | 10 => if h.pend.sel = .b then 1 else 0
  | 11 => wordOf h.pend.volume
  | 12 => wordOf h.pend.duck
  | 16 => wordOf st.td
  | 17 => wordOf st.tt
  | 18 => wordOf st.tr
  | 19 => wordOf st.gateLimit
  | 20 => wordOf st.pc
  | 21 => wordOf st.dwellLimit
  | 24 => wordOf (st.slotBase % 65536)
  | 25 => wordOf (st.slotBase / 65536)
  | 26 => wordOf (st.clipBase % 65536)
  | 27 => wordOf (st.clipBase / 65536)
  | 28 => wordOf (st.curveBase % 65536)
  | 29 => wordOf (st.curveBase / 65536)
  | 30 => wordOf (st.ringBase % 65536)
  | 31 => wordOf (st.ringBase / 65536)
  | 32 => wordOf st.ringSize
  | 33 => wordOf h.ringRd
  | 34 => cueOptionsWord st
  | 35 => remoteOptionsWord st
  | 36 => wordOf st.lifeLimit
  | _ => (h.image[i]?).getD 0

/-- The image of a header word. -/
def Header.imageOf (h : Header) (i : Nat) : Word := (h.image[i]?).getD 0

/-- Sets the image of a header word. -/
def setImage (i : Nat) (v : Word) (s : State) : State :=
  { s with hdr := { s.hdr with image := s.hdr.image.setIfInBounds i v } }

/-- Puts settings in effect. PROG is a field of STATUS, so a change of it is marked (R206). -/
def putSettings (st : Settings) (s : State) : State :=
  let o := s
  let s := { s with hdr := { s.hdr with settings := st } }
  markStatusIf (decide (s.prog ≠ o.prog)) s

/-- Puts pending settings. -/
def putPending (p : PendingSettings) (s : State) : State := { s with hdr := { s.hdr with pend := p } }

/-- A word whose image differs from its value in effect is corrected back (R198, R201). -/
def compareWord (i : Nat) (s : State) : State :=
  if valueInEffect s.hdr i = s.hdr.imageOf i then s else addCorrection i s

/-! ## Settings taken up (R199, R121, R214) -/

/-- IRQ_MASK (R208): a newly unmasked event of the last-written EVENTS sets IRQ pending. -/
def takeIrqMask (v : Word) (s : State) : State :=
  let shown := (s.sw.copy[2]?).getD 0
  let fresh := shown &&& v &&& ~~~s.hdr.settings.irqMask
  let s := putSettings { s.hdr.settings with irqMask := v } s
  if fresh = 0 then s else { s with sw := { s.sw with irqPending := true } }

/-- GROUP_MASK (R132): members beyond group 6 are removed. -/
def takeGroupMask (v : Word) (s : State) : State :=
  putSettings { s.hdr.settings with groupMask := v.setWidth 7 } s

/-- MODE (R199). -/
def takeMode (v : Word) (s : State) : State :=
  putSettings { s.hdr.settings with
    changeMode := if bitOf v 0 then .opened else .dark, skip := bitOf v 1 } s

/-- BLANK_RATE (R199). -/
def takeBlankRate (v : Word) (s : State) : State :=
  putSettings { s.hdr.settings with blankRate := clampTo 0 50 v.toNat } s

/-- FLOOR, pending (R92, R199). -/
def takeFloor (v : Word) (s : State) : State := putPending { s.hdr.pend with f := clampTo 48 255 v.toNat } s

/-- MASTER, pending (R92, R199). -/
def takeMaster (v : Word) (s : State) : State := putPending { s.hdr.pend with m := clampTo 0 256 v.toNat } s

/-- CURVE_SEL, pending (R214): a value other than 0 or 1 is not accepted. -/
def takeCurveSel (v : Word) (s : State) : State :=
  if v = 0 then putPending { s.hdr.pend with sel := .a } s
  else if v = 1 then putPending { s.hdr.pend with sel := .b } s
  else s

/-- VOLUME, pending (R167, R199). -/
def takeVolume (v : Word) (s : State) : State := putPending { s.hdr.pend with volume := clampTo 0 255 v.toNat } s

/-- DUCK, pending (R167, R199). -/
def takeDuck (v : Word) (s : State) : State := putPending { s.hdr.pend with duck := clampTo 0 255 v.toNat } s

/-- Tt clamped against a Td (R121). -/
def clampTt (td tt : Nat) : Nat := clampTo (td + 5) 140 tt

/-- Tr clamped against a Td (R121). -/
def clampTr (td tr : Nat) : Nat := clampTo 40 (td - 5) tr

/-- addCorrection when a condition holds. -/
def correctIf (b : Bool) (i : Nat) (s : State) : State := if b then addCorrection i s else s

/-- TD (R121): Tt and Tr in effect are clamped again, a value so moved is corrected back, and C is worked out again. -/
def takeTd (v : Word) (s : State) : State :=
  let st := s.hdr.settings
  let td := clampTo 80 115 v.toNat
  let tt := clampTt td st.tt
  let tr := clampTr td st.tr
  let s := putSettings { st with td := td, tt := tt, tr := tr } s
  updateCeiling (correctIf (decide (tr ≠ st.tr)) 18 (correctIf (decide (tt ≠ st.tt)) 17 s))

/-- TT (R121). -/
def takeTt (v : Word) (s : State) : State :=
  putSettings { s.hdr.settings with tt := clampTt s.hdr.settings.td v.toNat } s

/-- TR (R121). -/
def takeTr (v : Word) (s : State) : State :=
  putSettings { s.hdr.settings with tr := clampTr s.hdr.settings.td v.toNat } s

/-- GATE_LIMIT (R113, R121): the gate flag is judged at once, also while the gate sensor is in fault (assumption 50). -/
def takeGateLimit (v : Word) (s : State) : State :=
  updateGateFlag (putSettings { s.hdr.settings with gateLimit := clampTo 50 110 v.toNat } s)

/-- PC (R114, R115, R121). -/
def takePc (v : Word) (s : State) : State :=
  updateCeiling (putSettings { s.hdr.settings with pc := clampTo 256 1023 v.toNat } s)

/-- DWELL_LIMIT (R114, R121): 0 is kept, and a value that is in effect already is no new limit. -/
def takeDwellLimit (v : Word) (s : State) : State :=
  let limit := if v = 0 then 0 else clampTo 10 900 v.toNat
  if limit = s.hdr.settings.dwellLimit then s
  else dwellLimitChanged (putSettings { s.hdr.settings with dwellLimit := limit } s)

/-- RING_SIZE (R190, R142). -/
def takeRingSize (v : Word) (s : State) : State :=
  let size := clampTo 16 4096 v.toNat
  if size = s.hdr.settings.ringSize then s
  else if s.hdr.settings.sizeOk size then freshRing (putSettings { s.hdr.settings with ringSize := size } s)
  else s

/-- RING_RD (R141): accepted below RING_SIZE, and handed to the Log Writer. -/
def takeRingRd (v : Word) (s : State) : State :=
  if v.toNat < s.hdr.settings.ringSize then
    handRingRd v.toNat { s with hdr := { s.hdr with ringRd := v.toNat } }
  else s

/-- Auto-hold turned on or off (R145). -/
def autoHoldTurned (s : State) : State :=
  if s.hdr.settings.autoHold then autoHold s else putDeck { s.deck with auto := false } s

/-- CUE_OPTIONS (R145, R147): decoding disabled discards a frame in progress and holds the aligner in HUNT. -/
def takeCueOptions (v : Word) (s : State) : State :=
  let s := putSettings { s.hdr.settings with
    decoding := bitOf v 0, foreignLog := bitOf v 1, errorLog := bitOf v 2, autoHold := bitOf v 3 } s
  autoHoldTurned (if s.hdr.settings.decoding then s else discardFrame s)

/-- REMOTE_OPTIONS (R214): a system code of 32 or more is not accepted, the other two fields are taken. -/
def takeRemoteOptions (v : Word) (s : State) : State :=
  let code := fieldOf v 0 8
  putSettings { s.hdr.settings with
    sysCode := if code < 32 then code else s.hdr.settings.sysCode
    override := bitOf v 8, wakeByRemote := bitOf v 9 } s

/-- LIFE_LIMIT (R101). -/
def takeLifeLimit (v : Word) (s : State) : State :=
  reviewLife (putSettings { s.hdr.settings with lifeLimit := v.toNat } s)

/-! ## Region bases (R200) -/

/-- The base of a region in effect becomes another, and the block that holds the region acts (R190). -/
def acceptBase (r : Region) (base : Nat) (s : State) : State :=
  match r with
  | .slot => slotBaseChanged (putSettings { s.hdr.settings with slotBase := base } s)
  | .clip => clipBaseChanged (putSettings { s.hdr.settings with clipBase := base } s)
  | .curve => curveBaseChanged (putSettings { s.hdr.settings with curveBase := base } s)
  | .ring => freshRing (putSettings { s.hdr.settings with ringBase := base } s)

/-- The header word that holds the low half of a region's base; the next holds the high half (11.1). -/
def Region.word : Region → Nat
  | .slot => 24
  | .clip => 26
  | .curve => 28
  | .ring => 30

/-- The candidate that the two images of a base make (R200). -/
def candidateBase (r : Region) (h : Header) : Nat :=
  (h.imageOf (r.word + 1)).toNat * 65536 + (h.imageOf r.word).toNat

/-- The high word of a base has been written (R200): the candidate is checked, and taken up when it passes and is a
change; when the base in effect differs from the images, both words are corrected back. -/
def takeBase (r : Region) (s : State) : State :=
  let base := candidateBase r s.hdr
  let s :=
    if s.hdr.settings.regionOk r base && decide (base ≠ s.hdr.settings.base r) then acceptBase r base s else s
  if s.hdr.settings.base r = candidateBase r s.hdr then s
  else addCorrection (r.word + 1) (addCorrection r.word s)

/-! ## The power states (R212) -/

/-- A STANDBY command is taken in NORMAL (R212): the power state becomes STANDBY_PENDING, the executor, the decoder and
the Clip Player stop, and a focus run stops. The executor's EXEC_FAIL record comes before the Clip Player's (assumption
61). -/
def enterStandby (s : State) : State :=
  let s := evalStandby (putThermal { s.thermal with power := .standbyPending } s)
  endFocus .ok (clipStopNow (standbyDecoder (standbyExecutor s)))

/-! ## Commands taken (R203) -/

/-- The CLIP command (R152): a clip number above 63 is bad_param in every power state. -/
def commandClip (r : CommandRecord) (s : State) : State :=
  if 63 < r.p1.toNat then endPlain .badParam s
  else startRequest { clip := r.p1.toNat, queueMode := decide (r.p2 ≠ 0), source := .command r.tag } s

/-- The INJECT command (R137). -/
def commandInject (r : CommandRecord) (s : State) : State :=
  if 15 < r.p1.toNat ∨ 15 < r.p2.toNat ∨ 4095 < r.p3.toNat then endPlain .badParam s
  else if s.thermal.power ≠ .normal then endPlain .standby s
  else endPlain .ok (routeFrame r.p1.toNat r.p2.toNat r.p3.toNat 0 true s)

/-- The FOCUS command (R182). -/
def commandFocus (r : CommandRecord) (s : State) : State :=
  if s.thermal.power ≠ .normal then endPlain .standby s
  else startFocus (decide (r.p1 = 0)) .command (clampTo 10 4000 r.p2.toNat * 1000) s

/-- The STANDBY command (R212). -/
def commandStandby (s : State) : State :=
  if s.thermal.power = .normal then endPlain .ok (enterStandby s) else endPlain .standby s

/-- The command of the record is taken and routed by its code (R203); with the abort mark it ends aborted. -/
def routeCommand (s : State) : State :=
  let r := s.hdr.record
  if r.abortMark then endPlain .aborted s
  else if executorCodes.contains r.code then putCx { s.cx with pendingCmd := true } s
  else if r.code = codeNop then endPlain .ok s
  else if r.code = codeApply then takeApply s
  else if r.code = codeLampMinutes then endPlain .ok (setLampMinutes r.p1 r.p2 s)
  else if r.code = codeClip then commandClip r s
  else if r.code = codeClipStop then endPlain .ok (clipStopNow s)
  else if r.code = codeHold then endPlain .ok (putDeck { s.deck with host := true } s)
  else if r.code = codeRelease then endPlain .ok (releaseDeck s)
  else if r.code = codeInject then commandInject r s
  else if r.code = codeFocus then commandFocus r s
  else if r.code = codeStandby then commandStandby s
  else if r.code = codeWake then endPlain .ok (wakeUnit s)
  else endPlain .badCommand s

/-! ## Triggers (R202, R205) -/

/-- STOP acts at the trigger (R205): on an ACCEPTED executor action or FOCUS the abort mark is set, an ACTIVE one ends as
R20, R21 and R182 lay down. -/
def stopCommand (s : State) : State :=
  let r := s.hdr.record
  let s :=
    if r.state = .accepted ∧ (executorCodes.contains r.code ∨ r.code = codeFocus) then
      putRecord { r with abortMark := true } s
    else s
  stopFocusCommand (stopExecutor s)

/-- RESET in the record (R205): a command ACCEPTED or ACTIVE is discarded, and an ACTIVE record becomes CLOSING. -/
def discardRecord (s : State) : State :=
  let r := s.hdr.record
  match r.state with
  | .accepted => putRecord { r with discardMark := true } s
  | .active => putRecord { r with discardMark := true, state := .closing } s
  | _ => s

/-- Every latch and IRQ pending are cleared; a status write already granted sets no IRQ when it lands (R208, R211). -/
def clearEvents (s : State) : State :=
  { s with
    sw := { s.sw with latches := 0, irqPending := false }
    port := { s.port with ram := s.port.ram.map (fun a => { a with preReset := true }) } }

/-- RESET acts at the trigger (R205, R211), in the order of assumption 38, with the executor's EXEC_FAIL record before
the Clip Player's (assumption 61). An apply record that waits is kept (assumption 62). -/
def resetCommand (s : State) : State :=
  let s := clearEvents s
  let s := discardRecord s
  let s := clipReset (cueTrackReset (resetFocus (resetExecutor s)))
  markAll (trayAfterReset (shadowReset s))

/-- A command other than STOP and RESET is accepted into a FREE record with P1, P2 and P3 as they stand, and rejected
otherwise (R202). -/
def acceptCommand (code tag : Byte) (s : State) : State :=
  if s.hdr.record.state = .free then
    putRecord { state := .accepted, code := code, tag := tag
                p1 := s.hdr.imageOf 1, p2 := s.hdr.imageOf 2, p3 := s.hdr.imageOf 3
                abortMark := false, discardMark := false, handed := false, toLand := [] } s
  else latch .cmdReject (markDirty 6 { s with sw := { s.sw with rejectTag := tag } })

/-- A trigger: a write of CMD that stores the low lane (R202). -/
def triggerCommand (v : Word) (s : State) : State :=
  let code := loByte v
  if code = codeStop then stopCommand s
  else if code = codeReset then resetCommand s
  else acceptCommand code (hiByte v) s

/-! ## Evaluation of a header write (R198) -/

/-- What the word written means to the part (R198). -/
def takeWord (i : Nat) (v : Word) (s : State) : State :=
  match i with
  | 4 => compareWord 4 (takeIrqMask v s)
  | 5 => compareWord 5 (takeGroupMask v s)
  | 6 => compareWord 6 (takeMode v s)
  | 7 => compareWord 7 (takeBlankRate v s)
  | 8 => compareWord 8 (takeFloor v s)
  | 9 => compareWord 9 (takeMaster v s)
  | 10 => compareWord 10 (takeCurveSel v s)
  | 11 => compareWord 11 (takeVolume v s)
  | 12 => compareWord 12 (takeDuck v s)
  | 16 => compareWord 16 (takeTd v s)
  | 17 => compareWord 17 (takeTt v s)
  | 18 => compareWord 18 (takeTr v s)
  | 19 => compareWord 19 (takeGateLimit v s)
  | 20 => compareWord 20 (takePc v s)
  | 21 => compareWord 21 (takeDwellLimit v s)
  | 25 => takeBase .slot s
  | 27 => takeBase .clip s
  | 29 => takeBase .curve s
  | 31 => takeBase .ring s
  | 32 => compareWord 32 (takeRingSize v s)
  | 33 => compareWord 33 (takeRingRd v s)
  | 34 => compareWord 34 (takeCueOptions v s)
  | 35 => compareWord 35 (takeRemoteOptions v s)
  | 36 => compareWord 36 (takeLifeLimit v s)
  | _ => s

/-- A correction waiting for a word is cancelled by a host write to it (R201). -/
def cancelCorrection (i : Nat) (s : State) : State :=
  let s := withdrawHeader i s
  { s with hdr := { s.hdr with corrections := removeIndex i s.hdr.corrections } }

/-- A host write in the HEADER class is evaluated at its grant (R198). -/
def evaluateHeader (i : Nat) (w : LaneWrite) (s : State) : State :=
  let v := LaneWrite.over w (s.hdr.imageOf i)
  let s := setImage i v (cancelCorrection i s)
  if i = 0 then (if LaneWrite.storesLow w then triggerCommand v s else s) else takeWord i v s

/-! ## Landings (R201, R204, R206, R208, R210) -/

/-- A STATUS write lands (R203 to R205): its CMDW bit moves the command record. -/
def statusLanded (v : Word) (s : State) : State :=
  let r := s.hdr.record
  let shown := bitOf v 2
  match r.state with
  | .accepted =>
    if shown then
      (if r.discardMark then putRecord { r with state := .closing } s
       else routeCommand (putRecord { r with state := .active } s))
    else if r.discardMark then putRecord CommandRecord.idle s
    else s
  | .closing => if shown then s else putRecord CommandRecord.idle s
  | _ => s

/-- A result word composed after the hand-over lands (R204): with the last of the three, FAIL is set or cleared, cmd_done
is latched and STATUS made dirty. -/
def resultLanded (i : Nat) (s : State) : State :=
  let r := s.hdr.record
  if r.handed && r.toLand.contains i then
    let left := removeIndex i r.toLand
    let s := putRecord { r with toLand := left } s
    if left = [] then
      latch .cmdDone (markStatus { s with sw := { s.sw with fail := decide (s.sw.resultCode ≠ .ok) } })
    else s
  else s

/-- An EVENTS write lands (R208): an unmasked event that the value before it did not hold sets IRQ pending. -/
def eventsLanded (old v : Word) (preReset : Bool) (s : State) : State :=
  if preReset || decide (v &&& ~~~old &&& s.hdr.settings.irqMask = 0) then s
  else { s with sw := { s.sw with irqPending := true } }

/-- A word leaves the set not yet written; when the set becomes empty RDY is set (R210). -/
def firstWritten (i : Nat) (s : State) : State :=
  if s.sw.unwritten.contains i then
    let left := removeIndex i s.sw.unwritten
    let s := { s with sw := { s.sw with unwritten := left } }
    if left = [] then markStatus { s with sw := { s.sw with rdy := true } } else s
  else s

/-- A Status Block write lands (R206). -/
def statusWordLanded (i : Nat) (v : Word) (afterHand preReset : Bool) (s : State) : State :=
  let old := (s.sw.copy[i]?).getD 0
  let s := { s with sw := { s.sw with copy := s.sw.copy.setIfInBounds i v } }
  let s := firstWritten i s
  let s := if i = 0 then statusLanded v s else s
  let s := if i = 2 then eventsLanded old v preReset s else s
  if afterHand then resultLanded i s else s

/-- A corrective write lands (R201): the image becomes the value and the word leaves the set. -/
def correctionWritten (i : Nat) (v : Word) (s : State) : State :=
  let s := setImage i v s
  { s with hdr := { s.hdr with corrections := removeIndex i s.hdr.corrections } }

/-! ## Read notices (R188, R209) -/

/-- The notice of a STATUS read (R209). -/
def statusNotice (s : State) : State :=
  if s.sw.dirty.contains 0 || s.sw.dirty.contains 2 then s
  else { s with sw := { s.sw with irqPending := false } }

/-- The notice of an EVENTS read (R209): the latches of the last-written EVENTS are cleared. -/
def eventsNotice (s : State) : State :=
  let shown := (s.sw.copy[2]?).getD 0
  if s.sw.latches &&& shown = 0 then s
  else
    let attn := s.sw.attn
    let s := { s with sw := { s.sw with latches := s.sw.latches &&& ~~~shown } }
    markDirty 2 (markDirty 0 (markIf (decide (s.sw.attn ≠ attn)) 1 s))

end Sys2Proof.Machine
end

