-- ==== Sys2Proof/Machine/PortOps.lean ====
section
/-! DEFINITION. The Memory Port: classes of host writes, requests, the arbiter, the ends of accesses
(09_memory_port.md, R184 to R197); what comes about inside every step; the RESET pin; and the passing of time. -/

namespace Sys2Proof.Machine

/-! ## Requests (R191) -/

/-- Whether a requester has no access of its own in the RAM. -/
def Port.notInRam (p : Port) (who : Requester) : Bool :=
  match p.ram with
  | some a => decide (a.who ≠ who)
  | none => true

/-- Sets the requests. -/
def putReqs (r : Requests) (s : State) : State := { s with port := { s.port with reqs := r } }

/-- The Clip Player presents a request (R158). -/
def presentClip (s : State) : State :=
  if s.port.reqs.clipPlayer = none ∧ s.port.notInRam .clipPlayer ∧ s.clip.wantsWord then
    putReqs { s.port.reqs with clipPlayer := some s.clip.fetchAddr } (putClip { s.clip with inFlight := true } s)
  else s

/-- The Status Writer presents its lowest dirty word, which leaves the dirty set: one that turns dirty below the word being
written is written next (R206). -/
def presentStatus (s : State) : State :=
  if s.port.reqs.statusWriter = none ∧ s.port.notInRam .statusWriter then
    match s.sw.dirty with
    | i :: rest =>
      putReqs { s.port.reqs with statusWriter := some i } { s with sw := { s.sw with dirty := rest } }
    | [] => s
  else s

/-- The Header Monitor presents its lowest waiting correction (R201). -/
def presentHeader (s : State) : State :=
  if s.port.reqs.headerMonitor = none ∧ s.port.notInRam .headerMonitor then
    match s.hdr.corrections with
    | i :: _ => putReqs { s.port.reqs with headerMonitor := some i } s
    | [] => s
  else s

/-- The Log Writer presents the next word of its record (R140). -/
def presentLog (s : State) : State :=
  if s.port.reqs.logWriter = none ∧ s.port.notInRam .logWriter then
    putReqs { s.port.reqs with logWriter := nextLogWord s } s
  else s

/-- The Record Shadow presents the next word of its fetch (R59). -/
def presentShadow (s : State) : State :=
  if s.port.reqs.recordShadow = none ∧ s.port.notInRam .recordShadow then
    putReqs { s.port.reqs with recordShadow := s.shadow.nextFetch } s
  else s

/-- The Curve Loader presents its next point (R95). -/
def presentCurve (s : State) : State :=
  if s.port.reqs.curveLoader = none ∧ s.port.notInRam .curveLoader then
    putReqs { s.port.reqs with curveLoader := nextCurveWord s } s
  else s

/-- Every requester with something to ask for presents its request (R191). -/
def present (s : State) : State :=
  presentCurve (presentShadow (presentLog (presentHeader (presentStatus (presentClip s)))))

/-! ## The arbiter (R192, R193) -/

/-- Whether the host's access waits for its grant. -/
def Port.hostWaits (p : Port) : Bool :=
  match p.access with
  | some a => !a.inRam
  | none => false

/-- The first class L requester that waits (R191). -/
def Requests.firstL (r : Requests) : Option Requester :=
  if r.statusWriter.isSome then some .statusWriter
  else if r.headerMonitor.isSome then some .headerMonitor
  else if r.logWriter.isSome then some .logWriter
  else none

/-- The first class F requester that waits (R191). -/
def Requests.firstF (r : Requests) : Option Requester :=
  if r.recordShadow.isSome then some .recordShadow
  else if r.curveLoader.isSome then some .curveLoader
  else none

/-- Whether a class L or class F request waits (R193). -/
def Requests.lfWaits (r : Requests) : Bool := r.firstL.isSome || r.firstF.isSome

/-- The first class L requester, or when none waits the first class F requester (R192). -/
def Requests.guarded (r : Requests) : Option Requester :=
  match r.firstL with
  | some w => some w
  | none => r.firstF

/-- The request that the arbiter grants (R192), with whether the Clip Player's is urgent. The host's access goes before the
Status Writer's request, also when it reads one of the words of LAMP_MIN and the other is still to be written: of R192
and the conclusion of R215, which cannot both hold, the model follows R192. DESIGN CHOICE, unsafe (assumption 73). -/
def choose (p : Port) (urgent : Bool) : Option Requester :=
  if p.reqs.clipPlayer.isSome && urgent then some .clipPlayer
  else if decide (p.guard = 8) && p.reqs.lfWaits then p.reqs.guarded
  else if p.hostWaits then some .host
  else if p.reqs.firstL.isSome then p.reqs.firstL
  else if p.reqs.clipPlayer.isSome then some .clipPlayer
  else p.reqs.firstF

/-- The guard count after a grant (R193). -/
def guardAfter (p : Port) : Requester → Nat
  | .host => if p.reqs.lfWaits then min 8 (p.guard + 1) else 0
  | .clipPlayer => p.guard
  | _ => 0

/-- The RAM performs an access. -/
def startAccess (who : Requester) (addr : Nat) (data : Word) (afterHand : Bool) (reqs : Requests) (s : State) : State :=
  let a : RamAccess :=
    { who := who, addr := addr, data := data, void := false, afterHand := afterHand, preReset := false }
  { s with port := { s.port with ram := some a, guard := guardAfter s.port who, reqs := reqs } }

/-- A granted host write is handed on (R186): a HEADER write to the Header Monitor, a WATCHED one to the Record Shadow
and the Lamp Drive. While the RESET pin is held nothing is handed on (R196). -/
def handOn (a : HostAccess) (w : LaneWrite) (s : State) : State :=
  if s.resetHeld then s
  else
    match a.cls with
    | .header => evaluateHeader a.addr.toNat w s
    | .watched =>
      let b := LaneWrite.bytes w a.addr
      curveCompare b.1 b.2 (shadowCompare b.1 b.2 s)
    | _ => s

/-- The host's access is granted (R185). -/
def grantHost (s : State) : State :=
  match s.port.access with
  | some a =>
    let addr := 2 * a.addr.toNat
    let s := { s with port := { s.port with access := some { a with inRam := true } } }
    match a.kind with
    | .read => startAccess .host addr (memWord s.mem addr) false s.port.reqs s
    | .write w =>
      let s := startAccess .host addr 0 false s.port.reqs s
      handOn a w { s with mem := memStore s.mem a.addr w }
  | none => s

/-- Where the Status Block begins (11.2). -/
def statusBlockAddr : Nat := 128

/-- The Status Writer's request is granted (R206): the word is composed now. -/
def grantStatus (s : State) : State :=
  match s.port.reqs.statusWriter with
  | some i =>
    let hand := s.hdr.record.handed && s.hdr.record.toLand.contains i
    startAccess .statusWriter (statusBlockAddr + 2 * i) (compose s i) hand { s.port.reqs with statusWriter := none } s
  | none => s

/-- The Header Monitor's request is granted (R201): the data is the value in effect now. -/
def grantHeader (s : State) : State :=
  match s.port.reqs.headerMonitor with
  | some i =>
    startAccess .headerMonitor (2 * i) (valueInEffect s.hdr i) false { s.port.reqs with headerMonitor := none } s
  | none => s

/-- The Log Writer's request is granted. -/
def grantLog (s : State) : State :=
  match s.port.reqs.logWriter with
  | some (addr, w) => startAccess .logWriter addr w false { s.port.reqs with logWriter := none } s
  | none => s

/-- A read of the Clip Player, the Record Shadow or the Curve Loader is granted. -/
def grantRead (who : Requester) (addr : Option Nat) (reqs : Requests) (s : State) : State :=
  match addr with
  | some a => startAccess who a (memWord s.mem a) false reqs s
  | none => s

/-- The chosen request is granted (R192). -/
def grantTo (who : Requester) (s : State) : State :=
  let r := s.port.reqs
  match who with
  | .host => grantHost s
  | .statusWriter => grantStatus s
  | .headerMonitor => grantHeader s
  | .logWriter => grantLog s
  | .clipPlayer => grantRead .clipPlayer r.clipPlayer { r with clipPlayer := none } s
  | .recordShadow => grantRead .recordShadow r.recordShadow { r with recordShadow := none } s
  | .curveLoader => grantRead .curveLoader r.curveLoader { r with curveLoader := none } s

/-- A grant is decided when the RAM is free (R192). -/
def grant (s : State) : State :=
  match s.port.ram with
  | some _ => s
  | none =>
    match choose s.port s.clip.urgent with
    | some who => grantTo who s
    | none => s

/-! ## What comes about inside a step -/

/-- What follows at once from the state: the executor's course, the Log Writer's next record, and the requests. -/
def after (s : State) : State := present (logPump 5 (settle 40 s))

/-- The end of a step: what follows at once, one grant when the RAM is free, and what follows from the grant. -/
def finish (s : State) : State := after (grant (after s))

/-- A command's effect on a part whose RESET pin is not held: what it does, and what comes about inside the step. While
the pin is held the command has no effect. -/
def live (f : State → State) (s : State) : State := if s.resetHeld then s else finish (f s)

/-- The end of a step of the Memory Port alone, which goes on while the RESET pin is held (R196). -/
def portFinish (s : State) : State := if s.resetHeld then grant s else finish s

/-! ## Host accesses (R185 to R188, R196) -/

/-- Whether a word address lies in the Status Block. -/
def inStatusBlock (a : WordAddr) : Bool := decide (64 ≤ a.toNat) && decide (a.toNat < 128)

/-- Whether a word address lies in the cue ring area, while a ring is set (R186). -/
def inRing (st : Settings) (a : WordAddr) : Bool :=
  decide (st.ringBase ≠ 0) && decide (st.ringBase ≤ 2 * a.toNat)
    && decide (2 * a.toNat < st.ringBase + ringExtent st.ringSize)

/-- The class of a host write (R186). While the RESET pin is held no ring is set (R196). -/
def classify (a : WordAddr) (s : State) : AccessClass :=
  if a.toNat < 64 then .header
  else if inStatusBlock a then .protectedArea
  else if s.resetHeld = false ∧ inRing s.hdr.settings a then .protectedArea
  else .watched

/-- A host access is taken with none held (R185): a PROTECTED write is completed at once and latches protect (R187); any
other waits for its grant. -/
def takeAccess (addr : WordAddr) (kind : HostKind) (s : State) : State :=
  match kind with
  | .read =>
    { s with port := { s.port with access := some { addr := addr, kind := kind, cls := .read, inRam := false } } }
  | .write _ =>
    let cls := classify addr s
    if cls = .protectedArea then latchIf (!s.resetHeld) .protect s
    else { s with port := { s.port with access := some { addr := addr, kind := kind, cls := cls, inRam := false } } }

/-- The host starts a bus access. One that comes while another is held is kept until that one has ended (assumption 6),
since the host makes one access at a time (R185). -/
def hostAccess (addr : WordAddr) (kind : HostKind) (s : State) : State :=
  if s.port.access.isSome then
    { s with port := { s.port with
      backlog := s.port.backlog ++ [{ addr := addr, kind := kind, cls := .read, inRam := false }] } }
  else takeAccess addr kind s

/-- The accesses kept are started, one at a time, until one is held. -/
def startKept : List HostAccess → State → State
  | [], s => { s with port := { s.port with backlog := [] } }
  | a :: rest, s =>
    let s := takeAccess a.addr a.kind s
    if s.port.access.isSome then { s with port := { s.port with backlog := rest } } else startKept rest s

/-- The notice of a watched read at its end (R188). -/
def readNotice (addr : WordAddr) (s : State) : State :=
  if s.resetHeld then s
  else if addr.toNat = 64 then statusNotice s
  else if addr.toNat = 66 then eventsNotice s
  else s

/-- The host's access ends (R185): the RAM is free, a read has returned its word and given its notice, and the host may
start the next. -/
def endHostAccess (s : State) : State :=
  match s.port.access, s.port.ram with
  | some a, some r =>
    if a.inRam ∧ r.who = .host then
      let s := { s with port := { s.port with access := none, ram := none } }
      let s := match a.kind with
        | .read => readNotice a.addr { s with port := { s.port with readData := r.data } }
        | .write _ => s
      startKept s.port.backlog s
    else s
  | _, _ => s

/-! ## Ends of the part's accesses (R191, R195) -/

/-- The access the RAM performs, when it is this requester's. -/
def Port.inRamOf (p : Port) (who : Requester) : Option RamAccess :=
  match p.ram with
  | some a => if a.who = who then some a else none
  | none => none

/-- The RAM is free. -/
def freeRam (s : State) : State := { s with port := { s.port with ram := none } }

/-- A write of the part has landed: its word is in RAM (R194). -/
def landWord (a : RamAccess) (s : State) : State := { freeRam s with mem := memSetWord s.mem a.addr a.data }

/-- A Status Block write lands. -/
def endStatusWrite (s : State) : State :=
  match s.port.inRamOf .statusWriter with
  | some a => statusWordLanded ((a.addr - statusBlockAddr) / 2) a.data a.afterHand a.preReset (landWord a s)
  | none => s

/-- A corrective header write lands. -/
def endCorrection (s : State) : State :=
  match s.port.inRamOf .headerMonitor with
  | some a => correctionWritten (a.addr / 2) a.data (landWord a s)
  | none => s

/-- A word of a ring record lands; one of an abandoned record is followed by no step (R195). -/
def endLogWrite (s : State) : State :=
  match s.port.inRamOf .logWriter with
  | some a => if a.void then landWord a s else logLanded (landWord a s)
  | none => s

/-- A record word returns, and the users of a record completed are answered (R59, R60); one abandoned is discarded. -/
def endRecordRead (s : State) : State :=
  match s.port.inRamOf .recordShadow with
  | some a =>
    if a.void then freeRam s
    else
      match recordWord a.data (freeRam s) with
      | (s, some d) => answerRecord d s
      | (s, none) => s
  | none => s

/-- A curve word returns (R95); one abandoned is discarded. -/
def endCurveRead (s : State) : State :=
  match s.port.inRamOf .curveLoader with
  | some a => if a.void then freeRam s else curveWord a.data (freeRam s)
  | none => s

/-- A sample word returns (R158); one abandoned is discarded. -/
def endSampleRead (s : State) : State :=
  match s.port.inRamOf .clipPlayer with
  | some a =>
    if a.void then freeRam s
    else
      let s := freeRam s
      putClip (ClipPlayer.takeWord s.now a.data s.clip) s
  | none => s

/-! ## The RESET pin (R196, R210) -/

/-- The RESET pin is asserted (R196): the part's requests and its access are dropped, and only host accesses go on. A
write of the part that the RAM performs never lands (assumption 54). -/
def assertReset (s : State) : State :=
  { s with
    resetHeld := true
    port := { s.port with
      reqs := Requests.empty
      ram := match s.port.ram with
        | some a => if a.who = .host then some a else none
        | none => none } }

/-- The machine right after the RESET pin, with these levels on the input pins and this RAM (R24, R50, R69, R102, R122,
R146, R149, R170, R171, R183, R196, R210). -/
def releaseReset (p : ResetPins) (s : State) : State :=
  let r := State.reset
  { r with
    mem := s.mem
    tray := { r.tray with
      n := if p.trayPresent && p.tray96 then 96 else 48
      state := if p.trayPresent then .unhomed else .trayOut
      topOn := p.armTop
      bottomOn := p.armBottom }
    deck := { r.deck with tapeRun := p.tapeRun }
    remote := { r.remote with
      keyFwd := { down := false, heldAtPin := p.keyFwd }
      keyRev := { down := false, heldAtPin := p.keyRev }
      keyFocusIn := { down := false, heldAtPin := p.keyFocusIn }
      keyFocusOut := { down := false, heldAtPin := p.keyFocusOut }
      keyLamp := { down := false, heldAtPin := p.keyLamp } }
    unit := p.unit
    pending := s.pending }

/-! ## Time -/

/-- d µs pass on the part's time base: the time rises, and the counts that run only while their conditions hold go on:
the dwell timer (R114), the lamp-minutes count (R100), whose begun millisecond is kept over a stop (assumption 59), and
the tape time (R146), whose begun tick is kept over a stop (assumption 53). DESIGN CHOICE, unsafe: the begun
millisecond of the dwell timer is kept over a stop too (assumption 65). -/
def passTime (d : Nat) (s : State) : State :=
  let dwell := if s.dwellCounts then min (dwellLimitUs s) (s.thermal.dwellUs + d) else s.thermal.dwellUs
  let minute := if s.lamp.state.lit && s.lamp.mainsPresent then s.lamp.minuteUs + d else s.lamp.minuteUs
  let tape :=
    if decide (s.cue.carrier = .present) && s.deck.tapeRun then s.cue.tapeUs + d else s.cue.tapeUs
  { s with
    now := s.now + d
    thermal := { s.thermal with dwellUs := dwell }
    lamp := { s.lamp with minuteUs := minute }
    cue := { s.cue with tapeUs := tape } }

/-- A command when a condition holds. -/
def dueIf (b : Bool) (c : Instr) : List Instr := if b then [c] else []

/-- The end of the access the RAM performs, as a command. -/
def accessEnd (s : State) : List Instr :=
  match s.port.ram with
  | some a =>
    match a.who with
    | .host => [.hostAccessEnd]
    | .statusWriter => [.statusBlockWriteLanded]
    | .headerMonitor => [.correctionLanded]
    | .logWriter => [.logWordLanded]
    | .recordShadow => [.recordWordReturned]
    | .curveLoader => [.curveWordReturned]
    | .clipPlayer => [.sampleWordReturned]
  | none => []

/-- Whether run-on reaches 60 s just now (R110). -/
def runOnReachedNow (s : State) : Bool :=
  match s.thermal.runOn with
  | some t => decide (s.now - t = Config.runOnTime)
  | none => false

/-- The events one block has on its way to another. -/
def signalsDue (s : State) : List Instr :=
  dueIf (!s.lamp.rampDone.isEmpty) .rampComplete ++ dueIf s.lamp.darkSent .darkEvent

/-- The expiries that are due, in the table's order. -/
def timersDue (s : State) : List Instr :=
  dueIf (liftDue s) .liftTimeout ++ (dueIf (lowerDue s) .lowerTimeout ++ (dueIf (rotateDue s) .rotateTimeout
    ++ (dueIf (dropDue s) .dropTimeout ++ (dueIf (settleDue s) .settleEnd ++ (dueIf (recoverDue s) .recoverTimeout
    ++ (dueIf (mainsLossDue s) .mainsLoss ++ (dueIf (substituteDue s) .substituteHalfCycle
    ++ (dueIf (firingDue s) .lampFiring ++ (dueIf (decide (Config.minuteTime ≤ s.lamp.minuteUs)) .lampMinuteTick
    ++ (dueIf (readCycleDue s) .sensorReadCycle ++ (dueIf (tachDue s) .tachWatchExpiry
    ++ (dueIf (runOnReachedNow s) .runOnTimeReached ++ (dueIf (dwellDue s) .dwellLimitReached
    ++ (dueIf (carrierLossDue s) .carrierLost ++ (dueIf (holdDue s) .holdTimerExpiry
    ++ (dueIf (tapeTickDue s) .tapeTimeTick ++ (dueIf (sampleIsDue s) .sampleDue
    ++ (dueIf (gainTickDue s) .gainRampTick ++ (dueIf (repeatDue s) .remoteRepeatTimeout
    ++ dueIf (focusDue s) .focusTimeLimit)))))))))))))))))))

/-- The part's own clock on an empty queue (assumption 1): 1 µs passes, and what is then due waits in the queue: the
events on their way, the end of the access the RAM performs, and the expiries. What comes about at once does so, as at
the end of every step. While the RESET pin is held only a host access ends. -/
def clockTick (s : State) : State :=
  if s.resetHeld then { s with pending := accessEnd s }
  else
    let s := passTime 1 s
    finish { s with pending := signalsDue s ++ (accessEnd s ++ timersDue s) }

end Sys2Proof.Machine
end

