-- ==== Sys2Proof/Machine/ClipEvents.lean ====
section
/-! DEFINITION. The events of the sound clips and the program gain (R158 to R166). -/

namespace Sys2Proof.Machine

/-- A class S sample word returns (R158, R159, R161, R195). -/
def execSampleWordReturned (s : State) : Result := .next (live endSampleRead s)

/-- A sample is due (R159 to R162). -/
def execSampleDue (s : State) : Result := .next (live dueSample s)

/-- A 1 ms tick of the gain ramp (R166). -/
def execGainRampTick (s : State) : Result := .next (live gainTickNow s)

end Sys2Proof.Machine
end

