-- ==== Sys2Proof/Machine/CoolingEvents.lean ====
section
/-! DEFINITION. The events of the sensors, the fan and the thermal timers (R105 to R114). -/

namespace Sys2Proof.Machine

/-- The read cycle of both sensors begins (R105). -/
def execSensorReadCycle (s : State) : Result := .next (live startReadCycle s)

/-- A sensor read ends (R105 to R107, R110 to R113, R116). -/
def execSensorReadDone (sensor : Sensor) (read : SensorRead) (s : State) : Result := .next (live (sensorDone sensor read) s)

/-- A FAN_TACH pulse (R109). -/
def execFanTach (s : State) : Result := .next (live tachPulse s)

/-- 2 s pass without a tach pulse (R109). -/
def execTachWatchExpiry (s : State) : Result := .next (live tachExpiry s)

/-- 60 s of run-on are reached (R110). -/
def execRunOnTimeReached (s : State) : Result := .next (live tryEndRunOn s)

/-- The dwell timer reaches the dwell limit (R114). -/
def execDwellLimitReached (s : State) : Result := .next (live dwellReached s)

end Sys2Proof.Machine
end

