-- ==== Sys2Proof/Machine/CueEvents.lean ====
section
/-! DEFINITION. The events of the cue track, the cue ring and the tape deck (R125 to R146). -/

namespace Sys2Proof.Machine

/-- TAPE_RUN changes: it gates the tape time and is published in QUEUE (R146). -/
def tapeRunChange (active : Bool) (s : State) : State := putDeck { s.deck with tapeRun := active } s

/-- Transitions that end an acquisition run (R126). -/
def execCarrierAcquired (edges : List CueEdge) (s : State) : Result := .next (live (cueEdges edges) s)

/-- 500 ms pass since the last valid transition (R127). -/
def execCarrierLost (s : State) : Result := .next (live loseCarrier s)

/-- Transitions that bring a frame to fail (R125, R128 to R131). -/
def execFrameError (edges : List CueEdge) (s : State) : Result := .next (live (cueEdges edges) s)

/-- A ADVANCE frame of the tape ends (R129, R130, R132 to R134); R135. -/
def execCueAdvance (frame : CueFrame) (s : State) : Result :=
  .next (live (tapeFrame (CueFrame.nibbles frame kindAdvance) frame.intervals) s)

/-- A REVERSE frame of the tape ends (R129, R130, R132 to R134); R135. -/
def execCueReverse (frame : CueFrame) (s : State) : Result :=
  .next (live (tapeFrame (CueFrame.nibbles frame kindReverse) frame.intervals) s)

/-- A GOTO frame of the tape ends (R129, R130, R132 to R134); R135. -/
def execCueGoto (frame : CueFrame) (s : State) : Result :=
  .next (live (tapeFrame (CueFrame.nibbles frame kindGoto) frame.intervals) s)

/-- A DISSOLVE frame of the tape ends (R129, R130, R132 to R134); R135. -/
def execCueDissolve (frame : CueFrame) (s : State) : Result :=
  .next (live (tapeFrame (CueFrame.nibbles frame kindDissolve) frame.intervals) s)

/-- A FADE frame of the tape ends (R129, R130, R132 to R134); R135. -/
def execCueFade (frame : CueFrame) (s : State) : Result :=
  .next (live (tapeFrame (CueFrame.nibbles frame kindFade) frame.intervals) s)

/-- A LAMP frame of the tape ends (R129, R130, R132 to R134); R135. -/
def execCueLamp (frame : CueFrame) (s : State) : Result :=
  .next (live (tapeFrame (CueFrame.nibbles frame kindLamp) frame.intervals) s)

/-- A CLIP frame of the tape ends (R129, R130, R132 to R134); R136, R152. -/
def execCueClip (frame : CueFrame) (s : State) : Result :=
  .next (live (tapeFrame (CueFrame.nibbles frame kindClip) frame.intervals) s)

/-- A CLIP_STOP frame of the tape ends (R129, R130, R132 to R134); R136, R163. -/
def execCueClipStop (frame : CueFrame) (s : State) : Result :=
  .next (live (tapeFrame (CueFrame.nibbles frame kindClipStop) frame.intervals) s)

/-- A HOLD frame of the tape ends (R129, R130, R132 to R134); R136, R144. -/
def execCueHold (frame : CueFrame) (s : State) : Result :=
  .next (live (tapeFrame (CueFrame.nibbles frame kindHold) frame.intervals) s)

/-- A MARK frame of the tape ends (R129, R130, R132 to R134); R136. -/
def execCueMark (frame : CueFrame) (s : State) : Result :=
  .next (live (tapeFrame (CueFrame.nibbles frame kindMark) frame.intervals) s)

/-- A frame of kind 0 or 11..15 ends (R129, R130, R132 to R134, R136). -/
def execCueUnknownKind (kind : Nibble) (frame : CueFrame) (s : State) : Result :=
  .next (live (tapeFrame (CueFrame.nibbles frame kind.toNat) frame.intervals) s)

/-- A word of a ring record lands (R140, R141, R195). -/
def execLogWordLanded (s : State) : Result := .next (live endLogWrite s)

/-- The hold timer runs out (R144). -/
def execHoldTimerExpiry (s : State) : Result := .next (live holdExpiry s)

/-- TAPE_RUN changes (R146). -/
def execTapeRun (active : Bool) (s : State) : Result := .next (live (tapeRunChange active) s)

/-- A 10 ms tick of the tape time (R146). -/
def execTapeTimeTick (s : State) : Result := .next (live tapeTickNow s)

/-- Transitions that start an acquisition run (R126). -/
def execAcquisitionRunStart (edges : List CueEdge) (s : State) : Result := .next (live (cueEdges edges) s)

/-- Transitions whose chips lock the aligner (R125, R128). -/
def execAlignerLock (edges : List CueEdge) (s : State) : Result := .next (live (cueEdges edges) s)

/-- Transitions whose group sends the aligner back to HUNT (R125, R128). -/
def execAlignerReturnToHunt (edges : List CueEdge) (s : State) : Result := .next (live (cueEdges edges) s)

end Sys2Proof.Machine
end

