-- ==== Sys2Proof/Machine/HeaderWrites.lean ====
section
/-! DEFINITION. The host writes of the header words, but for command triggers (R198 to R201). -/

namespace Sys2Proof.Machine

/-- A write of a header word: the access of the host, and what comes about inside the step (R185, R198). -/
def headerWrite (i : Nat) (write : LaneWrite) (s : State) : State :=
  portFinish (hostAccess (headerAddr i) (.write write) s)

/-- The host writes the IRQ_MASK (R198); R199, R208. -/
def execIrqMask (write : LaneWrite) (s : State) : Result := .next (headerWrite 4 write s)

/-- The host writes the GROUP_MASK (R198); R132, R199, R214. -/
def execGroupMask (write : LaneWrite) (s : State) : Result := .next (headerWrite 5 write s)

/-- The host writes the MODE (R198); R199, R214. -/
def execMode (write : LaneWrite) (s : State) : Result := .next (headerWrite 6 write s)

/-- The host writes the BLANK_RATE (R198); R199. -/
def execBlankRate (write : LaneWrite) (s : State) : Result := .next (headerWrite 7 write s)

/-- The host writes the FLOOR (R198); R92, R199. -/
def execFloor (write : LaneWrite) (s : State) : Result := .next (headerWrite 8 write s)

/-- The host writes the MASTER (R198); R92, R199. -/
def execMaster (write : LaneWrite) (s : State) : Result := .next (headerWrite 9 write s)

/-- The host writes the CURVE_SEL (R198); R199, R214. -/
def execCurveSel (write : LaneWrite) (s : State) : Result := .next (headerWrite 10 write s)

/-- The host writes the VOLUME (R198); R167, R199. -/
def execVolume (write : LaneWrite) (s : State) : Result := .next (headerWrite 11 write s)

/-- The host writes the DUCK (R198); R167, R199. -/
def execDuck (write : LaneWrite) (s : State) : Result := .next (headerWrite 12 write s)

/-- The host writes the TD (R198); R112, R121. -/
def execTd (write : LaneWrite) (s : State) : Result := .next (headerWrite 16 write s)

/-- The host writes the TT (R198); R116, R121. -/
def execTt (write : LaneWrite) (s : State) : Result := .next (headerWrite 17 write s)

/-- The host writes the TR (R198); R117, R121. -/
def execTr (write : LaneWrite) (s : State) : Result := .next (headerWrite 18 write s)

/-- The host writes the GATE_LIMIT (R198); R113, R121. -/
def execGateLimit (write : LaneWrite) (s : State) : Result := .next (headerWrite 19 write s)

/-- The host writes the PC (R198); R114, R115, R121. -/
def execPc (write : LaneWrite) (s : State) : Result := .next (headerWrite 20 write s)

/-- The host writes the DWELL_LIMIT (R198); R114, R121. -/
def execDwellLimit (write : LaneWrite) (s : State) : Result := .next (headerWrite 21 write s)

/-- The host writes the SLOT_BASE high word (R198); R67, R189, R200. -/
def execSlotBase (write : LaneWrite) (s : State) : Result := .next (headerWrite 25 write s)

/-- The host writes the CLIP_BASE high word (R198); R67, R189, R200. -/
def execClipBase (write : LaneWrite) (s : State) : Result := .next (headerWrite 27 write s)

/-- The host writes the CURVE_BASE high word (R198); R99, R189, R200. -/
def execCurveBase (write : LaneWrite) (s : State) : Result := .next (headerWrite 29 write s)

/-- The host writes the RING_BASE high word (R198); R142, R187, R189, R200. -/
def execRingBase (write : LaneWrite) (s : State) : Result := .next (headerWrite 31 write s)

/-- The host writes the RING_SIZE (R198); R142, R190, R199. -/
def execRingSize (write : LaneWrite) (s : State) : Result := .next (headerWrite 32 write s)

/-- The host writes the RING_RD (R198); R141, R199. -/
def execRingRd (write : LaneWrite) (s : State) : Result := .next (headerWrite 33 write s)

/-- The host writes the CUE_OPTIONS (R198); R145, R147, R199. -/
def execCueOptions (write : LaneWrite) (s : State) : Result := .next (headerWrite 34 write s)

/-- The host writes the REMOTE_OPTIONS (R198); R173, R176, R179, R214. -/
def execRemoteOptions (write : LaneWrite) (s : State) : Result := .next (headerWrite 35 write s)

/-- The host writes the LIFE_LIMIT (R198); R101, R199. -/
def execLifeLimit (write : LaneWrite) (s : State) : Result := .next (headerWrite 36 write s)

/-- The host writes P1, P2, P3, the tag lane of CMD, a base low word or an unused header word (R198, R200, R202). -/
def execHeaderWriteOther (word : BitVec 6) (write : LaneWrite) (s : State) : Result := .next (headerWrite word.toNat write s)

end Sys2Proof.Machine
end

