-- ==== Sys2Proof/Machine/HostAccesses.lean ====
section
/-! DEFINITION. The other accesses of the host and the landings of the writes of the part (R185 to R188, R201, R206). -/

namespace Sys2Proof.Machine

/-- The word address of STATUS, 0x00080 (11.2). -/
def statusAddr : WordAddr := 64

/-- The word address of EVENTS, 0x00084 (11.2). -/
def eventsAddr : WordAddr := 66

/-- The host writes outside the header and the protected areas (R186, R64, R96), or, as an access that no row of the
table names, reads a word other than STATUS and EVENTS (R185, assumption 55): the read waits with WAIT active, uses the
RAM and returns its word as any other, and gives no notice (R188). -/
def execHostWriteWatched (addr : WordAddr) (kind : HostKind) (s : State) : Result :=
  .next (portFinish (hostAccess addr kind s))

/-- The host writes into the Status Block or the cue ring area (R187). -/
def execHostWriteProtected (addr : WordAddr) (write : LaneWrite) (s : State) : Result := .next (portFinish (hostAccess addr (.write write) s))

/-- The host reads the STATUS word (R188); its notice comes at the end of the access (R209). -/
def execStatusRead (s : State) : Result := .next (portFinish (hostAccess statusAddr .read s))

/-- The host reads the EVENTS word (R188); its notice comes at the end of the access (R209). -/
def execEventsRead (s : State) : Result := .next (portFinish (hostAccess eventsAddr .read s))

/-- The access of the host ends (R185, R188). -/
def execHostAccessEnd (s : State) : Result := .next (portFinish (endHostAccess s))

/-- A Status Block write lands (R203 to R206, R208, R210). -/
def execStatusBlockWriteLanded (s : State) : Result := .next (live endStatusWrite s)

/-- A corrective header write lands (R201). -/
def execCorrectionLanded (s : State) : Result := .next (live endCorrection s)

end Sys2Proof.Machine
end

