-- ==== Sys2Proof/Machine/HostCommands.lean ====
section
/-! DEFINITION. The host commands: the writes of CMD that are triggers, one for each command code (R202, R203). -/

namespace Sys2Proof.Machine

/-- A write of CMD with a code: the access of the host, and what comes about inside the step (R185, R198, R202). -/
def commandWrite (code : Byte) (store : CmdStore) (s : State) : State :=
  portFinish (hostAccess (headerAddr 0) (.write (CmdStore.write store code)) s)

/-- The host writes the NOP command, which is accepted into a FREE command record, or rejected (R202); R203. -/
def execNop (store : CmdStore) (s : State) : Result := .next (commandWrite codeNop store s)

/-- The host writes the ADVANCE command, which is accepted into a FREE command record, or rejected (R202); R6, R203.
-/
def execAdvance (store : CmdStore) (s : State) : Result := .next (commandWrite codeAdvance store s)

/-- The host writes the REVERSE command, which is accepted into a FREE command record, or rejected (R202); R6, R203.
-/
def execReverse (store : CmdStore) (s : State) : Result := .next (commandWrite codeReverse store s)

/-- The host writes the GOTO command, which is accepted into a FREE command record, or rejected (R202); R6, R203. -/
def execGoto (store : CmdStore) (s : State) : Result := .next (commandWrite codeGoto store s)

/-- The host writes the CLEAR_JAM command, which is accepted into a FREE command record, or rejected (R202); R6, R13,
R203. -/
def execClearJam (store : CmdStore) (s : State) : Result := .next (commandWrite codeClearJam store s)

/-- The host writes the DISSOLVE command, which is accepted into a FREE command record, or rejected (R202); R6, R14,
R15, R203. -/
def execDissolve (store : CmdStore) (s : State) : Result := .next (commandWrite codeDissolve store s)

/-- The host writes the FADE command, which is accepted into a FREE command record, or rejected (R202); R6, R16, R203.
-/
def execFade (store : CmdStore) (s : State) : Result := .next (commandWrite codeFade store s)

/-- The host writes the LAMP command, which is accepted into a FREE command record, or rejected (R202); R6, R17, R19,
R203. -/
def execLamp (store : CmdStore) (s : State) : Result := .next (commandWrite codeLamp store s)

/-- The host writes the APPLY command, which is accepted into a FREE command record, or rejected (R202); R94, R98,
R203. -/
def execApply (store : CmdStore) (s : State) : Result := .next (commandWrite codeApply store s)

/-- The host writes the LAMP_MINUTES command, which is accepted into a FREE command record, or rejected (R202); R101,
R203. -/
def execLampMinutes (store : CmdStore) (s : State) : Result := .next (commandWrite codeLampMinutes store s)

/-- The host writes the CLIP command, which is accepted into a FREE command record, or rejected (R202); R152, R203. -/
def execClip (store : CmdStore) (s : State) : Result := .next (commandWrite codeClip store s)

/-- The host writes the CLIP_STOP command, which is accepted into a FREE command record, or rejected (R202); R163,
R203. -/
def execClipStop (store : CmdStore) (s : State) : Result := .next (commandWrite codeClipStop store s)

/-- The host writes the HOLD command, which is accepted into a FREE command record, or rejected (R202); R143, R203. -/
def execHold (store : CmdStore) (s : State) : Result := .next (commandWrite codeHold store s)

/-- The host writes the RELEASE command, which is accepted into a FREE command record, or rejected (R202); R143, R203.
-/
def execRelease (store : CmdStore) (s : State) : Result := .next (commandWrite codeRelease store s)

/-- The host writes the INJECT command, which is accepted into a FREE command record, or rejected (R202); R137, R203.
-/
def execInject (store : CmdStore) (s : State) : Result := .next (commandWrite codeInject store s)

/-- The host writes the FOCUS command, which is accepted into a FREE command record, or rejected (R202); R182, R203.
-/
def execFocus (store : CmdStore) (s : State) : Result := .next (commandWrite codeFocus store s)

/-- The host writes the STOP command, which acts at the trigger (R202); R20, R21, R205. -/
def execStop (store : CmdStore) (s : State) : Result := .next (commandWrite codeStop store s)

/-- The host writes the RESET command, which acts at the trigger (R202); R205, R211. -/
def execReset (store : CmdStore) (s : State) : Result := .next (commandWrite codeReset store s)

/-- The host writes the STANDBY command, which is accepted into a FREE command record, or rejected (R202); R212, R203.
-/
def execStandby (store : CmdStore) (s : State) : Result := .next (commandWrite codeStandby store s)

/-- The host writes the WAKE command, which is accepted into a FREE command record, or rejected (R202); R213, R203. -/
def execWake (store : CmdStore) (s : State) : Result := .next (commandWrite codeWake store s)

/-- The host writes a command with a code outside the table of R203, which ends bad_command when taken (R202, R203).
-/
def execBadCommand (code : Byte) (store : CmdStore) (s : State) : Result := .next (commandWrite code store s)

end Sys2Proof.Machine
end

