-- ==== Sys2Proof/Machine/KeyEvents.lean ====
section
/-! DEFINITION. The events of the hand remote, the panel keys and the focus motor (R172 to R182). -/

namespace Sys2Proof.Machine

/-- FWD on the hand remote or the panel (R173 to R176); R177. -/
def execKeyFwd (press : Press) (s : State) : Result := .next (live (keyPress .fwd press) s)

/-- REV on the hand remote or the panel (R173 to R176); R177. -/
def execKeyRev (press : Press) (s : State) : Result := .next (live (keyPress .rev press) s)

/-- A DISSOLVE frame of the hand remote ends (R173, R174, R176); R178. -/
def execKeyDissolve (frame : RemoteFrame) (s : State) : Result := .next (live (remoteFrameIn keyCodeDissolve frame) s)

/-- LAMP on the hand remote or the panel (R173 to R176); R178, R179. -/
def execKeyLamp (press : Press) (s : State) : Result := .next (live (keyPress .lamp press) s)

/-- A STOP frame of the hand remote ends (R173, R174, R176); R20, R21, R182. -/
def execKeyStop (frame : RemoteFrame) (s : State) : Result := .next (live (remoteFrameIn keyCodeStop frame) s)

/-- A HOLD frame of the hand remote ends (R173, R174, R176); R143. -/
def execKeyHold (frame : RemoteFrame) (s : State) : Result := .next (live (remoteFrameIn keyCodeHold frame) s)

/-- A RELEASE frame of the hand remote ends (R173, R174, R176); R143. -/
def execKeyRelease (frame : RemoteFrame) (s : State) : Result := .next (live (remoteFrameIn keyCodeRelease frame) s)

/-- FOCUS_IN on the hand remote or the panel (R173 to R176); R180, R181. -/
def execKeyFocusIn (press : Press) (s : State) : Result := .next (live (keyPress .focusIn press) s)

/-- FOCUS_OUT on the hand remote or the panel (R173 to R176); R180, R181. -/
def execKeyFocusOut (press : Press) (s : State) : Result := .next (live (keyPress .focusOut press) s)

/-- A CLIP0..CLIP3 frame of the hand remote ends (R173, R174, R176); R152. -/
def execKeyClip (number : BitVec 2) (frame : RemoteFrame) (s : State) : Result := .next (live (remoteFrameIn (keyCodeClip + number.toNat) frame) s)

/-- A frame with a key outside the table ends (R173, R176). -/
def execKeyOther (key : BitVec 6) (frame : RemoteFrame) (s : State) : Result := .next (live (remoteFrameIn key.toNat frame) s)

/-- A panel key is let go (R175, R180). -/
def execPanelKeyRelease (key : PanelKey) (inactiveFor : Nat) (s : State) : Result := .next (live (panelUp key inactiveFor) s)

/-- 250 ms pass without a repeat (R180). -/
def execRemoteRepeatTimeout (s : State) : Result := .next (live repeatExpiry s)

/-- A focus run reaches its time limit (R180, R182). -/
def execFocusTimeLimit (s : State) : Result := .next (live focusExpiry s)

/-- FOCUS_STALL becomes active (R180, R182). -/
def execFocusStall (s : State) : Result := .next (live stallFocus s)

/-- Marks and spaces on REMOTE_IN, up to the one that abandons a frame (R172). -/
def execRemoteFrameAbandoned (elements : List LineElement) (s : State) : Result := .next (live (lineElements elements) s)

end Sys2Proof.Machine
end

