-- ==== Sys2Proof/Machine/LampEvents.lean ====
section
/-! DEFINITION. The events of the mains, the lamp, the ramp generator and the curves (R73 to R101). -/

namespace Sys2Proof.Machine

/-- A mains crossing arrives (R73, R74, R78 to R86). -/
def execZeroCross (s : State) : Result := .next (live crossing s)

/-- 15,000 µs pass without an accepted crossing (R74). -/
def execMainsLoss (s : State) : Result := .next (live loseMains s)

/-- A substitute half-cycle event (R74, R78 to R86). -/
def execSubstituteHalfCycle (s : State) : Result := .next (live substitute s)

/-- A ramp completion event reaches its requester, and its off mark the lamp (R78, R91). -/
def execRampComplete (s : State) : Result := .next (live rampArrives s)

/-- The firing delay passes and LAMP_FIRE is pulsed (R83, R89). -/
def execLampFiring (s : State) : Result := .next (live fireLamp s)

/-- LAMP_CURRENT is seen active (R89). -/
def execLampCurrent (s : State) : Result := .next (live lampCurrentSeen s)

/-- The warming count has reached 20 hpt (R88): the lamp is ON, and a LAMP on that waits for it ends ok at once (R17).
The half-cycle that completes the count has this effect itself (assumption 13). -/
def execWarmingComplete (s : State) : Result := .next (live warmedUp s)

/-- The apply record takes effect with no load in flight (R94). -/
def execApplyTakesEffect (s : State) : Result := .next (live applyWithoutLoad s)

/-- A class F curve word returns to the Curve Loader (R95, R195). -/
def execCurveWordReturned (s : State) : Result := .next (live endCurveRead s)

/-- The banks swap after a complete load (R97). -/
def execCurveSwap (s : State) : Result := .next (live curveSwapNow s)

/-- The milliseconds count of a lit lamp passes 59,999 (R100, R101). -/
def execLampMinuteTick (s : State) : Result := .next (live minuteTick s)

end Sys2Proof.Machine
end

