-- ==== Sys2Proof/Machine/PinCommands.lean ====
section
/-! DEFINITION. The two commands of the RESET pin (R196, R210). -/

namespace Sys2Proof.Machine

/-- The RESET pin is asserted (R196). -/
def execResetPinAssert (s : State) : Result := .next (portFinish (assertReset s))

/-- The RESET pin is released (R210): every block has its reset values, and the initial Status Block pass begins. -/
def execResetPinRelease (pins : ResetPins) (s : State) : Result := .next (finish (releaseReset pins s))

end Sys2Proof.Machine
end

