-- ==== Sys2Proof/Machine/TrayEvents.lean ====
section
/-! DEFINITION. The dark event, and the events of the tray mechanism and the record fetches (R9, R27 to R51, R60). -/

namespace Sys2Proof.Machine

/-- The dark event of the opened window reaches the executor (R9, R86). -/
def execDarkEvent (s : State) : Result := .next (live darkArrives s)

/-- ARM_TOP changes (R27, R35, R36). -/
def execArmTop (active : Bool) (s : State) : Result := .next (live (armTopChange active) s)

/-- ARM_BOTTOM changes, with GATE_SENSE as a drop reads it (R27, R35, R36, R39, R44). -/
def execArmBottom (active slideSeen : Bool) (s : State) : Result := .next (live (armBottomChange active slideSeen) s)

/-- 800 ms of a lift pass (R35, R36). -/
def execLiftTimeout (s : State) : Result := .next (live liftExpiry s)

/-- 600 ms of a lowering pass (R35, R36). -/
def execLowerTimeout (s : State) : Result := .next (live lowerExpiry s)

/-- An INDEX pulse, with HOME as it stands (R28, R35, R37, R38). -/
def execIndexPulse (home : Bool) (s : State) : Result := .next (live (indexPulseSeen home) s)

/-- 400 ms pass without an INDEX pulse (R35, R37). -/
def execRotateTimeout (s : State) : Result := .next (live rotateExpiry s)

/-- 600 ms of a drop pass (R35, R39). -/
def execDropTimeout (s : State) : Result := .next (live dropExpiry s)

/-- 150 ms of settling pass (R35, R40, R41). -/
def execSettleEnd (s : State) : Result := .next (live settleExpiry s)

/-- 800 ms of a recovery pass (R44). -/
def execRecoverTimeout (s : State) : Result := .next (live recoverExpiry s)

/-- TRAY_PRESENT goes inactive (R47). -/
def execTrayRemoved (s : State) : Result := .next (live removeTray s)

/-- TRAY_PRESENT goes active, with TRAY_TYPE as it stands (R48). -/
def execTraySeated (tray96 : Bool) (s : State) : Result := .next (live (seatTray tray96) s)

/-- A class F record word returns to the Record Shadow (R59, R60, R195). -/
def execRecordWordReturned (s : State) : Result := .next (live endRecordRead s)

end Sys2Proof.Machine
end

