-- ==== Sys2Proof/Machine/Dispatch.lean ====
section
/-! DEFINITION. One arm per command: exec. -/

namespace Sys2Proof.Machine

/-- The effect of a command on everything but the queue. -/
def exec (i : Instr) (s : State) : Host.Outcome State Fault Refusal :=
  match i with
  | .resetPinAssert => Sys2Proof.Machine.execResetPinAssert s
  | .resetPinRelease pins => Sys2Proof.Machine.execResetPinRelease pins s
  | .nop store => Sys2Proof.Machine.execNop store s
  | .advance store => Sys2Proof.Machine.execAdvance store s
  | .reverse store => Sys2Proof.Machine.execReverse store s
  | .goto store => Sys2Proof.Machine.execGoto store s
  | .clearJam store => Sys2Proof.Machine.execClearJam store s
  | .dissolve store => Sys2Proof.Machine.execDissolve store s
  | .fade store => Sys2Proof.Machine.execFade store s
  | .lamp store => Sys2Proof.Machine.execLamp store s
  | .apply store => Sys2Proof.Machine.execApply store s
  | .lampMinutes store => Sys2Proof.Machine.execLampMinutes store s
  | .clip store => Sys2Proof.Machine.execClip store s
  | .clipStop store => Sys2Proof.Machine.execClipStop store s
  | .hold store => Sys2Proof.Machine.execHold store s
  | .release store => Sys2Proof.Machine.execRelease store s
  | .inject store => Sys2Proof.Machine.execInject store s
  | .focus store => Sys2Proof.Machine.execFocus store s
  | .stop store => Sys2Proof.Machine.execStop store s
  | .reset store => Sys2Proof.Machine.execReset store s
  | .standby store => Sys2Proof.Machine.execStandby store s
  | .wake store => Sys2Proof.Machine.execWake store s
  | .badCommand code store => Sys2Proof.Machine.execBadCommand code store s
  | .irqMask write => Sys2Proof.Machine.execIrqMask write s
  | .groupMask write => Sys2Proof.Machine.execGroupMask write s
  | .mode write => Sys2Proof.Machine.execMode write s
  | .blankRate write => Sys2Proof.Machine.execBlankRate write s
  | .floor write => Sys2Proof.Machine.execFloor write s
  | .master write => Sys2Proof.Machine.execMaster write s
  | .curveSel write => Sys2Proof.Machine.execCurveSel write s
  | .volume write => Sys2Proof.Machine.execVolume write s
  | .duck write => Sys2Proof.Machine.execDuck write s
  | .td write => Sys2Proof.Machine.execTd write s
  | .tt write => Sys2Proof.Machine.execTt write s
  | .tr write => Sys2Proof.Machine.execTr write s
  | .gateLimit write => Sys2Proof.Machine.execGateLimit write s
  | .pc write => Sys2Proof.Machine.execPc write s
  | .dwellLimit write => Sys2Proof.Machine.execDwellLimit write s
  | .slotBase write => Sys2Proof.Machine.execSlotBase write s
  | .clipBase write => Sys2Proof.Machine.execClipBase write s
  | .curveBase write => Sys2Proof.Machine.execCurveBase write s
  | .ringBase write => Sys2Proof.Machine.execRingBase write s
  | .ringSize write => Sys2Proof.Machine.execRingSize write s
  | .ringRd write => Sys2Proof.Machine.execRingRd write s
  | .cueOptions write => Sys2Proof.Machine.execCueOptions write s
  | .remoteOptions write => Sys2Proof.Machine.execRemoteOptions write s
  | .lifeLimit write => Sys2Proof.Machine.execLifeLimit write s
  | .headerWriteOther word write => Sys2Proof.Machine.execHeaderWriteOther word write s
  | .hostWriteWatched addr kind => Sys2Proof.Machine.execHostWriteWatched addr kind s
  | .hostWriteProtected addr write => Sys2Proof.Machine.execHostWriteProtected addr write s
  | .statusRead => Sys2Proof.Machine.execStatusRead s
  | .eventsRead => Sys2Proof.Machine.execEventsRead s
  | .hostAccessEnd => Sys2Proof.Machine.execHostAccessEnd s
  | .statusBlockWriteLanded => Sys2Proof.Machine.execStatusBlockWriteLanded s
  | .correctionLanded => Sys2Proof.Machine.execCorrectionLanded s
  | .darkEvent => Sys2Proof.Machine.execDarkEvent s
  | .armTop active => Sys2Proof.Machine.execArmTop active s
  | .armBottom active slideSeen => Sys2Proof.Machine.execArmBottom active slideSeen s
  | .liftTimeout => Sys2Proof.Machine.execLiftTimeout s
  | .lowerTimeout => Sys2Proof.Machine.execLowerTimeout s
  | .indexPulse home => Sys2Proof.Machine.execIndexPulse home s
  | .rotateTimeout => Sys2Proof.Machine.execRotateTimeout s
  | .dropTimeout => Sys2Proof.Machine.execDropTimeout s
  | .settleEnd => Sys2Proof.Machine.execSettleEnd s
  | .recoverTimeout => Sys2Proof.Machine.execRecoverTimeout s
  | .trayRemoved => Sys2Proof.Machine.execTrayRemoved s
  | .traySeated tray96 => Sys2Proof.Machine.execTraySeated tray96 s
  | .recordWordReturned => Sys2Proof.Machine.execRecordWordReturned s
  | .zeroCross => Sys2Proof.Machine.execZeroCross s
  | .mainsLoss => Sys2Proof.Machine.execMainsLoss s
  | .substituteHalfCycle => Sys2Proof.Machine.execSubstituteHalfCycle s
  | .rampComplete => Sys2Proof.Machine.execRampComplete s
  | .lampFiring => Sys2Proof.Machine.execLampFiring s
  | .lampCurrent => Sys2Proof.Machine.execLampCurrent s
  | .warmingComplete => Sys2Proof.Machine.execWarmingComplete s
  | .applyTakesEffect => Sys2Proof.Machine.execApplyTakesEffect s
  | .curveWordReturned => Sys2Proof.Machine.execCurveWordReturned s
  | .curveSwap => Sys2Proof.Machine.execCurveSwap s
  | .lampMinuteTick => Sys2Proof.Machine.execLampMinuteTick s
  | .sensorReadCycle => Sys2Proof.Machine.execSensorReadCycle s
  | .sensorReadDone sensor read => Sys2Proof.Machine.execSensorReadDone sensor read s
  | .fanTach => Sys2Proof.Machine.execFanTach s
  | .tachWatchExpiry => Sys2Proof.Machine.execTachWatchExpiry s
  | .runOnTimeReached => Sys2Proof.Machine.execRunOnTimeReached s
  | .dwellLimitReached => Sys2Proof.Machine.execDwellLimitReached s
  | .carrierAcquired edges => Sys2Proof.Machine.execCarrierAcquired edges s
  | .carrierLost => Sys2Proof.Machine.execCarrierLost s
  | .frameError edges => Sys2Proof.Machine.execFrameError edges s
  | .cueAdvance frame => Sys2Proof.Machine.execCueAdvance frame s
  | .cueReverse frame => Sys2Proof.Machine.execCueReverse frame s
  | .cueGoto frame => Sys2Proof.Machine.execCueGoto frame s
  | .cueDissolve frame => Sys2Proof.Machine.execCueDissolve frame s
  | .cueFade frame => Sys2Proof.Machine.execCueFade frame s
  | .cueLamp frame => Sys2Proof.Machine.execCueLamp frame s
  | .cueClip frame => Sys2Proof.Machine.execCueClip frame s
  | .cueClipStop frame => Sys2Proof.Machine.execCueClipStop frame s
  | .cueHold frame => Sys2Proof.Machine.execCueHold frame s
  | .cueMark frame => Sys2Proof.Machine.execCueMark frame s
  | .cueUnknownKind kind frame => Sys2Proof.Machine.execCueUnknownKind kind frame s
  | .logWordLanded => Sys2Proof.Machine.execLogWordLanded s
  | .holdTimerExpiry => Sys2Proof.Machine.execHoldTimerExpiry s
  | .tapeRun active => Sys2Proof.Machine.execTapeRun active s
  | .tapeTimeTick => Sys2Proof.Machine.execTapeTimeTick s
  | .sampleWordReturned => Sys2Proof.Machine.execSampleWordReturned s
  | .sampleDue => Sys2Proof.Machine.execSampleDue s
  | .gainRampTick => Sys2Proof.Machine.execGainRampTick s
  | .keyFwd press => Sys2Proof.Machine.execKeyFwd press s
  | .keyRev press => Sys2Proof.Machine.execKeyRev press s
  | .keyDissolve frame => Sys2Proof.Machine.execKeyDissolve frame s
  | .keyLamp press => Sys2Proof.Machine.execKeyLamp press s
  | .keyStop frame => Sys2Proof.Machine.execKeyStop frame s
  | .keyHold frame => Sys2Proof.Machine.execKeyHold frame s
  | .keyRelease frame => Sys2Proof.Machine.execKeyRelease frame s
  | .keyFocusIn press => Sys2Proof.Machine.execKeyFocusIn press s
  | .keyFocusOut press => Sys2Proof.Machine.execKeyFocusOut press s
  | .keyClip number frame => Sys2Proof.Machine.execKeyClip number frame s
  | .keyOther key frame => Sys2Proof.Machine.execKeyOther key frame s
  | .panelKeyRelease key inactiveFor => Sys2Proof.Machine.execPanelKeyRelease key inactiveFor s
  | .remoteRepeatTimeout => Sys2Proof.Machine.execRemoteRepeatTimeout s
  | .focusTimeLimit => Sys2Proof.Machine.execFocusTimeLimit s
  | .focusStall => Sys2Proof.Machine.execFocusStall s
  | .acquisitionRunStart edges => Sys2Proof.Machine.execAcquisitionRunStart edges s
  | .alignerLock edges => Sys2Proof.Machine.execAlignerLock edges s
  | .alignerReturnToHunt edges => Sys2Proof.Machine.execAlignerReturnToHunt edges s
  | .remoteFrameAbandoned elements => Sys2Proof.Machine.execRemoteFrameAbandoned elements s

end Sys2Proof.Machine
end

