-- ==== Sys2Proof/WellFormed.lean ====
section
/-! DEFINITION. The well-formed commands: what each row of the opcode table says of its operands. The part itself takes
every command as it comes, whatever its operands; these checks say when a command is the one its row names. -/

namespace Sys2Proof

/-- The header words that rows of their own name: the settings, the high words of the bases, RING_SIZE to LIFE_LIMIT
(11.1). -/
def settingWords : List Nat :=
  [4, 5, 6, 7, 8, 9, 10, 11, 12, 16, 17, 18, 19, 20, 21, 25, 27, 29, 31, 32, 33, 34, 35, 36]

/-- A write that HEADER_WRITE_OTHER names: a word of the header that no other row writes, or the tag lane of CMD, which
triggers nothing (R202). -/
def otherHeaderWrite (word : BitVec 6) (write : LaneWrite) : Bool :=
  if word = 0 then !Machine.LaneWrite.storesLow write else !settingWords.contains word.toNat

/-- A frame whose check nibbles are right (R130). -/
def frameChecks (kind : Nat) (fr : CueFrame) : Bool :=
  decide (16 * fr.c1.toNat + fr.c0.toNat
    = Machine.cueCheck fr.u.toNat kind fr.p2.toNat fr.p1.toNat fr.p0.toNat)

/-- A frame as its row names it: its check nibbles are right, and each run of one tone in it ends with a transition, some
time after the one before (R125). -/
def frameOk (kind : Nat) (fr : CueFrame) : Bool :=
  frameChecks kind fr && decide (fr.intervals.length = Machine.toneRuns (Machine.CueFrame.chips fr kind))
    && fr.intervals.all (fun i => decide (0 < i))

/-- A kind outside the table of R134: 0 and 11 to 15. -/
def unknownKind (kind : Nibble) : Bool := decide (kind = 0) || decide (11 ≤ kind.toNat)

/-- Transitions: at least one, each some time after the one before. -/
def edgesOk (edges : List CueEdge) : Bool := !edges.isEmpty && edges.all (fun e => decide (0 < e.interval))

/-- Elements of REMOTE_IN: at least one. -/
def elementsOk (elements : List LineElement) : Bool := !elements.isEmpty

/-- A panel key's press has lasted long enough to be one (R175). -/
def pressOk : Press → Bool
  | .remote _ => true
  | .panel activeFor => decide (Config.debounceTime ≤ activeFor)

/-- The accesses HOST_WRITE_WATCHED carries: a write outside the header and the Status Block, or a read of a word whose
reads have no row of their own (R185, assumption 55). -/
def watchedOk (addr : WordAddr) : HostKind → Bool
  | .read => decide (addr.toNat ≠ 64) && decide (addr.toNat ≠ 66)
  | .write _ => decide (128 ≤ addr.toNat)

/-- Whether a command's operands are those its row names. -/
def Instr.wf : Instr → Bool
  | .resetPinAssert => true
  | .resetPinRelease pins => !(pins.armTop && pins.armBottom)
  | .nop _ => true
  | .advance _ => true
  | .reverse _ => true
  | .goto _ => true
  | .clearJam _ => true
  | .dissolve _ => true
  | .fade _ => true
  | .lamp _ => true
  | .apply _ => true
  | .lampMinutes _ => true
  | .clip _ => true
  | .clipStop _ => true
  | .hold _ => true
  | .release _ => true
  | .inject _ => true
  | .focus _ => true
  | .stop _ => true
  | .reset _ => true
  | .standby _ => true
  | .wake _ => true
  | .badCommand code _ => !Machine.definedCodes.contains code
  | .irqMask _ => true
  | .groupMask _ => true
  | .mode _ => true
  | .blankRate _ => true
  | .floor _ => true
  | .master _ => true
  | .curveSel _ => true
  | .volume _ => true
  | .duck _ => true
  | .td _ => true
  | .tt _ => true
  | .tr _ => true
  | .gateLimit _ => true
  | .pc _ => true
  | .dwellLimit _ => true
  | .slotBase _ => true
  | .clipBase _ => true
  | .curveBase _ => true
  | .ringBase _ => true
  | .ringSize _ => true
  | .ringRd _ => true
  | .cueOptions _ => true
  | .remoteOptions _ => true
  | .lifeLimit _ => true
  | .headerWriteOther word write => otherHeaderWrite word write
  | .hostWriteWatched addr kind => watchedOk addr kind
  | .hostWriteProtected addr _ => decide (64 ≤ addr.toNat)
  | .statusRead => true
  | .eventsRead => true
  | .hostAccessEnd => true
  | .statusBlockWriteLanded => true
  | .correctionLanded => true
  | .darkEvent => true
  | .armTop _ => true
  | .armBottom _ _ => true
  | .liftTimeout => true
  | .lowerTimeout => true
  | .indexPulse _ => true
  | .rotateTimeout => true
  | .dropTimeout => true
  | .settleEnd => true
  | .recoverTimeout => true
  | .trayRemoved => true
  | .traySeated _ => true
  | .recordWordReturned => true
  | .zeroCross => true
  | .mainsLoss => true
  | .substituteHalfCycle => true
  | .rampComplete => true
  | .lampFiring => true
  | .lampCurrent => true
  | .warmingComplete => true
  | .applyTakesEffect => true
  | .curveWordReturned => true
  | .curveSwap => true
  | .lampMinuteTick => true
  | .sensorReadCycle => true
  | .sensorReadDone _ _ => true
  | .fanTach => true
  | .tachWatchExpiry => true
  | .runOnTimeReached => true
  | .dwellLimitReached => true
  | .carrierAcquired edges => edgesOk edges
  | .carrierLost => true
  | .frameError edges => edgesOk edges
  | .cueAdvance fr => frameOk Machine.kindAdvance fr
  | .cueReverse fr => frameOk Machine.kindReverse fr
  | .cueGoto fr => frameOk Machine.kindGoto fr
  | .cueDissolve fr => frameOk Machine.kindDissolve fr
  | .cueFade fr => frameOk Machine.kindFade fr
  | .cueLamp fr => frameOk Machine.kindLamp fr
  | .cueClip fr => frameOk Machine.kindClip fr
  | .cueClipStop fr => frameOk Machine.kindClipStop fr
  | .cueHold fr => frameOk Machine.kindHold fr
  | .cueMark fr => frameOk Machine.kindMark fr
  | .cueUnknownKind kind fr => unknownKind kind && frameOk kind.toNat fr
  | .logWordLanded => true
  | .holdTimerExpiry => true
  | .tapeRun _ => true
  | .tapeTimeTick => true
  | .sampleWordReturned => true
  | .sampleDue => true
  | .gainRampTick => true
  | .keyFwd press => pressOk press
  | .keyRev press => pressOk press
  | .keyDissolve _ => true
  | .keyLamp press => pressOk press
  | .keyStop _ => true
  | .keyHold _ => true
  | .keyRelease _ => true
  | .keyFocusIn press => pressOk press
  | .keyFocusOut press => pressOk press
  | .keyClip _ _ => true
  | .keyOther key _ => !Machine.keyCodes.contains key.toNat
  | .panelKeyRelease _ inactiveFor => decide (Config.debounceTime ≤ inactiveFor)
  | .remoteRepeatTimeout => true
  | .focusTimeLimit => true
  | .focusStall => true
  | .acquisitionRunStart edges => edgesOk edges
  | .alignerLock edges => edgesOk edges
  | .alignerReturnToHunt edges => edgesOk edges
  | .remoteFrameAbandoned elements => elementsOk elements

end Sys2Proof
end

