-- ==== Sys2Proof/Safety.lean ====
section
/-! DEFINITION. What the statements about the machine speak of: the state without the traffic on the RAM, the states in
which nothing else comes about with a command, the outcome of a host write of the header, and the invariants. -/

namespace Sys2Proof.Machine

/-! ## The state without the traffic on the RAM -/

/-- The state but for the traffic on the RAM, which goes on beside every command: the Memory Port, the set of Status
Block words that wait to be written, and whether the Clip Player has a sample word on its way. Two states with one body
agree in every register, image, setting, table, queue, latch and timer, in the words of the Status Block as last written,
in every byte of memory, and in the commands that wait. -/
def State.body (s : State) : State :=
  { s with
    port := State.reset.port
    sw := { s.sw with dirty := [] }
    clip := { s.clip with inFlight := false } }

/-- Whether a Status Block word waits to be written with what it now reads: it is dirty, or requested, or in the RAM with
the word composed from the present state (R206). -/
def State.owes (s : State) (i : Nat) : Bool :=
  s.sw.dirty.contains i || decide (s.port.reqs.statusWriter = some i) ||
    (match s.port.ram with
     | some a => decide (a.who = .statusWriter) && decide (a.addr = statusBlockAddr + 2 * i)
         && decide (a.data = compose s i)
     | none => false)

/-! ## States in which nothing else comes about -/

/-- The Log Writer has nothing to take: no ring is set, or it is writing, or nothing is staged. -/
abbrev logQuiet (s : State) : Prop :=
  s.hdr.settings.ringBase = 0 ∨ s.log.writing.isSome = true ∨ s.log.staging = []

/-- Nothing comes about at once: the executor waits, the Log Writer has nothing to take, and no access of the host waits
for the RAM. -/
abbrev Settled (s : State) : Prop :=
  s.resetHeld = false ∧ executorStep s = none ∧ logQuiet s ∧ s.port.hostWaits = false

/-- A settled part whose RAM is free and whose port would grant an access of the host at once: no other access of the
host is held, the Clip Player has no word to ask for, and the guard count is below 8 (R192, R193). -/
abbrev HostReady (s : State) : Prop :=
  s.resetHeld = false ∧ executorStep s = none ∧ logQuiet s ∧ s.port.access = none ∧ s.port.ram = none
    ∧ s.port.reqs.clipPlayer = none ∧ s.clip.wantsWord = false ∧ s.port.guard < 8

/-- A command answers a next state, and that has the body of u. -/
def Ends (c : Instr) (s u : State) : Prop := ∃ t, exec c s = .next t ∧ t.body = u.body

/-- A command answers a next state with the body of u, and in it the host's access is the one in the RAM (R185). -/
def Granted (c : Instr) (s u : State) : Prop :=
  ∃ t, exec c s = .next t ∧ t.body = u.body ∧ t.port.ram.map (·.who) = some .host
    ∧ t.port.access.map (·.inRam) = some true

/-- A command answers a next state with the body of u, in which the host's access has ended and its last read has
returned this word (R185). -/
def Returns (c : Instr) (s u : State) (w : Word) : Prop :=
  ∃ t, exec c s = .next t ∧ t.body = u.body ∧ t.port.access = none ∧ t.port.readData = w

/-! ## Changes that several statements name -/

/-- An event latched (R207). -/
def State.latched (e : Event) (s : State) : State :=
  { s with sw := { s.sw with latches := s.sw.latches ||| BitVec.twoPow 16 e.bit } }

/-- The record's command ended (R204): the record is CLOSING, and its three result words wait to be written. -/
def State.ended (code : ResultCode) (remaining lastSlot : Nat) (s : State) : State :=
  let r := s.hdr.record
  { s with
    hdr := { s.hdr with record := { r with state := .closing, handed := true, toLand := [3, 4, 5] } }
    sw := { s.sw with resultTag := r.tag, resultCode := code, remaining := remaining, lastSlot := lastSlot } }

/-- A record handed to a Log Writer that can stage it (R139); with no ring it is discarded. An IDLE Log Writer takes it at
once, when the ring has room (R140). -/
def State.logged (r : LogRecord) (s : State) : State :=
  if s.hdr.settings.ringBase = 0 then s
  else { s with log := { s.log with staging := s.log.staging ++ [r], writing := some (s.log.writing.getD 0) } }

/-- The Log Writer can stage a record: no ring is set, or the buffer holds fewer than 4 and the writer is writing, or the
buffer is empty and the ring has room (R139, R140). -/
abbrev logRoom (s : State) : Prop :=
  s.hdr.settings.ringBase = 0 ∨
    (s.log.staging.length < 4 ∧ s.log.writing.isSome = true) ∨
    (s.log.staging = [] ∧ (s.log.w + 1) % s.hdr.settings.ringSize ≠ s.log.rd)

/-- The Log Writer must drop a record handed to it (R139, R140): a ring is set, and either its buffer is full while it
writes, or the buffer is empty and the ring is full. -/
abbrev logFull (s : State) : Prop :=
  s.hdr.settings.ringBase ≠ 0 ∧
    ((s.log.staging.length = 4 ∧ s.log.writing.isSome = true) ∨
     (s.log.staging = [] ∧ s.log.writing = none ∧ (s.log.w + 1) % s.hdr.settings.ringSize = s.log.rd))

/-- A record has been dropped (R139, R140): the overflow counter has counted it, and cue_fault is latched. -/
def State.overflowed (s : State) : State :=
  State.latched .cueFault { s with log := { s.log with overflow := countUp s.log.overflow } }

/-! ## Header writes -/

/-- The commands of the host's record and the write of CMD that each is (R202). -/
def commandOf : Instr → Option (Byte × CmdStore)
  | .nop st => some (codeNop, st)
  | .advance st => some (codeAdvance, st)
  | .reverse st => some (codeReverse, st)
  | .goto st => some (codeGoto, st)
  | .clearJam st => some (codeClearJam, st)
  | .dissolve st => some (codeDissolve, st)
  | .fade st => some (codeFade, st)
  | .lamp st => some (codeLamp, st)
  | .apply st => some (codeApply, st)
  | .lampMinutes st => some (codeLampMinutes, st)
  | .clip st => some (codeClip, st)
  | .clipStop st => some (codeClipStop, st)
  | .hold st => some (codeHold, st)
  | .release st => some (codeRelease, st)
  | .inject st => some (codeInject, st)
  | .focus st => some (codeFocus, st)
  | .stop st => some (codeStop, st)
  | .reset st => some (codeReset, st)
  | .standby st => some (codeStandby, st)
  | .wake st => some (codeWake, st)
  | .badCommand code st => some (code, st)
  | _ => none

/-- The commands that are accesses of the host, or the RESET pin itself (R185, R196). -/
def actsWhileHeld (c : Instr) : Bool :=
  (commandOf c).isSome ||
    match c with
    | .resetPinAssert | .resetPinRelease _ | .irqMask _ | .groupMask _ | .mode _ | .blankRate _ | .floor _ | .master _
    | .curveSel _ | .volume _ | .duck _ | .td _ | .tt _ | .tr _ | .gateLimit _ | .pc _ | .dwellLimit _ | .slotBase _
    | .clipBase _ | .curveBase _ | .ringBase _ | .ringSize _ | .ringRd _ | .cueOptions _ | .remoteOptions _
    | .lifeLimit _ | .headerWriteOther _ _ | .hostWriteWatched _ _ | .hostWriteProtected _ _ | .statusRead | .eventsRead
    | .hostAccessEnd => true
    | _ => false

/-- The word that a host write leaves in a header word (R198). -/
def writtenWord (i : Nat) (w : LaneWrite) (s : State) : Word := LaneWrite.over w (s.hdr.imageOf i)

/-- The state after a host write of header word i: the bytes are in RAM, the image is the word written, and a correction
that waited for the word is cancelled (R198, R201). -/
def written (i : Nat) (w : LaneWrite) (s : State) : State :=
  { s with
    mem := memStore s.mem (headerAddr i) w
    hdr := { s.hdr with
      image := s.hdr.image.setIfInBounds i (writtenWord i w s)
      corrections := removeIndex i s.hdr.corrections } }

/-- These settings and pending settings are in effect (R199), and header word i waits to be corrected when its image
differs from its value in effect (R201). -/
def inEffect (i : Nat) (st : Settings) (pend : PendingSettings) (s : State) : State :=
  let h : Header := { s.hdr with settings := st, pend := pend }
  { s with hdr := { h with
    corrections := if valueInEffect h i = h.imageOf i then h.corrections else insertIndex i h.corrections } }

/-- A header word waits to be corrected, when the condition holds (R201). -/
def State.corrected (b : Bool) (i : Nat) (s : State) : State :=
  if b then { s with hdr := { s.hdr with corrections := insertIndex i s.hdr.corrections } } else s

/-- The protection ceiling has been worked out again, and the effective ceiling lowered to it (R115). -/
def State.recapped (s : State) : State :=
  { s with thermal := { s.thermal with c := ceilingOf s, ce := min (ceilingOf s) s.thermal.ce } }

/-- The high-word writes of the four bases (R200). -/
def baseCommand : Region → LaneWrite → Instr
  | .slot => .slotBase
  | .clip => .clipBase
  | .curve => .curveBase
  | .ring => .ringBase

/-- The base of a region set in the settings. -/
def Settings.withBase (st : Settings) (r : Region) (base : Nat) : Settings :=
  match r with
  | .slot => { st with slotBase := base }
  | .clip => { st with clipBase := base }
  | .curve => { st with curveBase := base }
  | .ring => { st with ringBase := base }

/-- These settings are in effect. -/
def State.withSettings (st : Settings) (s : State) : State := { s with hdr := { s.hdr with settings := st } }

/-- The ring has been started afresh (R142). -/
def State.ringAfresh (s : State) : State :=
  { s with
    log := { s.log with staging := [], w := 0, rd := 0, pendingRd := none, writing := none }
    hdr := { s.hdr with ringRd := 0, corrections := insertIndex 33 s.hdr.corrections } }

/-- The Watch Table has another content, and shadow_stale is latched when an entry of it turned stale (R65, R67). -/
def State.retabled (table : Vector WatchEntry 16) (s : State) : State :=
  let u : State := { s with shadow := { s.shadow with table := table } }
  if anyTurnedStale s.shadow.table.toList table.toList then u.latched .shadowStale else u

/-! ## The executor and the action under way -/

/-- Nothing waits for the executor (R2). -/
abbrev noSource (s : State) : Prop :=
  s.cx.pendingCmd = false ∧ s.cx.queue = [] ∧ s.remote.netCount = 0 ∧ s.remote.oneShot = none

/-- The executor has an action under way that waits for no lamp, so that nothing is taken up (R1, R2). -/
abbrev busyAction (s : State) (x : Action) : Prop :=
  s.cx.action = some x ∧ x.phase ≠ .warming ∧ s.tray.completion = none

/-- Whether a source is the command record. -/
def Source.isCommand : Source → Bool
  | .command _ => true
  | _ => false

/-- The end of this action posts its result (R22): the record of a command is ACTIVE, and the Log Writer has room for the
record of a cue that fails; and nothing is taken up after it (R2). -/
abbrev endsAlone (s : State) (x : Action) : Prop :=
  noSource s ∧ logRoom s ∧ (x.source.isCommand = true → s.hdr.record.state = .active)

/-- An action in MOVING waits for the transport to answer its request (R10). -/
abbrev awaitsTray (s : State) (x : Action) (r : TrayRequest) : Prop :=
  s.cx.action = some x ∧ x.phase = .moving ∧ x.issued = true ∧ s.tray.request = some r ∧ endsAlone s x

/-- A LAMP on waits for the lamp (R17). -/
abbrev awaitsLamp (s : State) (x : Action) : Prop :=
  s.cx.action = some x ∧ x.phase = .warming ∧ endsAlone s x

/-- No LAMP on waits for the lamp. -/
abbrev noLampOn (s : State) : Prop := ∀ x ∈ s.cx.action, x.phase ≠ .warming

/-- The ramp to a level over some tenths of a second (R76, R77). -/
def Lamp.rampTo (level tenths : Nat) (byAction offMark : Bool) (l : Lamp) : Ramp :=
  let target := level * 65536
  let d := if l.q ≤ target then target - l.q else l.q - target
  let steps := tenths * ((200000 + l.h) / (2 * l.h))
  { target := target
    increment := if tenths = 0 ∨ l.q = target then d else max 1 ((2 * d + steps) / (2 * steps))
    up := decide (l.q < target), byAction := byAction, offMark := offMark }

/-- That ramp is the active one. -/
def State.ramping (level tenths : Nat) (byAction offMark : Bool) (s : State) : State :=
  { s with lamp := { s.lamp with ramp := some (s.lamp.rampTo level tenths byAction offMark) } }

/-- An action is the current one. -/
def State.doing (x : Action) (s : State) : State := { s with cx := { s.cx with action := some x } }

/-- The change window that the action held open is closed (R9, R86). -/
def Lamp.windowShut (x : Action) (l : Lamp) : Lamp :=
  if x.window = true ∧ l.window = true then { l with window := false, darkOwed := false, darkSent := false } else l

/-- REMAINING and LAST_SLOT of an action (R22): the transport's, when it has answered, and otherwise 0 and the current
slot if known. -/
def Action.answer (x : Action) (s : State) : Nat × Nat := x.completion.getD (0, plainLastSlot s)

/-- The current action has ended (R1): its window is closed, the completion events still on their way belong to no action
(R20, R79), and its result is posted by its source (R22): in the command record, as an EXEC_FAIL record of a cue that did
not end ok, and nowhere for the hand remote or a command that RESET aborted (R25). -/
def State.actionEnded (x : Action) (code : ResultCode) (values : Nat × Nat) (s : State) : State :=
  let l := s.lamp.windowShut x
  let u : State := { s with
    cx := { s.cx with action := none }
    lamp := { l with rampDone := l.rampDone.map (fun d => { d with byAction := false }) } }
  match x.source with
  | .command _ => if x.silent then u else u.ended code values.1 values.2
  | .remote => u
  | .tape time => if code = .ok then u else u.logged (.execFail false x.request.cueKind code time)
  | .injected => if code = .ok then u else u.logged (.execFail true x.request.cueKind code 0)

/-- Every source of the executor is empty (R25, R26): the Cue Queue, which auto-hold follows (R145), the pending command,
the net count and the one-shot key. -/
def State.emptied (s : State) : State :=
  { s with
    cx := { s.cx with queue := [], pendingCmd := false }
    deck := { s.deck with auto := if s.hdr.settings.autoHold = true ∧ s.cx.queue ≠ [] then false else s.deck.auto }
    remote := { s.remote with netCount := 0, oneShot := none } }

/-- The transport has answered, and the action that waited ends with the values it answered (R10, R22). -/
def State.moveEnded (x : Action) (code : ResultCode) (s : State) : State :=
  s.actionEnded x code (s.tray.remaining, s.tray.lastSlot)

/-- The transport has answered, and the action brings the lamp back to its restore level over the blank rate (R12). -/
def State.restoring (x : Action) (level : Nat) (s : State) : State :=
  let u : State := { s with lamp := s.lamp.windowShut x }
  (u.doing { x with
    phase := .restoring, window := false, completion := some (s.tray.remaining, s.tray.lastSlot) }).ramping
      level s.hdr.settings.blankRate true false

/-! ## The tray -/

/-- The request in hand has been answered, with its remaining count and last slot (R42); with none in hand nothing
changes. -/
def Tray.answered (t : Tray) : Tray :=
  match t.request with
  | some r =>
    { t with
      request := none, wait := .none, repin := false
      remaining := (match r.plan with
        | some p => p.toGo
        | none => r.kind.count)
      lastSlot := (match r.plan with
        | some _ => t.slot
        | none => if t.known then t.slot else 0) }
  | none => t

/-- The transport waits for no record any more, and its pins are released (R43, R47, R62). -/
def State.unpinned (s : State) : State := releaseShown (releaseDest { s with tray := { s.tray with wait := .none } })

/-- The transport has jammed (R43): its pins are released, the gate is UNKNOWN, the request in hand is answered, and jam
is latched. -/
def State.jammedNow (known : Bool) (s : State) : State :=
  let u := s.unpinned
  State.latched .jam { u with
    tray := Tray.answered { u.tray with state := .jammed, gate := .unknown, known := known } }

/-- LIFT has begun for this request (R36), in a transport whose arm is below its top limit; what the entry does to the
pin of a slide shown is `Lifts`. -/
def Tray.lifted (r : TrayRequest) (now : Nat) (t : Tray) : Tray :=
  { t with
    state := .lift, retry := false, lowering := false, timerStart := now, wait := .none, repin := false
    request := some r }

/-- The request for this plan, just planned (R31 to R34). -/
def TrayRequest.planned (kind : TrayKind) (dark : Bool) (p : Plan) : TrayRequest where
  kind := kind
  dark := dark
  plan := some p
  examined := 0
  stopRequested := false
  skipping := false
  found := []
  toFind := 0
  homed := false

/-- The plan of a GOTO (R31): the shorter way round, an exact half forward. -/
def Plan.goto (n slot target : Nat) : Plan :=
  let d := (target + n - slot) % n
  if d ≤ n / 2 then { dir := .forward, dest := target, toGo := d } else { dir := .reverse, dest := target, toGo := n - d }

/-- The plan of a request without skipping (R31, R32). -/
def Plan.of (n slot : Nat) : TrayKind → Plan
  | .advance k => { dir := .forward, dest := (slot + k) % n, toGo := k }
  | .reverse k => { dir := .reverse, dest := (slot + (n - k % n)) % n, toGo := k }
  | .goto target => Plan.goto n slot target
  | .clearJam => { dir := .forward, dest := slot, toGo := 0 }

/-- A request that the transport plans (R29, R31): not CLEAR_JAM, and no GOTO beyond a tray of n. -/
def TrayKind.plannable (n : Nat) : TrayKind → Bool
  | .goto target => decide (target < n)
  | .clearJam => false
  | _ => true

/-- A slot table is set, and the record of this slot is a miss that is given entry i (R54, R58). -/
abbrev slotMisses (slot i : Nat) (s : State) : Prop :=
  s.hdr.settings.slotBase ≠ 0 ∧ s.shadow.find .slot slot = none ∧ s.shadow.victim = some i

/-- Entry i is being filled with the record of a slot, with this many pins (R58, R59). -/
def State.fetchingSlot (slot i pins : Nat) (s : State) : State :=
  { s with shadow := { s.shadow.setEntry i (.filling {
      kind := .slot, key := slot, addr := s.hdr.settings.slotBase + 4 * slot, copy := [], pins := pins }) with
    fetchList := s.shadow.fetchList ++ [i] } }

/-- A request planned now would begin its lift at once (R29, R34, R36): the transport is READY with no request, no slot
table is set, skipping is off, and the arm is below its top limit. -/
abbrev liftsAtOnce (s : State) : Prop :=
  s.tray.state = .ready ∧ s.tray.request = none ∧ s.tray.topOn = false
    ∧ s.hdr.settings.slotBase = 0 ∧ s.hdr.settings.skip = false ∧ s.tray.slot < s.tray.n

/-- No lookup waits for an entry of the Watch Table to take (R58). -/
abbrev noLookupWaits (s : State) : Prop := waitingLookups s = []

/-- Whether an entry is VALID. -/
def WatchEntry.isValid : WatchEntry → Bool
  | .valid _ _ _ => true
  | _ => false

/-- A pin lookup has found its record in entry i: a VALID one is pinned and the most recently used (R56), the fetch of a
FILLING one is joined with a pin (R57). -/
def Shadow.pinned (i : Nat) (sh : Shadow) : Shadow :=
  match sh.entry i with
  | .valid d stale _ =>
    { sh.setEntry i (.valid { d with pins := d.pins + 1 } stale sh.useStamp) with useStamp := sh.useStamp + 1 }
  | .filling d => sh.setEntry i (.filling { d with pins := d.pins + 1 })
  | .free => sh

/-- A pin on the record in entry i has been released (R62): its count is lower by 1, and a stale entry left with none is
FREE. -/
def Shadow.released (i : Nat) (sh : Shadow) : Shadow :=
  sh.setEntry i (match sh.entry i with
    | .valid d true used => if d.pins ≤ 1 then .free else .valid { d with pins := d.pins - 1 } true used
    | .valid d false used => .valid { d with pins := d.pins - 1 } false used
    | .filling d => .filling { d with pins := d.pins - 1 }
    | .free => .free)

/-- A slot table is set, and the record of this slot stands in entry i (R54 to R57). -/
abbrev slotFound (slot i : Nat) (s : State) : Prop :=
  s.hdr.settings.slotBase ≠ 0 ∧ s.shadow.find .slot slot = some i

/-- LIFT has released the pin of the slide shown, whose record stands in entry m (R36, R62). -/
def State.unshown (m : Nat) (s : State) : State :=
  { s with shadow := s.shadow.released m, tray := { s.tray with shownPin := none } }

/-- The pin of the destination, whose record stands in entry m, has been released (R40, R62). -/
def State.undestined (m : Nat) (s : State) : State :=
  { s with shadow := s.shadow.released m, tray := { s.tray with destPin := none } }

/-- The linked clip of the slide shown, as its record has it (R53, R63). -/
def State.linkedClip (s : State) : Option Nat := (shownCopy s).bind slotLinkedClip

/-- A command begins a lift and leaves v, but for the pin of the slide shown: with none held v is what it leaves, and
with one held on a record in entry m LIFT releases it (R36), where the release serves no lookup that waits. -/
def Lifts (c : Instr) (s v : State) : Prop :=
  (v.tray.shownPin = none → Ends c s v) ∧
  ∀ k m, v.tray.shownPin = some k → v.shadow.find .slot k = some m → noLookupWaits (v.unshown m) →
    Ends c s (v.unshown m)

/-- A drop has ended (R39, R114): the gate and the Presence entry are as GATE_SENSE saw them, the dwell timer and flag are
cleared, and the settling begins. -/
def State.dropEnded (seen : Bool) (s : State) : State :=
  State.recapped { s with
    tray := { s.tray with
      bottomOn := true, gate := if seen then .loaded else .empty, timerStart := s.now
      presence := s.tray.presence.setIfInBounds s.tray.slot (if seen then .present else .empty) }
    thermal := { s.thermal with dwellUs := 0, dwellFlag := false } }

/-! ## The light -/

/-- One half-cycle event has taken place (R78 to R86, R88, R89, R115), in a state with no settings to take up, whose lamp
neither fails nor ends its warming with it: Ce has slewed, the ramp has stepped, Lout and K are computed by trim, scale,
ceiling, floor and curve, the firing is scheduled, and an owed dark event is sent. -/
def State.halfCycled (crossing : Bool) (s : State) : State :=
  let l := s.lamp
  let ce := if s.thermal.ce < s.thermal.c then min s.thermal.c (s.thermal.ce + 8) else s.thermal.ce
  let q := match l.ramp with
    | some r => if r.up then min r.target (l.q + r.increment) else max r.target (l.q - r.increment)
    | none => l.q
  let reached := match l.ramp with
    | some r => if r.up then decide (r.target ≤ l.q + r.increment) else decide (l.q ≤ r.target + r.increment)
    | none => false
  let lt := min 1023 (q / 65536 * (128 + shownTrim s).toNat / 128)
  let lc := min (lt * l.m / 256) ce
  let lout := match l.state with
    | .on => if l.window then l.f else max lc l.f
    | .warming => max l.f 48
    | _ => 0
  let p (i : Nat) : Nat := (l.bank[i]?).getD 0
  let k := p (lout / 32) + (p (lout / 32 + 1) - p (lout / 32)) * (lout % 32) / 32
  let dark := l.state ≠ .on ∨ l.mainsPresent = false ∨ lout ≤ l.f
  { s with
    thermal := { s.thermal with ce := ce }
    lamp := { l with
      judging := false, failures := if l.judging then l.failures + 1 else l.failures
      q := q
      ramp := if reached then none else l.ramp
      rampDone := match l.ramp with
        | some r => if reached then l.rampDone ++ [{ byAction := r.byAction, offMark := r.offMark }] else l.rampDone
        | none => l.rampDone
      warmCount := if l.state = .warming then l.warmCount + 1 else l.warmCount
      lout := lout, k := k
      firing :=
        if crossing = true ∧ l.mainsPresent = true ∧ l.state.lit = true ∧ k ≠ 0 then
          some { time := s.now + clampTo 200 (l.h - 400) (l.h * (4096 - k) / 4096), k := k }
        else none
      fired := none
      darkOwed := if l.window = true ∧ l.darkOwed = true ∧ dark then false else l.darkOwed
      darkSent := if l.window = true ∧ l.darkOwed = true ∧ dark then true else l.darkSent } }

/-- No settings wait to be taken up by the next half-cycle event (R94, R97). -/
abbrev nothingToApply (s : State) : Prop := s.lamp.loader = none ∧ s.lamp.applyRec = none

/-- No settings wait to be taken up, and the lamp neither fails nor ends its warming with the next half-cycle event. -/
abbrev plainHalfCycle (s : State) : Prop :=
  s.lamp.loader = none ∧ s.lamp.applyRec = none ∧ (s.lamp.judging = true → s.lamp.failures ≠ 3)
    ∧ (s.lamp.state = .warming → s.lamp.warmCount + 1 < s.lamp.warmTarget)

/-- The duty is decided (R108), and the tach watch starts afresh when it rises from 0 (R109). -/
def State.dutied (s : State) : State :=
  { s with thermal := { s.thermal with
    duty := dutyOf s, tachStart := if s.thermal.duty = 0 ∧ dutyOf s ≠ 0 then s.now else s.thermal.tachStart } }

/-- An apply record has taken effect (R94, R97): F and M, with the ceiling worked out again and Ce at least F, volume and
duck, and the APPLY of an ACTIVE record completes ok. -/
def State.applied (p : PendingSettings) (s : State) : State :=
  let u := State.recapped { s with lamp := { s.lamp with f := p.f, m := p.m, applyRec := none } }
  let v : State := { u with
    thermal := { u.thermal with ce := max p.f u.thermal.ce }
    clip := ClipPlayer.retarget s.now { s.clip with volume := p.volume, duck := p.duck } }
  if s.hdr.record.state = .active ∧ s.hdr.record.code = codeApply then v.ended .ok 0 (plainLastSlot s) else v

/-- The lamp has left OFF or TRIPPED for WARMING (R88), with no cooling fault standing: run-on ends (R110), and the duty
is decided again. -/
def State.warmingBegun (s : State) : State :=
  State.dutied { s with
    lamp := { s.lamp with
      state := .warming, warmCount := 0, failures := 0, warmTarget := 20 * ((200000 + s.lamp.h) / (2 * s.lamp.h)) }
    thermal := { s.thermal with runOn := none } }

/-- The lamp in a state that is neither WARMING nor ON: no firing is pending (R83), and none waits to be judged (R89). -/
def Lamp.unlit (st : LampState) (l : Lamp) : Lamp := { l with state := st, judging := false, firing := none }

/-- The lamp has left this state for OFF (R91): run-on starts when it was lit (R110), and the duty is decided again. -/
def State.lampOut (s : State) : State :=
  State.dutied { s with
    lamp := s.lamp.unlit .off
    thermal := { s.thermal with runOn := if s.lamp.state.lit = true then some s.now else s.thermal.runOn } }

/-- The frame in progress is discarded and the aligner in HUNT (R147, R150). -/
def CueTrack.unframed (c : CueTrack) : CueTrack :=
  { c with frame := .between, fields := [], locked := false, window := [], group := [], spoiled := false }

/-- The player, with no request that waits, has been stopped (R163): a clip PLAYING fades out. -/
def ClipPlayer.faded (now : Nat) (c : ClipPlayer) : ClipPlayer :=
  match c.state, c.playing with
  | .playing, some p => ClipPlayer.retarget now { c with state := .fadingOut, fadeCount := fadeLength p.desc.rate }
  | _, _ => c

/-- A STANDBY command in NORMAL has reached every block (R26, R118, R148, R168, R183, R212), the action under way
apart: the sources emptied, the decoder and the player stopped, no focus run, and the lamp turned off as by a LAMP off.
The unit is in STANDBY at once with the fan at 0 when the lamp was not lit and no run-on active, and in STANDBY_PENDING
otherwise. -/
def State.standingBy (s : State) : State :=
  let l := s.lamp
  let u := s.emptied
  let v : State := { u with
    thermal :=
      if l.state.lit = true ∨ s.thermal.runOn ≠ none then { s.thermal with power := .standbyPending }
      else { s.thermal with power := .standby, duty := 0 }
    cue := { s.cue.unframed with carrier := .absent }
    clip := s.clip.faded s.now
    remote := { u.remote with focus := none } }
  match l.state with
  | .on => v.ramping l.f s.hdr.settings.blankRate false true
  | .warming => v.lampOut
  | .failed => v.lampOut
  | _ => v

/-- The player has nothing in hand for its stop but a clip past its priming: no request, no start record, an empty queue,
and no descriptor awaited. -/
abbrev stopsPlainly (c : ClipPlayer) : Prop :=
  c.requests = [] ∧ c.start = none ∧ c.queue = [] ∧ c.state ≠ .fetching
    ∧ (c.state = .playing → c.playing ≠ none ∧ c.priming = false)

/-- The record of a command that a RESET has found (R205): ACCEPTED or ACTIVE, it bears the discard mark, and an ACTIVE
one is CLOSING. -/
def CommandRecord.discarded (r : CommandRecord) : CommandRecord :=
  match r.state with
  | .accepted => { r with discardMark := true }
  | .active => { r with discardMark := true, state := .closing }
  | _ => r

/-- A RESET command has reached every block (R25, R70, R71, R103, R150, R169, R183, R205, R211), the action and the start
record under way apart: latches and IRQ pending cleared, the command discarded, the sources emptied, a ramp to F in
place of the active one, which keeps the off mark of that one for an ON lamp in STANDBY_PENDING (R119), the frame
discarded, the holders emptied, the player stopped, the Watch Table free and the pins gone with it. -/
def State.wasReset (s : State) : State :=
  let l := s.lamp
  let off := decide (s.thermal.power = .standbyPending) && decide (l.state = .on) && l.offMarked
  let u : State := { s with
    sw := { s.sw with latches := 0, irqPending := false }
    hdr := { s.hdr with record := s.hdr.record.discarded }
    cx := { s.cx with queue := [], pendingCmd := false }
    remote := { s.remote with netCount := 0, oneShot := none, focus := none }
    cue := s.cue.unframed
    deck := { s.deck with auto := false, cue := false, host := false, remote := false, holdUntil := none }
    clip := ClipPlayer.retarget s.now { s.clip with
      state := .idle, playing := none, queue := [], start := none, fifo := [], inFlight := false, priming := false
      fadeCount := 0, lastOutput := 0 }
    shadow := { s.shadow with table := Vector.replicate 16 .free, fetchList := [] }
    tray := { s.tray with destPin := none, shownPin := none, repin := s.tray.request.isSome } }
  u.ramping l.f s.hdr.settings.blankRate false off

/-- After a RESET, with no request in hand, the record of a slide shown at a known position is fetched into the emptied
table, and pinned (R71). -/
def State.reshown (s : State) : State :=
  if s.tray.gate = .loaded ∧ s.tray.known = true ∧ s.tray.request = none ∧ s.hdr.settings.slotBase ≠ 0 then
    { s with tray := { s.tray with shownPin := some s.tray.slot } }.fetchingSlot s.tray.slot 0 1
  else s

/-! ## Cues, clips and keys -/

/-- The frames of the sequenced kinds (R134). -/
def seqCue : SeqKind → CueFrame → Instr
  | .advance => .cueAdvance
  | .reverse => .cueReverse
  | .goto => .cueGoto
  | .dissolve => .cueDissolve
  | .fade => .cueFade
  | .lamp => .cueLamp

/-- The kind K of a sequenced cue (R134). -/
def SeqKind.code : SeqKind → Nat
  | .advance => 1
  | .reverse => 2
  | .goto => 3
  | .dissolve => 4
  | .fade => 5
  | .lamp => 6

/-- When the END of a frame that ends now is taken: no earlier than the last transition. -/
def State.endTime (s : State) : Nat := max s.now s.cue.lastTransition

/-- P after transitions with these intervals (R125): each that lies within a quarter of P of 1 to 6 chips moves P one
eighth of the way toward its own chip period, within 1,282..2,381 µs. -/
def periodAfter : List Nat → Nat → Nat
  | [], p => p
  | i :: rest, p =>
    let n := (2 * i + p) / (2 * p)
    periodAfter rest (if 1 ≤ n ∧ n ≤ 6 ∧ 4 * i ≤ 4 * n * p + p ∧ 4 * n * p ≤ 4 * i + p then
      max 1282 (min 2381 ((7 * p * n + i) / (8 * n))) else p)

/-- The decoder after the transitions of a frame (R125, R127): P has followed them, and the last is the last valid one. -/
def CueTrack.tracked (intervals : List Nat) (time : Nat) (c : CueTrack) : CueTrack :=
  { c with period := periodAfter intervals c.period, lastValid := time, lastTransition := time }

/-- The decoder after a whole frame has been read (R128, R129): locked, between frames, its END a valid transition. -/
def CueTrack.afterFrame (intervals : List Nat) (time : Nat) (c : CueTrack) : CueTrack :=
  { CueTrack.tracked intervals time c with
    locked := true, window := [], group := [], spoiled := false, frame := .between, fields := [] }

/-- The decoder after a valid frame that is no repeat (R133): it is the last accepted frame, and counted good. -/
def State.counted (nibbles intervals : List Nat) (s : State) : State :=
  { s with cue := { CueTrack.afterFrame intervals s.endTime s.cue with
    good := countUp s.cue.good, lastAccepted := some { nibbles := nibbles, endTime := s.endTime } } }

/-- A frame of this kind is heard (R125, R129, R130, R147): the carrier is present, decoding enabled, no other frame is in
progress, and its check is right. -/
abbrev hears (k : Nat) (fr : CueFrame) (s : State) : Prop :=
  s.cue.carrier = .present ∧ s.hdr.settings.decoding = true ∧ s.cue.frame = .between ∧ frameChecks k fr = true

/-- The frame is a repeat of the last accepted one (R133). -/
abbrev repeats (nibbles : List Nat) (s : State) : Prop :=
  ∃ l ∈ s.cue.lastAccepted, l.nibbles = nibbles ∧ s.endTime - l.endTime ≤ 400000

/-- Entry i is being filled with the descriptor of a clip, with one pin (R58, R59). -/
def State.fetchingDescriptor (n i : Nat) (s : State) : State :=
  { s with shadow := { s.shadow.setEntry i (.filling {
      kind := .clip, key := n, addr := s.hdr.settings.clipBase + 8 * n, copy := [], pins := 1 }) with
    fetchList := s.shadow.fetchList ++ [i] } }

/-- The start record of a CUT request whose pin lookup has been made (R153). -/
def StartRecord.cut (n : Nat) (source : ClipSource) (copy : Option (List Word)) : StartRecord where
  request := { clip := n, queueMode := false, source := source }
  copy := copy
  pinned := true

/-- A CUT request of a descriptor that no entry of the Watch Table holds has reached an IDLE player with nothing waiting
(R58, R153): the player is FETCHING with a start record that holds a pin, and entry i is being filled. -/
def State.fetchingClip (n i : Nat) (source : ClipSource) (s : State) : State :=
  State.fetchingDescriptor n i { s with
    clip := ClipPlayer.retarget s.now { s.clip with
      state := .fetching, lastOutput := 0, start := some (StartRecord.cut n source none) } }

/-- A CUT has reached a PLAYING player (R153, R162): the clip fades out, a play still priming has its first sample due
now, and the start record holds the request. -/
def ClipPlayer.cutOff (now : Nat) (p : PlayingClip) (st : StartRecord) (c : ClipPlayer) : ClipPlayer :=
  ClipPlayer.retarget now { c with
    state := .fadingOut, fadeCount := fadeLength p.desc.rate, priming := false
    sampleBase := if c.priming then now else c.sampleBase, samples := if c.priming then 0 else c.samples
    start := some st }

/-- The player is IDLE with nothing waiting, a clip table is set, and the descriptor of clip n is a miss that is given
entry i. -/
abbrev clipMisses (n i : Nat) (s : State) : Prop :=
  s.thermal.power = .normal ∧ s.clip.state = .idle ∧ s.clip.start = none ∧ s.clip.requests = [] ∧ s.clip.queue = []
    ∧ s.hdr.settings.clipBase ≠ 0 ∧ s.shadow.find .clip n = none ∧ s.shadow.victim = some i

/-- A command ends a change that the action x waits for, with the transport's answer in v (R10): a stopped action ends
aborted; of another the linked clip of the slide seated, when there is one and no entry holds its descriptor, is handed
to the player (R11), and the action brings the lamp back to its restore level (R12), or with none ends ok. -/
def EndsChange (c : Instr) (s : State) (x : Action) (linked : Option Nat) (v : State) : Prop :=
  (x.stopped = true → Ends c s (v.moveEnded x .aborted)) ∧
  (x.stopped = false → linked = none →
    (x.restore = none → Ends c s (v.moveEnded x .ok)) ∧
    ∀ level, x.restore = some level → s.thermal.power = .normal → Ends c s (v.restoring x level)) ∧
  ∀ clip entry, x.stopped = false → linked = some clip → clipMisses clip entry v →
    let w := v.fetchingClip clip entry .linked
    (x.restore = none → Ends c s (w.moveEnded x .ok)) ∧
    ∀ level, x.restore = some level → Ends c s (w.restoring x level)

/-- The descriptor that four words hold (R53): the start with bit 0 ignored, the length, the rate code, the gain and the
loop flag, at their places in the words (11.3). -/
def descriptorIn (w0 w1 w2 w3 : Word) : Descriptor where
  start := w1.toNat % 16 * 65536 + w0.toNat / 2 * 2
  length := w3.toNat % 16 * 65536 + w2.toNat
  rate := w3.toNat / 16 % 4
  gain := w3.toNat / 256
  loop := decide (w3.toNat / 64 % 2 = 1)

/-- A descriptor that passes the check (R156): a length and a rate code that are in use, the samples at 0x00100 or above
and inside the RAM. -/
abbrev Descriptor.passes (d : Descriptor) : Prop :=
  d.length ≠ 0 ∧ d.rate ≠ 3 ∧ 256 ≤ d.start ∧ d.start + d.length ≤ 1048576

/-- A play of a clip has begun (R157): PLAYING, the descriptor latched, the FIFO empty, and priming. -/
def ClipPlayer.begun (clip : Nat) (source : ClipSource) (d : Descriptor) (now : Nat) (c : ClipPlayer) : ClipPlayer :=
  ClipPlayer.retarget now { c with
    state := .playing, playing := some { clip := clip, source := source, desc := d }
    fetchAddr := d.start, toFetch := d.length, fetchDone := false, inFlight := false, priming := true
    underrunReported := false, fadeCount := 0, lastOutput := 0, fifo := [] }

/-- The answer to a start request can be posted (R155): a CLIP of the host is the ACTIVE command, and the Log Writer has
room for the record of a cue that is not answered ok. -/
abbrev startPosts (source : ClipSource) (s : State) : Prop :=
  logRoom s ∧ match source with
    | .command _ => s.hdr.record.state = .active ∧ s.hdr.record.code = codeClip
    | _ => True

/-- A start request has been answered (R155): in the command record, as an EXEC_FAIL record of a cue that is not answered
ok, and nowhere for the hand remote and a linked clip. -/
def State.startAnswered (source : ClipSource) (code : ResultCode) (s : State) : State :=
  match source with
  | .command _ => s.ended code 0 (plainLastSlot s)
  | .tape time => if code = .ok then s else s.logged (.execFail false kindClip code time)
  | .injected => if code = .ok then s else s.logged (.execFail true kindClip code 0)
  | .remote => s
  | .linked => s

/-- The receiver after an accepted frame (R172, R173): WAITING, with the frame as the last frame. -/
def Remote.framed (sys key toggle now : Nat) (r : Remote) : Remote :=
  { r with
    line := .waiting, bits := [], markSeen := false
    lastFrame := some { sys := sys, key := key, toggle := toggle, endTime := now } }

/-- A frame that is accepted (R173): its check is right, and its system code is configured, or none is. -/
abbrev accepts (key : Nat) (fr : RemoteFrame) (s : State) : Prop :=
  fr.check.toNat = (fr.sys.toNat + key + fr.toggle.toNat) % 16
    ∧ (s.hdr.settings.sysCode = 0 ∨ s.hdr.settings.sysCode = fr.sys.toNat)

/-- An accepted frame is a repeat of the key held (R174). -/
abbrev heldKey (key : Nat) (fr : RemoteFrame) (s : State) : Prop :=
  ∃ l ∈ s.remote.lastFrame, l.sys = fr.sys.toNat ∧ l.key = key ∧ l.toggle = fr.toggle.toNat
    ∧ s.now - l.endTime ≤ 250000

/-- A focus run that starts now (R180). -/
def FocusRun.fresh (inward : Bool) (owner : FocusOwner) (limit now : Nat) : FocusRun where
  inward := inward
  owner := owner
  start := now
  limit := limit
  lastRepeat := now

/-! ## Landings of STATUS -/

/-- A STATUS write that shows CMDW set is in the RAM of a settled part, RDY has been set, and the command record is
ACCEPTED with a command of this code and no mark: it is taken when the write lands (R203). -/
abbrev TakesNext (s : State) (a : RamAccess) (code : Byte) : Prop :=
  Settled s ∧ s.port.ram = some a ∧ a.who = .statusWriter ∧ a.addr = 128 ∧ a.afterHand = false
    ∧ bitOf a.data 2 = true ∧ 0 ∉ s.sw.unwritten
    ∧ s.hdr.record.state = .accepted ∧ s.hdr.record.abortMark = false ∧ s.hdr.record.discardMark = false
    ∧ s.hdr.record.code = code

/-- A STATUS write that shows CMDW set is in the RAM of a settled part, RDY has been set, and the command record is
ACCEPTED with a command of this code that a STOP has given its abort mark (R203, R205). -/
abbrev TakesMarked (s : State) (a : RamAccess) (code : Byte) : Prop :=
  Settled s ∧ s.port.ram = some a ∧ a.who = .statusWriter ∧ a.addr = 128 ∧ a.afterHand = false
    ∧ bitOf a.data 2 = true ∧ 0 ∉ s.sw.unwritten
    ∧ s.hdr.record.state = .accepted ∧ s.hdr.record.abortMark = true ∧ s.hdr.record.discardMark = false
    ∧ s.hdr.record.code = code

/-- A STATUS write has landed (R206). -/
def statusShown (a : RamAccess) (s : State) : State :=
  { s with
    mem := memSetWord s.mem 128 a.data
    sw := { s.sw with copy := s.sw.copy.setIfInBounds 0 a.data } }

/-- The record's command has been taken (R203): the record is ACTIVE. -/
def State.active (s : State) : State := { s with hdr := { s.hdr with record := { s.hdr.record with state := .active } } }

/-! ## Invariants -/

/-- The thermal settings stand in their order (R121). -/
abbrev Settings.thermalOrder (st : Settings) : Prop :=
  80 ≤ st.td ∧ st.td ≤ 115 ∧ st.td + 5 ≤ st.tt ∧ st.tt ≤ 140 ∧ 40 ≤ st.tr ∧ st.tr + 5 ≤ st.td

/-- The failed-read counts stand where they can: a count stands at 4 once it has reached it (R105, R106). -/
abbrev Thermal.countsOk (t : Thermal) : Prop := t.failTh ≤ 4 ∧ t.failTg ≤ 4

/-- The duty is the one R108 commands, and in STANDBY the lamp is neither WARMING nor ON and run-on is not active
(R118). -/
abbrev CoolingLaw (s : State) : Prop :=
  s.thermal.countsOk ∧ s.thermal.duty = dutyOf s ∧
    (s.thermal.power = .standby → s.lamp.state.lit = false ∧ s.thermal.runOn = none)

/-- The word of the Status Block that the RAM is being given, if it is being given one. -/
def Port.statusInRam (p : Port) : Option (Nat × Word) :=
  match p.ram with
  | some a => if a.who = .statusWriter then some ((a.addr - statusBlockAddr) / 2, a.data) else none
  | none => none

/-- Word i of the Status Block is as the state has it, or is owed (R206): one in the RAM is composed from the present
state or dirty again, and any other as last written reads as the state has it, or is dirty, or requested. -/
def wordKept (s : State) (i : Nat) : Prop :=
  match s.port.statusInRam with
  | some (j, v) =>
    if j = i then v = compose s i ∨ i ∈ s.sw.dirty
    else i ∈ s.sw.dirty ∨ s.port.reqs.statusWriter = some i ∨ (s.sw.copy[i]?).getD 0 = compose s i
  | none => i ∈ s.sw.dirty ∨ s.port.reqs.statusWriter = some i ∨ (s.sw.copy[i]?).getD 0 = compose s i

/-- Every word of the Status Block is kept (R206), unless the RESET pin is held (R196). -/
def StatusKept (s : State) : Prop := s.resetHeld = false → ∀ i < 64, wordKept s i

end Sys2Proof.Machine
end

