-- ==== Sys2Proof/Certificates/Slice0/Obligations.lean ====
section
/-! DEFINITION. The statements about the machine, for the provers. `Ends c s u` says that command c answers a next state
at s and that it has the body of u: every register, image, setting, table, queue, latch and timer, every byte of memory
and the commands that wait are as in u, and only the traffic on the RAM is left open. -/

open Sys2Proof Sys2Proof.Machine

/-! ## Steps, the RESET pin -/

/-- A step takes the command at the front of the queue and runs it on the state with the queue's rest. -/
def Obligations.StepRunsTheFrontCommand : Prop :=
  ∀ (c : Instr) (rest : List Instr) (s : State), s.pending = c :: rest → step s = exec c { s with pending := rest }

/-- The model's choice (assumption 1): on an empty queue a step is one tick of the part's clock. One microsecond
passes. The dwell timer counts it, up to its limit, while a slide is in the gate, mains is present, Lout is above Pc, the
dwell limit is not 0 and the dwell flag is clear; the lamp minutes count it while the lamp is WARMING or ON and mains is
present; the tape time counts it while the carrier is PRESENT and TAPE_RUN active; a part at rest changes in nothing
else. Then the signals on their way, the end of the RAM's access and the expiries that are due, each with its own
condition, wait in the queue in this order. While the RESET pin is held only the end of the RAM's access does. That the
part of a unit begun is kept while a count stands is assumptions 53, 59 and 65. -/
def Obligations.EmptyQueueIsAClockTick : Prop :=
  ∀ s : State, s.pending = [] →
    let dwells := s.tray.gate = .loaded ∧ s.lamp.mainsPresent = true ∧ s.hdr.settings.pc < s.lamp.lout
      ∧ s.hdr.settings.dwellLimit ≠ 0 ∧ s.thermal.dwellFlag = false
    let burns := (s.lamp.state = .warming ∨ s.lamp.state = .on) ∧ s.lamp.mainsPresent = true
    let runs := s.cue.carrier = .present ∧ s.deck.tapeRun = true
    let limit := s.hdr.settings.dwellLimit * 1000000
    let u : State := { s with
      now := s.now + 1
      thermal := { s.thermal with dwellUs := if dwells then min limit (s.thermal.dwellUs + 1) else s.thermal.dwellUs }
      lamp := { s.lamp with minuteUs := if burns then s.lamp.minuteUs + 1 else s.lamp.minuteUs }
      cue := { s.cue with tapeUs := if runs then s.cue.tapeUs + 1 else s.cue.tapeUs } }
    let l := u.lamp
    let h := u.thermal
    let e := u.now - u.tray.timerStart
    let due (b : Prop) [Decidable b] (c : Instr) : List Instr := if b then [c] else []
    let passed (t : Option Nat) (p : Nat → Bool) : Prop := (t.map p).getD false = true
    let sounds := u.clip.state = .playing ∨ u.clip.state = .fadingOut
    let access := match s.port.ram.map (·.who) with
      | some .host => [Instr.hostAccessEnd]
      | some .statusWriter => [Instr.statusBlockWriteLanded]
      | some .headerMonitor => [Instr.correctionLanded]
      | some .logWriter => [Instr.logWordLanded]
      | some .recordShadow => [Instr.recordWordReturned]
      | some .curveLoader => [Instr.curveWordReturned]
      | some .clipPlayer => [Instr.sampleWordReturned]
      | none => []
    let waits := List.flatten [
      due (l.rampDone ≠ []) .rampComplete, due (l.darkSent = true) .darkEvent, access,
      due (u.tray.lifting = true ∧ 800000 ≤ e) .liftTimeout, due (u.tray.loweringNow = true ∧ 600000 ≤ e) .lowerTimeout,
      due (u.tray.turning = true ∧ 400000 ≤ e) .rotateTimeout, due (u.tray.dropping = true ∧ 600000 ≤ e) .dropTimeout,
      due (u.tray.settling = true ∧ 150000 ≤ e) .settleEnd,
      due (u.tray.state = .recover ∧ 800000 ≤ e) .recoverTimeout,
      due (l.mainsPresent = true ∧ 15000 ≤ u.now - l.lastCross) .mainsLoss,
      due (l.mainsPresent = false ∧ l.nextSub ≤ u.now) .substituteHalfCycle,
      due (passed (l.firing.map (·.time)) (fun t => decide (t ≤ u.now))) .lampFiring,
      due (60000000 ≤ l.minuteUs) .lampMinuteTick, due (h.nextRead ≤ u.now) .sensorReadCycle,
      due (h.duty ≠ 0 ∧ 2000000 ≤ u.now - h.tachStart) .tachWatchExpiry,
      due (passed h.runOn (fun t => decide (u.now - t = 60000000))) .runOnTimeReached,
      due (dwells ∧ limit ≤ h.dwellUs) .dwellLimitReached,
      due (u.cue.carrier = .present ∧ 500000 ≤ u.now - u.cue.lastValid) .carrierLost,
      due (passed u.deck.holdUntil (fun t => decide (t ≤ u.now))) .holdTimerExpiry,
      due (runs ∧ 10000 ≤ u.cue.tapeUs) .tapeTimeTick,
      due (sounds ∧ u.clip.priming = false ∧ u.clip.nextDue ≤ u.now) .sampleDue,
      due (passed (u.clip.gainRamp.map fun g => g.start + (g.ticks + 1) * 1000) (fun t => decide (t ≤ u.now)))
        .gainRampTick,
      due (passed ((u.remote.focus.filter (fun f => decide (f.owner = .remote))).map (·.lastRepeat))
        (fun t => decide (250000 ≤ u.now - t))) .remoteRepeatTimeout,
      due (passed (u.remote.focus.map fun f => f.start + f.limit) (fun t => decide (t ≤ u.now))) .focusTimeLimit]
    ∃ t, step s = .next t ∧
      (if s.resetHeld then t = { s with pending := access }
       else t.now = s.now + 1 ∧ t.pending = waits
         ∧ (Settled s → t.body = ({ u with pending := waits } : State).body))

/-- The release of the RESET pin leaves the reset state, with the levels on the pins taken up and the RAM as it was,
and the STATUS word of the initial pass is the first access of the RAM. The fields that are the model's bookkeeping
are as assumption 43 has them, and the release acts as assumption 10 says. -/
def Obligations.PinReleaseGivesTheResetState : Prop :=
  ∀ (p : ResetPins) (s : State), ∃ t, exec (.resetPinRelease p) s = .next t ∧
    t.body = { State.reset with
      mem := s.mem
      tray := { State.reset.tray with
        n := if p.trayPresent && p.tray96 then 96 else 48
        state := if p.trayPresent then .unhomed else .trayOut
        topOn := p.armTop
        bottomOn := p.armBottom }
      deck := { State.reset.deck with tapeRun := p.tapeRun }
      remote := { State.reset.remote with
        keyFwd := { down := false, heldAtPin := p.keyFwd }
        keyRev := { down := false, heldAtPin := p.keyRev }
        keyFocusIn := { down := false, heldAtPin := p.keyFocusIn }
        keyFocusOut := { down := false, heldAtPin := p.keyFocusOut }
        keyLamp := { down := false, heldAtPin := p.keyLamp } }
      unit := p.unit
      pending := s.pending : State }.body
    ∧ t.port.access = none ∧ t.port.backlog = [] ∧ t.port.guard = 0
    ∧ t.port.ram.map (fun a => (a.who, a.addr, a.data)) = some (.statusWriter, 128, compose t 0)

/-- After the RESET pin the executor is IDLE with nothing waiting, its queue is empty, the show level is 1023, no
restore level is held and the window is closed; STATUS reads EXEC clear and QUEUE a depth of 0. -/
def Obligations.ExecutorAfterThePin : Prop :=
  ∀ (p : ResetPins) (s : State), s.resetHeld = true → ∃ t, exec (.resetPinRelease p) s = .next t ∧
    t.cx.action = none ∧ t.cx.pendingCmd = false ∧ t.cx.queue = [] ∧ t.cx.showLevel = 1023 ∧ t.lamp.window = false
    ∧ (compose t 0).getLsbD 1 = false ∧ fieldOf (compose t 22) 0 4 = 0

/-- After the RESET pin the Watch Table is FREE, nothing is fetched, no pins are held, both counts are 0, and every
lookup is answered as for an absent table. -/
def Obligations.ShadowAfterThePin : Prop :=
  ∀ (p : ResetPins) (s : State), s.resetHeld = true → ∃ t, exec (.resetPinRelease p) s = .next t ∧
    t.shadow.table = Vector.replicate 16 .free ∧ t.shadow.fetchList = []
    ∧ t.port.reqs.recordShadow = none ∧ t.port.inRamOf .recordShadow = none
    ∧ t.tray.destPin = none ∧ t.tray.shownPin = none ∧ t.clip.start = none ∧ t.clip.queue = []
    ∧ t.shadow.validCount = 0 ∧ t.shadow.staleCount = 0
    ∧ t.hdr.settings.slotBase = 0 ∧ t.hdr.settings.clipBase = 0
    ∧ ∀ kind key pin, (lookup kind key pin t).2 = .absent

/-- After the RESET pin the Clip Player is IDLE with nothing held, output 0, volume 192 and duck 64, G at 192 with no
ramp, and no underruns; CLIP and UNDERRUNS read 0. -/
def Obligations.ClipPlayerAfterThePin : Prop :=
  ∀ (p : ResetPins) (s : State), s.resetHeld = true → ∃ t, exec (.resetPinRelease p) s = .next t ∧
    t.clip.state = .idle ∧ t.clip.playing = none ∧ t.clip.fifo = [] ∧ t.clip.inFlight = false ∧ t.clip.queue = []
    ∧ t.clip.requests = [] ∧ t.clip.start = none ∧ t.clip.lastOutput = 0 ∧ t.clip.clipOut = 0
    ∧ t.clip.volume = 192 ∧ t.clip.duck = 64 ∧ t.clip.gain = 192 ∧ t.clip.gainRamp = none ∧ t.clip.underruns = 0
    ∧ compose t 23 = 0 ∧ compose t 24 = 0

/-- After the RESET pin the Thermal Controller holds the values of its reset rule, and TH, TG and FAN read 0, 0 and a
duty of 30 with run-on inactive. -/
def Obligations.ThermalControllerAfterThePin : Prop :=
  ∀ (p : ResetPins) (s : State), s.resetHeld = true → ∃ t, exec (.resetPinRelease p) s = .next t ∧
    t.now = 0 ∧ t.thermal.th = 0 ∧ t.thermal.tg = 0 ∧ t.thermal.firstTaken = false
    ∧ t.thermal.failTh = 0 ∧ t.thermal.failTg = 0 ∧ t.thermal.sensorFault = false
    ∧ t.thermal.zone = 0 ∧ t.thermal.duty = 30 ∧ t.thermal.tachStart = 0 ∧ t.thermal.fanFault = false
    ∧ t.thermal.runOn = none ∧ t.thermal.overTemp = false ∧ t.thermal.gateFlag = false ∧ t.thermal.dwellFlag = false
    ∧ t.thermal.dwellUs = 0 ∧ t.thermal.c = 1023 ∧ t.thermal.ce = 1023 ∧ t.thermal.power = .normal
    ∧ t.thermal.nextRead = 250000
    ∧ t.hdr.settings.td = 95 ∧ t.hdr.settings.tt = 120 ∧ t.hdr.settings.tr = 70 ∧ t.hdr.settings.gateLimit = 75
    ∧ t.hdr.settings.pc = 640 ∧ t.hdr.settings.dwellLimit = 120
    ∧ compose t 12 = 0 ∧ compose t 13 = 0 ∧ compose t 14 = 30

/-- The model's choice (assumption 54): at the assertion of the RESET pin the part's own requests and its access of the
RAM are dropped at once, and nothing else changes until the release; an access of the host in the RAM goes on, and one
that waits, with no other in the RAM, is granted at once and stores what it writes. -/
def Obligations.PinAssertDropsTheOwnAccesses : Prop :=
  ∀ (s : State) (a : HostAccess),
    (s.port.hostWaits = false →
      exec .resetPinAssert s = .next { s with
        resetHeld := true
        port := { s.port with reqs := Requests.empty, ram := s.port.inRamOf .host } }) ∧
    (s.port.access = some a → a.inRam = false → s.port.inRamOf .host = none →
      let held : State := { s with
        resetHeld := true
        mem := match a.kind with
          | .read => s.mem
          | .write w => memStore s.mem a.addr w }
      Granted .resetPinAssert s held ∧ ∃ t, exec .resetPinAssert s = .next t ∧ t.port.reqs = Requests.empty)

/-- While the RESET pin is held, a host write outside the Status Block is carried out in RAM and nothing else changes,
one into the Status Block is suppressed without protect, a read of a word is granted, and one of STATUS or EVENTS gives
no notice when it ends. Every command that is no access of the host, and not the pin itself, changes nothing: that the
part's events have no effect then is the model's reading (assumption 10). -/
def Obligations.HeldPinPassesHostAccessesOnly : Prop :=
  ∀ (s : State) (a : WordAddr) (w : LaneWrite) (st : CmdStore) (k : HostAccess) (r : RamAccess) (c : Instr),
    s.resetHeld = true →
    (s.port.access = none → s.port.ram = none → s.port.reqs = Requests.empty →
      (inStatusBlock a = false →
        Granted (.hostWriteWatched a (.write w)) s { s with mem := memStore s.mem a w }) ∧
      (inStatusBlock a = true → exec (.hostWriteProtected a w) s = .next s) ∧
      Granted (.hostWriteWatched a .read) s s ∧ Granted .statusRead s s ∧ Granted .eventsRead s s ∧
      Granted (.advance st) s { s with mem := memStore s.mem (headerAddr 0) (CmdStore.write st codeAdvance) } ∧
      (k.inRam = true → k.kind = .read → r.who = .host → s.port.backlog = [] →
        Returns .hostAccessEnd { s with port := { s.port with access := some k, ram := some r } } s r.data)) ∧
    (actsWhileHeld c = false → exec c s = .next s)

/-! ## Commands of the host -/

/-- A host command other than STOP and RESET, at a FREE record, is accepted with its tag and with P1, P2 and P3 as
they stand in the images; the bytes written are in RAM and nothing else changes. -/
def Obligations.CommandIsAccepted : Prop :=
  ∀ (c : Instr) (code : Byte) (st : CmdStore) (s : State),
    commandOf c = some (code, st) → code ≠ codeStop → code ≠ codeReset →
    HostReady s → s.cx.pendingCmd = false → s.hdr.record.state = .free →
    let w := CmdStore.write st code
    Granted c s { written 0 w s with
      hdr := { (written 0 w s).hdr with
        record := { state := .accepted, code := code, tag := hiByte (writtenWord 0 w s)
                    p1 := s.hdr.imageOf 1, p2 := s.hdr.imageOf 2, p3 := s.hdr.imageOf 3
                    abortMark := false, discardMark := false, handed := false, toLand := [] } } }

/-- A host command other than STOP and RESET, at a record that is not FREE, is rejected: its tag goes to REJECT,
cmd_reject is latched, and the record is left alone. -/
def Obligations.CommandIsRejected : Prop :=
  ∀ (c : Instr) (code : Byte) (st : CmdStore) (s : State),
    commandOf c = some (code, st) → code ≠ codeStop → code ≠ codeReset →
    HostReady s → s.hdr.record.state ≠ .free →
    let w := CmdStore.write st code
    Granted c s (State.latched .cmdReject { written 0 w s with
      sw := { s.sw with rejectTag := hiByte (writtenWord 0 w s) } })

/-- STOP. With the executor IDLE, no command of the executor's or FOCUS accepted, and no COMMAND focus run, it changes
nothing. An ACCEPTED command of the executor's or FOCUS is given its abort mark. A COMMAND focus run of an ACTIVE
FOCUS ends aborted. An action in a fading phase ends aborted, its ramp frozen, and so does a LAMP on that waits for the
lamp, any ramp left alone, and an action in MOVING whose request is held for the dark event, with its window closed. In
MOVING, with the request lifting, rotating, dropping, settling, homing or in recovery, the request is marked and the
action keeps its place until the transport answers; a second STOP has no further effect. A request whose plan waits for
a record is answered at once, with its pin released, and the action ends aborted. A command that is pending behind
another source's action ends aborted with the action's ending or its mark. That the stop of a request that waits for
its destination's record is answered at once is assumption 23; the values of an answer without a plan are 28, and those
in the search of a continuation 48. -/
def Obligations.StopActsAtTheTrigger : Prop :=
  ∀ (st : CmdStore) (s : State) (y : Action) (q : TrayRequest), HostReady s →
    let w := CmdStore.write st codeStop
    let r := s.hdr.record
    (noSource s → s.cx.action = none → (∀ f, s.remote.focus = some f → f.owner ≠ .command) →
      (r.state = .accepted → r.code ∉ executorCodes ∧ r.code ≠ codeFocus) →
      Granted (.stop st) s (written 0 w s)) ∧
    (noSource s → s.cx.action = none → s.remote.focus = none →
      r.state = .accepted → (r.code ∈ executorCodes ∨ r.code = codeFocus) →
      Granted (.stop st) s { written 0 w s with
        hdr := { (written 0 w s).hdr with record := { r with abortMark := true } } }) ∧
    (∀ f, s.remote.focus = some f → noSource s → s.cx.action = none → f.owner = .command →
      r.state = .active → r.code = codeFocus →
      Granted (.stop st) s (State.ended .aborted 0 (plainLastSlot s)
        { written 0 w s with remote := { s.remote with focus := none } })) ∧
    (s.cx.action = some y → y.phase ≠ .moving → y.phase ≠ .warming → endsAlone s y → r.state ≠ .accepted →
      s.remote.focus = none → s.thermal.power = .normal →
      Granted (.stop st) s (({ written 0 w s with lamp := { s.lamp with ramp := none } } : State).actionEnded
        y .aborted (y.answer s))) ∧
    (awaitsLamp s y → r.state ≠ .accepted → s.remote.focus = none →
      Granted (.stop st) s ((written 0 w s).actionEnded y .aborted (y.answer s))) ∧
    (s.cx.action = some y → y.phase = .moving → y.issued = false → endsAlone s y → r.state ≠ .accepted →
      s.remote.focus = none →
      Granted (.stop st) s ((written 0 w s).actionEnded y .aborted (y.answer s))) ∧
    (s.cx.action = some y → y.phase = .moving → y.issued = true → y.stopped = false →
      s.tray.request = some q → q.stopRequested = false → s.remote.focus = none →
      let marked : State := { written 0 w s with
        cx := { s.cx with action := some { y with stopped := true }, pendingCmd := false }
        tray := { s.tray with request := some { q with stopRequested := true } } }
      (s.tray.state = .lift ∨ s.tray.state = .rotate ∨ s.tray.state = .drop ∨ s.tray.state = .settle ∨
        s.tray.state = .homing ∨ s.tray.state = .recover) →
      (s.cx.pendingCmd = false → r.state ≠ .accepted → Granted (.stop st) s marked) ∧
      (s.cx.pendingCmd = true → r.state = .active →
        Granted (.stop st) s (State.ended .aborted 0 (plainLastSlot s) marked))) ∧
    (s.cx.action = some y → y.phase = .moving → y.issued = true → y.stopped = true → s.cx.pendingCmd = false →
      r.state ≠ .accepted → s.remote.focus = none → Granted (.stop st) s (written 0 w s)) ∧
    (awaitsTray s y q → y.stopped = false → q.stopRequested = false → s.tray.state = .ready → r.state ≠ .accepted →
      s.remote.focus = none →
      let u := releaseDest (written 0 w s)
      Granted (.stop st) s (({ u with tray := Tray.answered u.tray } : State).moveEnded y .aborted)) ∧
    (s.cx.action = some y → y.phase ≠ .moving → y.phase ≠ .warming → y.source.isCommand = false →
      s.cx.pendingCmd = true → s.cx.queue = [] → s.remote.netCount = 0 → s.remote.oneShot = none → logRoom s →
      r.state = .active → s.remote.focus = none → s.thermal.power = .normal →
      Granted (.stop st) s (State.ended .aborted 0 (plainLastSlot s) (({ written 0 w s with
        cx := { s.cx with pendingCmd := false }
        lamp := { s.lamp with ramp := none } } : State).actionEnded y .aborted (y.answer s))))

/-- RESET, with the record in any state, in any power state: latches and IRQ pending cleared, the executor's sources
emptied, the ramp frozen and a ramp to F asked for, the frame discarded, the holders emptied, the player stopped, the
Watch Table freed, the focus run stopped, and all 64 words owed. A command ACCEPTED or ACTIVE is given its discard mark,
and an ACTIVE record is CLOSING. In STANDBY_PENDING the new ramp of an ON lamp keeps the off mark of the old. With no
request in hand the record of a slide shown is fetched afresh and pinned. An action whose request is not issued ends
aborted, its window closed, and posts nothing for a command, an EXEC_FAIL record for a cue; one whose request lifts,
rotates, drops, settles, homes or recovers keeps its place, marked, until the transport answers, and so does one that a
STOP has marked before; one whose plan waits for a record ends aborted at once. A start request, with no other behind
it, is answered aborted. The order inside the command is the model's (assumption 38). That an apply record that only
waits for its half-cycle is kept is the model's choice (assumption 62), and that the stop of a request that waits for
its destination's record is answered at once is 23; the values of an answer without a plan are 28, and those in the
search of a continuation 48. -/
def Obligations.ResetActsAtTheTrigger : Prop :=
  ∀ (st : CmdStore) (s : State) (x : Action) (q : TrayRequest) (sr : StartRecord), HostReady s → s.clip.requests = [] →
    let v := written 0 (CmdStore.write st codeReset) s
    let t := s.tray
    let resets (u : State) : Prop :=
      ∃ t, exec (.reset st) s = .next t ∧ (∀ i < 64, t.owes i = true) ∧ t.body = u.body
    let silent : Action := { x with silent := true }
    let moving := t.state = .lift ∨ t.state = .rotate ∨ t.state = .drop ∨ t.state = .settle ∨ t.state = .homing
      ∨ t.state = .recover
    (s.cx.action = none → t.request = none → s.clip.start = none → resets v.wasReset.reshown) ∧
    (s.cx.action = none → t.request = none → s.clip.start = some sr →
      (∀ time, sr.request.source = .tape time → logRoom s →
        resets ((v.logged (.execFail false kindClip .aborted time)).wasReset.reshown)) ∧
      (sr.request.source = .injected → logRoom s →
        resets ((v.logged (.execFail true kindClip .aborted 0)).wasReset.reshown)) ∧
      ((sr.request.source = .remote ∨ sr.request.source = .linked ∨ ∃ tag, sr.request.source = .command tag) →
        resets v.wasReset.reshown)) ∧
    (s.cx.action = some x → (x.phase ≠ .moving ∨ x.issued = false) → t.request = none → s.clip.start = none →
      logRoom s → resets ((v.actionEnded silent .aborted (x.answer s)).wasReset.reshown)) ∧
    (s.cx.action = some x → x.phase = .moving → x.issued = true → t.request = some q → t.wait = .none →
      s.clip.start = none → moving →
      (x.stopped = false → q.stopRequested = false →
        resets { v.doing { silent with stopped := true } with
          tray := { t with request := some { q with stopRequested := true } } }.wasReset) ∧
      (x.stopped = true → q.stopRequested = true → resets (v.doing silent).wasReset)) ∧
    (awaitsTray s x q → x.stopped = false → q.stopRequested = false → t.state = .ready → s.clip.start = none →
      resets (({ v with tray := t.answered } : State).moveEnded silent .aborted).wasReset.reshown)

/-! ## Commands taken, as the STATUS write that shows CMDW lands -/

/-- NOP ends ok; HOLD adds HOST and ends ok; RELEASE removes CUE, HOST and REMOTE, stops the hold timer and ends ok; a
code outside the table ends bad_command. LAMP_MINUTES sets the minutes count to P1 + 65,536 × P2, or to 16,777,215
when P2 is above 255, sets the milliseconds count to 0 and ends ok; the life flag and lamp_life follow the new count.
A command of the executor's or FOCUS that bears the abort mark of a STOP is not routed and ends aborted. That the
millisecond begun is cleared with the milliseconds is assumption 59. -/
def Obligations.SimpleCommandsWhenTaken : Prop :=
  ∀ (s : State) (a : RamAccess),
    (∀ code, TakesMarked s a code → (code ∈ executorCodes ∨ code = codeFocus) →
      Ends .statusBlockWriteLanded s (State.ended .aborted 0 (plainLastSlot s) (statusShown a s))) ∧
    (TakesNext s a codeNop →
      Ends .statusBlockWriteLanded s (State.ended .ok 0 (plainLastSlot s) (statusShown a s))) ∧
    (TakesNext s a codeHold →
      Ends .statusBlockWriteLanded s (State.ended .ok 0 (plainLastSlot s)
        { statusShown a s with deck := { s.deck with host := true } })) ∧
    (TakesNext s a codeRelease →
      Ends .statusBlockWriteLanded s (State.ended .ok 0 (plainLastSlot s)
        { statusShown a s with
          deck := { s.deck with cue := false, host := false, remote := false, holdUntil := none } })) ∧
    (∀ code, TakesNext s a code → code ∉ definedCodes →
      Ends .statusBlockWriteLanded s (State.ended .badCommand 0 (plainLastSlot s) (statusShown a s))) ∧
    (TakesNext s a codeLampMinutes →
      let p1 := s.hdr.record.p1.toNat
      let p2 := s.hdr.record.p2.toNat
      let n := if 255 < p2 then 16777215 else p1 + 65536 * p2
      let limit := s.hdr.settings.lifeLimit
      let u (reported : Bool) : State := State.ended .ok 0 (plainLastSlot s)
        { statusShown a s with lamp := { s.lamp with minutes := n, minuteUs := 0, lifeReported := reported } }
      ((limit = 0 ∨ n < limit * 60) → Ends .statusBlockWriteLanded s (u false)) ∧
      (limit ≠ 0 → limit * 60 ≤ n → s.lamp.lifeReported = true → Ends .statusBlockWriteLanded s (u true)) ∧
      (limit ≠ 0 → limit * 60 ≤ n → s.lamp.lifeReported = false →
        Ends .statusBlockWriteLanded s (State.latched .lampLife (u true))))

/-- ADVANCE, REVERSE, GOTO, CLEAR_JAM, DISSOLVE, FADE and LAMP become the pending command of an executor that is busy;
but a LAMP off cuts a LAMP on that waits for a WARMING lamp short: that ends aborted, the lamp is put OFF, and the LAMP
off ends ok. An IDLE executor takes the command up at once. It fails, in this order: with standby outside NORMAL; with
tray_out at a transport that is TRAY_OUT, for a change and for a lit DISSOLVE; with bad_param for a GOTO beyond the
tray; with jammed at a JAMMED transport, for a change other than CLEAR_JAM. Otherwise: a FADE ramps to its level, the
show level too when above F; a LAMP on starts the warming of an OFF lamp or of a TRIPPED one below Tr, with a cooling
fault standing trips it again and ends thermal_hold, waits for a WARMING one, ends thermal_hold at a TRIPPED one at Tr
or above, and ends ok at any other; a LAMP off ramps an ON lamp to F with the off mark, puts a WARMING or FAILED one
OFF, its pending firing dropped (assumption 68), and ends ok at any other; a DISSOLVE fades a lit lamp to F and brings a
dark one to the show level; a change in DARK mode blanks a lit lamp with its level held to be restored, and opens the
window of a dark one; in OPEN mode, and with the window open on a dark lamp, the transport begins its lift, which an arm
at its top limit already ends at once. With a slot table set the record of its destination is pinned: found VALID, it is
the most recently used and the lift begins, and found FILLING, its fetch is joined; the transport stays READY while that
record, or with skipping that of the first position it looks at, is fetched (assumption 21). UNHOMED, it begins homing.
A lift, of a change and of homing, releases the pin of the slide shown. CLEAR_JAM begins the
recovery of a JAMMED transport and ends ok at a READY or UNHOMED one; its last slot is then assumption 28. That skipping
is as it was at planning is assumption 27. -/
def Obligations.ExecutorCommandsPend : Prop :=
  ∀ (s : State) (a : RamAccess) (code : Byte) (x : Action) (i : Nat),
    (TakesNext s a code → code ∈ executorCodes → busyAction s x →
      Ends .statusBlockWriteLanded s
        { (statusShown a s).active with cx := { s.cx with pendingCmd := true } }) ∧
    (s.cx.action = some x → x.phase = .warming → TakesNext s a code → code ∈ executorCodes →
      (code = codeLamp → s.hdr.record.p1 ≠ 0) →
      Ends .statusBlockWriteLanded s
        { (statusShown a s).active with cx := { s.cx with pendingCmd := true } }) ∧
    (s.cx.action = some x → x.phase = .warming → x.source.isCommand = false → s.lamp.state = .warming →
      s.thermal.power = .normal → noSource s → logRoom s → TakesNext s a codeLamp → s.hdr.record.p1 = 0 →
      Ends .statusBlockWriteLanded s (State.ended .ok 0 (plainLastSlot s)
        ((statusShown a s).actionEnded x .aborted (x.answer s)).lampOut)) ∧
    (s.cx.action = none →
      let r := s.hdr.record
      let p1 := r.p1.toNat
      let p2 := r.p2.toNat
      let l := s.lamp
      let st := s.hdr.settings
      let t := s.tray
      let change := code = codeAdvance ∨ code = codeReverse ∨ code = codeGoto
      let needsTray := change ∨ code = codeClearJam ∨ (code = codeDissolve ∧ l.dark = false)
      let fails (result : ResultCode) : Prop :=
        Ends .statusBlockWriteLanded s (State.ended result 0 (plainLastSlot s) (statusShown a s))
      let goesOn (u : State) : Prop := Ends .statusBlockWriteLanded s u
      let begins (u : State) : Prop := Lifts .statusBlockWriteLanded s u
      let closed (result : ResultCode) (v : State) : State := State.ended result 0 (plainLastSlot s) { v with
        lamp := { v.lamp with rampDone := v.lamp.rampDone.map (fun d => { d with byAction := false }) } }
      let u := (statusShown a s).active
      let act (req : ActionRequest) (lit : Bool) (ph : Phase) : Action := freshAction req (.command r.tag) lit ph
      let issued (req : ActionRequest) : Action := { act req false .moving with issued := true }
      let lifts (kind : TrayKind) (dark : Bool) (p : Plan) : Tray := t.lifted (TrayRequest.planned kind dark p) s.now
      let n := if p1 = 0 then 1 else min p1 (t.n - 1)
      let req : ActionRequest :=
        if code = codeAdvance then .advance n else if code = codeReverse then .reverse n else .goto p1
      let kind := req.trayKind
      (TakesNext s a code → code ∈ executorCodes → s.thermal.power ≠ .normal → fails .standby) ∧
      (s.thermal.power = .normal →
        (TakesNext s a code → needsTray → t.state = .trayOut → fails .trayOut) ∧
        (TakesNext s a codeGoto → t.state ≠ .trayOut → t.n ≤ p1 → fails .badParam) ∧
        (TakesNext s a code → change → t.state = .jammed → (code = codeGoto → p1 < t.n) → fails .jammed) ∧
        (TakesNext s a codeFade →
          let level := min p1 1023
          let rate := min p2 2550
          goesOn (({ u with cx := { s.cx with showLevel := if l.f < level then level else s.cx.showLevel } } : State).doing
            (act (.fade level rate) false .fading) |>.ramping level rate true false)) ∧
        (TakesNext s a codeLamp → p1 ≠ 0 →
          let waits := u.doing (act (.lamp true) false .warming)
          let cool := s.thermal.fanFault = false ∧ s.thermal.sensorFault = false
          (cool → (l.state = .off ∨ (l.state = .tripped ∧ s.thermal.th < st.tr)) → goesOn waits.warmingBegun) ∧
          (¬cool → (l.state = .off ∨ (l.state = .tripped ∧ s.thermal.th < st.tr)) →
            goesOn (closed .thermalHold (State.latched .coolingFault (State.dutied { statusShown a s with
              lamp := { l.unlit .tripped with
                warmCount := 0, failures := 0, warmTarget := 20 * ((200000 + l.h) / (2 * l.h)) }
              thermal := { s.thermal with runOn := some s.now } })))) ∧
          (l.state = .warming → goesOn waits) ∧
          (l.state = .tripped → st.tr ≤ s.thermal.th → goesOn (closed .thermalHold (statusShown a s))) ∧
          ((l.state = .on ∨ l.state = .failed) → goesOn (closed .ok (statusShown a s)))) ∧
        (TakesNext s a codeLamp → p1 = 0 →
          (l.state = .on → goesOn ((u.doing (act (.lamp false) false .fading)).ramping l.f st.blankRate true true)) ∧
          ((l.state = .warming ∨ l.state = .failed) →
            goesOn (closed .ok (statusShown a s).lampOut)) ∧
          ((l.state = .off ∨ l.state = .tripped) → goesOn (closed .ok (statusShown a s)))) ∧
        (TakesNext s a codeDissolve →
          let rate := min p1 2550
          (l.dark = true →
            goesOn ((u.doing (act (.dissolve rate) false .fadingIn)).ramping s.cx.showLevel rate true false)) ∧
          (l.dark = false → t.state ≠ .trayOut →
            goesOn ((u.doing (act (.dissolve rate) true .fadingOut)).ramping l.f rate true false))) ∧
        (TakesNext s a code → change → kind.plannable t.n = true →
          (st.changeMode = .dark → l.dark = false → t.state ≠ .trayOut → t.state ≠ .jammed →
            goesOn ((u.doing { act req false .blanking with restore := some (l.q / 65536) }).ramping
              l.f st.blankRate true false)) ∧
          (st.changeMode = .opened → liftsAtOnce s →
            begins { u.doing (issued req) with tray := lifts kind false (Plan.of t.n t.slot kind) }) ∧
          (st.changeMode = .opened → t.topOn = true → t.state = .ready → t.request = none →
            st.slotBase = 0 → (st.skip = false ∨ code = codeGoto) → (Plan.of t.n t.slot kind).toGo ≠ 0 →
            begins { u.doing (issued req) with tray :=
              { lifts kind false (Plan.of t.n t.slot kind) with gate := .empty, state := .rotate } }) ∧
          (st.changeMode = .dark → l.dark = true → l.window = false → liftsAtOnce s →
            begins { u.doing { issued req with window := true } with
              lamp := { l with window := true, darkOwed := false, darkSent := false }
              tray := lifts kind true (Plan.of t.n t.slot kind) }) ∧
          (st.changeMode = .opened → t.state = .ready → t.request = none → (st.skip = false ∨ code = codeGoto) →
            t.slot < t.n → slotFound (Plan.of t.n t.slot kind).dest i s →
            let v : State := { u.doing (issued req) with shadow := s.shadow.pinned i }
            ((s.shadow.entry i).isValid = true → t.topOn = false →
              begins { v with tray := { lifts kind false (Plan.of t.n t.slot kind) with
                destPin := some (Plan.of t.n t.slot kind).dest } }) ∧
            ((s.shadow.entry i).isValid = false →
              goesOn { v with tray := { t with
                request := some (TrayRequest.planned kind false (Plan.of t.n t.slot kind))
                destPin := some (Plan.of t.n t.slot kind).dest, wait := .destination, repin := false } })) ∧
          (st.changeMode = .opened → t.state = .ready → t.request = none → (st.skip = false ∨ code = codeGoto) →
            t.slot < t.n → slotMisses (Plan.of t.n t.slot kind).dest i s →
            goesOn (({ u.doing (issued req) with tray := { t with
              request := some (TrayRequest.planned kind false (Plan.of t.n t.slot kind))
              destPin := some (Plan.of t.n t.slot kind).dest, wait := .destination, repin := false } } : State).fetchingSlot
                (Plan.of t.n t.slot kind).dest i 1)) ∧
          (st.changeMode = .opened → t.state = .ready → t.request = none → st.skip = true → code ≠ codeGoto →
            1 < t.n → slotMisses (nextPos t.n kind.dir t.slot) i s →
            goesOn (({ u.doing (issued req) with tray := { t with
              request := some { TrayRequest.fresh kind false with skipping := true }
              wait := .search { pos := nextPos t.n kind.dir t.slot, find := n, found := [] }
              repin := false } } : State).fetchingSlot (nextPos t.n kind.dir t.slot) i 0)) ∧
          (st.changeMode = .opened → t.state = .unhomed → t.request = none →
            let homing (step : HomingStep) : Tray := { t with
              state := .homing, homingStep := step, timerStart := s.now, lowering := false, wait := .none, repin := false
              request := some (TrayRequest.fresh kind false) }
            (t.bottomOn = false → goesOn { u.doing (issued req) with tray := homing .lower }) ∧
            (t.bottomOn = true → t.topOn = false →
              begins { u.doing (issued req) with tray := { homing .lift with retry := false } }))) ∧
        (TakesNext s a codeClearJam → t.state = .jammed → t.request = none → t.bottomOn = false →
          goesOn { u.doing (issued .clearJam) with tray := { t with
            state := .recover, timerStart := s.now, wait := .none, repin := false
            request := some (TrayRequest.fresh .clearJam false) } }) ∧
        (TakesNext s a codeClearJam → (t.state = .ready ∨ t.state = .unhomed) → t.request = none →
          goesOn { closed .ok (statusShown a s) with
            tray := { t with remaining := 0, lastSlot := if t.known then t.slot else 0 } })))

/-- WAKE in NORMAL ends ok and changes nothing else; from a standby state it returns the power state to NORMAL, decides
the duty again, which is 100 with a cooling fault standing, and starts the tach watch afresh when the duty rises from 0.
STANDBY outside NORMAL ends standby. In NORMAL it ends ok, and the unit is in STANDBY at once with the fan at 0 when the
lamp is neither WARMING nor ON and no run-on is active, and in STANDBY_PENDING otherwise: an ON lamp ramps to F with the
off mark, a WARMING one is put OFF with its run-on, a FAILED one put OFF. The Cue Queue, the net count and the one-shot
key are emptied, the decoder stopped, a clip PLAYING fades out, in a player with nothing else in hand, and a focus run
is stopped. An action whose request is not issued ends aborted, its ramp frozen and its window closed, one of a cue with
an EXEC_FAIL record; one whose request lifts, rotates, drops, settles, homes or recovers keeps its place, marked, until
the transport answers. That the deferral is evaluated at once is assumption 37, that a WAKE leaves a clip that is fading
as it is is 66, and that a lamp put OFF loses its pending firing is 68. -/
def Obligations.PowerCommandsWhenTaken : Prop :=
  ∀ (s : State) (a : RamAccess) (x : Action) (q : TrayRequest),
    (TakesNext s a codeWake → s.thermal.power = .normal →
      Ends .statusBlockWriteLanded s (State.ended .ok 0 (plainLastSlot s) (statusShown a s))) ∧
    (TakesNext s a codeWake → s.thermal.power ≠ .normal →
      let h := s.thermal
      let zone := match h.zone with
        | 0 => 30
        | 1 => 55
        | 2 => 80
        | _ => 100
      let d :=
        if h.fanFault = true ∨ h.failTh = 4 ∨ h.failTg = 4 then 100
        else if s.lamp.state = .warming ∨ s.lamp.state = .on ∨ h.runOn ≠ none then max 55 zone
        else zone
      Ends .statusBlockWriteLanded s (State.ended .ok 0 (plainLastSlot s) { statusShown a s with
        thermal := { h with
          power := .normal, duty := d, tachStart := if h.duty = 0 ∧ d ≠ 0 then s.now else h.tachStart } })) ∧
    (TakesNext s a codeStandby → s.thermal.power ≠ .normal →
      Ends .statusBlockWriteLanded s (State.ended .standby 0 (plainLastSlot s) (statusShown a s))) ∧
    (TakesNext s a codeStandby → s.thermal.power = .normal → stopsPlainly s.clip →
      let v := statusShown a s
      let t := s.tray
      let stands (u : State) : Prop := Ends .statusBlockWriteLanded s (u.standingBy.ended .ok 0 (plainLastSlot s))
      (s.cx.action = none → stands v) ∧
      (s.cx.action = some x → x.source.isCommand = false → logRoom s →
        (x.phase ≠ .moving → x.phase ≠ .warming →
          stands (({ v with lamp := { s.lamp with ramp := none } } : State).actionEnded x .aborted (x.answer s))) ∧
        ((x.phase = .warming ∨ (x.phase = .moving ∧ x.issued = false)) →
          stands (v.actionEnded x .aborted (x.answer s)))) ∧
      (s.cx.action = some x → x.phase = .moving → x.issued = true → x.stopped = false → t.request = some q →
        q.stopRequested = false →
        (t.state = .lift ∨ t.state = .rotate ∨ t.state = .drop ∨ t.state = .settle ∨ t.state = .homing
          ∨ t.state = .recover) →
        stands { v.doing { x with stopped := true } with
          tray := { t with request := some { q with stopRequested := true } } }))

/-- APPLY copies the pending settings into the apply record, in place of one that waits, and stays ACTIVE. When a curve
load is needed, the load starts at point 0 with the curve's dirty mark cleared. With a load in flight: one of the curve
now selected goes on where it stands, one of the other is abandoned, and a new one started when it is needed. -/
def Obligations.ApplyWhenTaken : Prop :=
  ∀ (s : State) (a : RamAccess) (ld : Loading), TakesNext s a codeApply →
    let p := s.hdr.pend
    let takes (l : Lamp) : Prop := Ends .statusBlockWriteLanded s { (statusShown a s).active with lamp := l }
    let dirty := match p.sel with
      | .a => s.lamp.dirtyA
      | .b => s.lamp.dirtyB
    let needed := s.hdr.settings.curveBase ≠ 0 ∧ (s.lamp.curve ≠ .loaded p.sel ∨ dirty = true)
    let started : Lamp :=
      { (s.lamp.setDirty p.sel false) with applyRec := some p, loader := some { curve := p.sel, index := 0 } }
    (s.lamp.loader = none → ¬needed → takes { s.lamp with applyRec := some p }) ∧
    (s.lamp.loader = none → needed → takes started) ∧
    (s.lamp.loader = some ld → ld.curve = p.sel → takes { s.lamp with applyRec := some p }) ∧
    (s.lamp.loader = some ld → ld.curve ≠ p.sel → needed → takes started) ∧
    (s.lamp.loader = some ld → ld.curve ≠ p.sel → ¬needed →
      takes { s.lamp with applyRec := some p, loader := none })

/-- FOCUS in NORMAL starts a COMMAND run, inward when P1 is 0, for P2 milliseconds held within 10..4,000, and stays
ACTIVE; it takes the motor over from a run of the remote or the panel. Outside NORMAL it ends standby. INJECT: a
parameter out of range ends bad_param; outside NORMAL it ends standby; a frame for another unit only ends ok, and with
foreign logging on it is logged as an injected FOREIGN record with tape time 0. A frame for this unit is logged as an
injected cue with tape time 0, and ends ok: a MARK does no more; HOLD adds CUE and sets the hold timer, which a
parameter of 0 stops; CLIP_STOP fades a playing clip out; CLIP hands a CUT of the clip to the player; and a sequenced
cue is appended to a queue of fewer than 8, with auto-hold following the depth, as an injected entry, which an IDLE
executor takes up at once, here a FADE; a GOTO beyond the tray is only logged, with BAD_PARAM, and at a full queue it is
logged with DROPPED and cue_fault latched. The parameters are judged before the power state (assumption 35). That a run
starts whatever stall was reported before is assumption 67, and that the record is handed over before the cue acts is
63. -/
def Obligations.FocusAndInjectWhenTaken : Prop :=
  ∀ (s : State) (a : RamAccess) (x : Action) (kind : SeqKind) (i : Nat) (pl : PlayingClip),
    (TakesNext s a codeFocus →
      (s.thermal.power ≠ .normal →
        Ends .statusBlockWriteLanded s (State.ended .standby 0 (plainLastSlot s) (statusShown a s))) ∧
      (s.thermal.power = .normal → (∀ f ∈ s.remote.focus, f.owner ≠ .command) →
        Ends .statusBlockWriteLanded s
          { (statusShown a s).active with
            remote := { s.remote with focus := some {
              inward := decide (s.hdr.record.p1 = 0), owner := .command, start := s.now
              limit := clampTo 10 4000 s.hdr.record.p2.toNat * 1000, lastRepeat := s.now } } })) ∧
    (TakesNext s a codeInject →
      let p1 := s.hdr.record.p1.toNat
      let p2 := s.hdr.record.p2.toNat
      let p3 := s.hdr.record.p3.toNat
      let bad := 15 < p1 ∨ 15 < p2 ∨ 4095 < p3
      (bad → Ends .statusBlockWriteLanded s (State.ended .badParam 0 (plainLastSlot s) (statusShown a s))) ∧
      (¬bad → s.thermal.power ≠ .normal →
        Ends .statusBlockWriteLanded s (State.ended .standby 0 (plainLastSlot s) (statusShown a s))) ∧
      (¬bad → s.thermal.power = .normal → addressed p1 s = false → s.hdr.settings.foreignLog = false →
        Ends .statusBlockWriteLanded s (State.ended .ok 0 (plainLastSlot s) (statusShown a s))) ∧
      (¬bad → s.thermal.power = .normal → addressed p1 s = false → s.hdr.settings.foreignLog = true → logRoom s →
        Ends .statusBlockWriteLanded s (State.ended .ok 0 (plainLastSlot s)
          ((statusShown a s).logged (.foreign true p1 p2 p3 0)))) ∧
      (¬bad → s.thermal.power = .normal → addressed p1 s = true → logRoom s →
        let fl := plainFlags true
        let cued (fl : CueFlags) : State := (statusShown a s).logged (.cue fl p1 p2 p3 0)
        let ok (u : State) : Prop := Ends .statusBlockWriteLanded s (State.ended .ok 0 (plainLastSlot s) u)
        let beyond := kind = .goto ∧ s.tray.n ≤ p3
        let depth := s.cx.queue.length + 1
        (p2 = 10 → ok (cued fl)) ∧
        ((p2 = 0 ∨ 10 < p2) → ok (cued { fl with unknownKind := true })) ∧
        (p2 = 9 → ok { cued fl with
          deck := { s.deck with cue := true, holdUntil := if p3 = 0 then none else some (s.now + p3 * 100000) } }) ∧
        (p2 = 8 → s.clip.state = .playing → s.clip.playing = some pl → stopsPlainly s.clip →
          ok { cued fl with clip := ClipPlayer.retarget s.now { s.clip with
            state := .fadingOut, fadeCount := fadeLength pl.desc.rate } }) ∧
        (p2 = 7 → p3 / 64 % 2 = 0 → clipMisses (p3 % 64) i s → ok ((cued fl).fetchingClip (p3 % 64) i .injected)) ∧
        (p2 = SeqKind.code kind → beyond → ok (cued { fl with badParam := true })) ∧
        (p2 = SeqKind.code kind → ¬beyond → busyAction s x → s.cx.queue.length < 8 →
          ok { cued fl with
            cx := { s.cx with
              queue := s.cx.queue ++ [{ kind := kind, param := p3, injected := true, tapeTime := 0 }] }
            deck := { s.deck with auto :=
              if s.hdr.settings.autoHold then
                (if 6 ≤ depth then true else if depth ≤ 2 then false else s.deck.auto)
              else s.deck.auto } }) ∧
        (p2 = SeqKind.code kind → ¬beyond → busyAction s x → 8 ≤ s.cx.queue.length →
          ok (State.latched .cueFault (cued { fl with dropped := true }))) ∧
        (s.cx.action = none → p2 = 5 →
          let level := if p3 / 256 = 15 then 1023 else 68 * (p3 / 256)
          let rate := p3 % 256
          ok ((({ cued fl with
              cx := { s.cx with showLevel := if s.lamp.f < level then level else s.cx.showLevel }
              deck := { s.deck with auto := if s.hdr.settings.autoHold then false else s.deck.auto } } : State).doing
            (freshAction (.fade level rate) .injected false .fading)).ramping level rate true false))))

/-- CLIP with a number above 63 ends bad_param; outside NORMAL it ends standby; in QUEUE mode, with nothing before it
and no clip table set, it ends clip_invalid. A CUT at an IDLE player, of a descriptor that no entry holds, makes the
player FETCHING with a start record that holds a pin, and begins to fill the entry that is given up; the command stays
ACTIVE. Of one that an entry holds VALID, and that passes the check, it begins the play at once and ends ok, the entry
the most recently used and its pin released again. A CUT at a PLAYING player begins the fade, and the command stays
ACTIVE with a start record that holds a pin: it keeps the copy of a VALID entry, waits for the fetch of a FILLING one,
which it joins, and for that of one begun by it. CLIP_STOP at an IDLE player with nothing waiting only ends ok; at a
PLAYING one it starts the fade. The number is judged before the power state (assumption 35). -/
def Obligations.ClipCommandsWhenTaken : Prop :=
  ∀ (s : State) (a : RamAccess) (i used : Nat) (held : EntryData) (stale : Bool) (w0 w1 w2 w3 : Word),
    (TakesNext s a codeClip → 63 < s.hdr.record.p1.toNat →
      Ends .statusBlockWriteLanded s (State.ended .badParam 0 (plainLastSlot s) (statusShown a s))) ∧
    (TakesNext s a codeClip → s.hdr.record.p1.toNat ≤ 63 → s.thermal.power ≠ .normal →
      Ends .statusBlockWriteLanded s (State.ended .standby 0 (plainLastSlot s) (statusShown a s))) ∧
    (TakesNext s a codeClip → s.hdr.record.p1.toNat ≤ 63 → s.thermal.power = .normal →
      s.hdr.record.p2 ≠ 0 → s.clip.start = none → s.clip.requests = [] → s.hdr.settings.clipBase = 0 →
      Ends .statusBlockWriteLanded s (State.ended .clipInvalid 0 (plainLastSlot s) (statusShown a s))) ∧
    (TakesNext s a codeClip → s.hdr.record.p1.toNat ≤ 63 → s.hdr.record.p2 = 0 →
      clipMisses s.hdr.record.p1.toNat i s →
      Ends .statusBlockWriteLanded s
        ((statusShown a s).active.fetchingClip s.hdr.record.p1.toNat i (.command s.hdr.record.tag))) ∧
    (TakesNext s a codeClip → s.hdr.record.p1.toNat ≤ 63 → s.hdr.record.p2 = 0 → s.thermal.power = .normal →
      s.clip.start = none → s.clip.requests = [] → s.clip.queue = [] → s.hdr.settings.clipBase ≠ 0 →
      let n := s.hdr.record.p1.toNat
      let c := s.clip
      let source : ClipSource := .command s.hdr.record.tag
      let u := (statusShown a s).active
      let desc := descriptorIn w0 w1 w2 w3
      let found := s.shadow.find .clip n = some i
      let valid := found ∧ s.shadow.entry i = .valid held stale used ∧ held.copy = [w0, w1, w2, w3] ∧ desc.passes
      (c.state = .idle → valid → noLookupWaits { s with shadow := (s.shadow.pinned i).released i } →
        Ends .statusBlockWriteLanded s (State.ended .ok 0 (plainLastSlot s) { statusShown a s with
          shadow := (s.shadow.pinned i).released i, clip := ClipPlayer.begun n source desc s.now c })) ∧
      (∀ p, c.state = .playing → c.playing = some p →
        let fades (copy : Option (List Word)) : ClipPlayer := c.cutOff s.now p (StartRecord.cut n source copy)
        (s.shadow.find .clip n = none → s.shadow.victim = some i →
          Ends .statusBlockWriteLanded s (State.fetchingDescriptor n i { u with clip := fades none })) ∧
        (found → (s.shadow.entry i).isValid = false →
          Ends .statusBlockWriteLanded s { u with shadow := s.shadow.pinned i, clip := fades none }) ∧
        (valid → Ends .statusBlockWriteLanded s { u with
          shadow := s.shadow.pinned i, clip := fades (some [w0, w1, w2, w3]) }))) ∧
    (TakesNext s a codeClipStop → s.clip.state = .idle → s.clip.start = none → s.clip.requests = [] →
      s.clip.queue = [] →
      Ends .statusBlockWriteLanded s (State.ended .ok 0 (plainLastSlot s) (statusShown a s))) ∧
    (∀ p, s.clip.playing = some p → TakesNext s a codeClipStop → s.clip.state = .playing → s.clip.priming = false →
      s.clip.start = none → s.clip.requests = [] → s.clip.queue = [] →
      Ends .statusBlockWriteLanded s (State.ended .ok 0 (plainLastSlot s) { statusShown a s with
        clip := ClipPlayer.retarget s.now { s.clip with state := .fadingOut, fadeCount := fadeLength p.desc.rate } }))

/-- A result word composed after the hand-over lands. While another of the three is to land, it only leaves the
record's list. As the last of them lands, FAIL is set for a result other than ok and cleared for ok, and cmd_done is
latched. A STATUS write that shows CMDW clear makes a CLOSING record FREE, and an ACCEPTED one that RESET discarded; and
one that shows it set makes such a discarded record CLOSING. An EVENTS write sets IRQ pending when it shows an unmasked
event that the word before it did not, unless it was granted before a RESET. After the RESET pin each word that lands
for the first time leaves the words still unwritten, and RDY is set as the last of them lands. -/
def Obligations.StatusBlockWritesLand : Prop :=
  ∀ (s : State) (a : RamAccess) (i : Nat), Settled s → s.port.ram = some a → a.who = .statusWriter →
    (a.addr = 128 + 2 * i → a.afterHand = true → (i = 3 ∨ i = 4 ∨ i = 5) → i ∉ s.sw.unwritten →
      s.hdr.record.handed = true → i ∈ s.hdr.record.toLand →
      let left := removeIndex i s.hdr.record.toLand
      let u : State := { s with
        mem := memSetWord s.mem a.addr a.data
        sw := { s.sw with copy := s.sw.copy.setIfInBounds i a.data }
        hdr := { s.hdr with record := { s.hdr.record with toLand := left } } }
      (left ≠ [] → Ends .statusBlockWriteLanded s u) ∧
      (left = [] → Ends .statusBlockWriteLanded s (State.latched .cmdDone
        { u with sw := { u.sw with fail := decide (s.sw.resultCode ≠ .ok) } }))) ∧
    (a.afterHand = false →
      (a.addr = 128 → 0 ∉ s.sw.unwritten → bitOf a.data 2 = false → s.cx.pendingCmd = false →
        (s.hdr.record.state = .closing ∨ (s.hdr.record.state = .accepted ∧ s.hdr.record.discardMark = true)) →
        Ends .statusBlockWriteLanded s
          { statusShown a s with hdr := { s.hdr with record := CommandRecord.idle } }) ∧
      (a.addr = 128 → 0 ∉ s.sw.unwritten → bitOf a.data 2 = true → s.hdr.record.state = .accepted →
        s.hdr.record.discardMark = true →
        Ends .statusBlockWriteLanded s
          { statusShown a s with hdr := { s.hdr with record := { s.hdr.record with state := .closing } } }) ∧
      (a.addr = 132 → 2 ∉ s.sw.unwritten →
        let old := (s.sw.copy[2]?).getD 0
        Ends .statusBlockWriteLanded s { s with
          mem := memSetWord s.mem 132 a.data
          sw := { s.sw with
            copy := s.sw.copy.setIfInBounds 2 a.data
            irqPending := s.sw.irqPending
              || (!a.preReset && decide (a.data &&& ~~~old &&& s.hdr.settings.irqMask ≠ 0)) } }) ∧
      (a.addr = 128 + 2 * i → i < 64 → i ∈ s.sw.unwritten →
        (i = 0 → s.hdr.record.state = .free ∨ s.hdr.record.state = .active) →
        (i = 2 → a.data &&& s.hdr.settings.irqMask = 0) →
        let left := removeIndex i s.sw.unwritten
        Ends .statusBlockWriteLanded s { s with
          mem := memSetWord s.mem a.addr a.data
          sw := { s.sw with
            copy := s.sw.copy.setIfInBounds i a.data, unwritten := left
            rdy := s.sw.rdy || decide (left = []) } }))

/-! ## Header settings -/

/-- A write of GROUP_MASK, MODE, BLANK_RATE, FLOOR, MASTER, CURVE_SEL, VOLUME, DUCK or REMOTE_OPTIONS: the word is in
RAM and in the image, the setting in effect, or the pending one, is the value clamped or validated, and the word waits
to be corrected when it differs. -/
def Obligations.SettingsTakeEffect : Prop :=
  ∀ (w : LaneWrite) (s : State), HostReady s →
    let st := s.hdr.settings
    let p := s.hdr.pend
    let v (i : Nat) : Word := writtenWord i w s
    let n (i : Nat) : Nat := (writtenWord i w s).toNat
    Granted (.groupMask w) s (inEffect 5 { st with groupMask := (v 5).setWidth 7 } p (written 5 w s)) ∧
    Granted (.mode w) s
      (inEffect 6 { st with changeMode := if bitOf (v 6) 0 then .opened else .dark, skip := bitOf (v 6) 1 } p
        (written 6 w s)) ∧
    Granted (.blankRate w) s (inEffect 7 { st with blankRate := min 50 (n 7) } p (written 7 w s)) ∧
    Granted (.floor w) s (inEffect 8 st { p with f := max 48 (min 255 (n 8)) } (written 8 w s)) ∧
    Granted (.master w) s (inEffect 9 st { p with m := min 256 (n 9) } (written 9 w s)) ∧
    Granted (.curveSel w) s
      (inEffect 10 st { p with sel := if v 10 = 0 then .a else if v 10 = 1 then .b else p.sel } (written 10 w s)) ∧
    Granted (.volume w) s (inEffect 11 st { p with volume := min 255 (n 11) } (written 11 w s)) ∧
    Granted (.duck w) s (inEffect 12 st { p with duck := min 255 (n 12) } (written 12 w s)) ∧
    Granted (.remoteOptions w) s
      (inEffect 35 { st with
        sysCode := if n 35 % 256 < 32 then n 35 % 256 else st.sysCode
        override := bitOf (v 35) 8, wakeByRemote := bitOf (v 35) 9 } p (written 35 w s))

/-- A write of a thermal setting: TD is clamped to 80..115, and TT and TR in effect are clamped again against it and
corrected when that moves them; TT to TD + 5..140; TR to 40..TD − 5; GATE_LIMIT to 50..110, with the gate flag judged
against the last Tg; PC to 256..1023. The ceiling is worked out again after TD, GATE_LIMIT and PC. That the gate flag
follows a new GATE_LIMIT while the gate sensor is in fault too is the model's choice (assumption 50). -/
def Obligations.ThermalSettingsTakeEffect : Prop :=
  ∀ (w : LaneWrite) (s : State), HostReady s →
    let st := s.hdr.settings
    let p := s.hdr.pend
    let n (i : Nat) : Nat := (writtenWord i w s).toNat
    let td := max 80 (min 115 (n 16))
    let tt := clampTo (td + 5) 140 st.tt
    let tr := clampTo 40 (td - 5) st.tr
    let limit := max 50 (min 110 (n 19))
    let flag := if limit ≤ s.thermal.tg then true else if s.thermal.tg < limit - 5 then false else s.thermal.gateFlag
    Granted (.td w) s
      (inEffect 16 { st with td := td, tt := tt, tr := tr } p
        (State.corrected (decide (tr ≠ st.tr)) 18
          (State.corrected (decide (tt ≠ st.tt)) 17 (written 16 w s)))).recapped ∧
    Granted (.tt w) s (inEffect 17 { st with tt := clampTo (st.td + 5) 140 (n 17) } p (written 17 w s)) ∧
    Granted (.tr w) s (inEffect 18 { st with tr := clampTo 40 (st.td - 5) (n 18) } p (written 18 w s)) ∧
    Granted (.gateLimit w) s
      (State.recapped { inEffect 19 { st with gateLimit := limit } p (written 19 w s) with
        thermal := { s.thermal with gateFlag := flag } }) ∧
    Granted (.pc w) s
      (inEffect 20 { st with pc := max 256 (min 1023 (n 20)) } p (written 20 w s)).recapped

/-- A write of DWELL_LIMIT: 0 stands, 1..9 become 10 and more than 900 becomes 900. The limit in effect already
changes nothing; a new 0 returns the dwell timer to 0 and clears the flag; a new limit at or below the time counted
sets the flag and latches dwell_limit; any other is only in effect. A write of IRQ_MASK sets IRQ pending when the
last-written EVENTS holds an event that the new mask includes and the old one did not. A write of LIFE_LIMIT clears
the life flag when the limit is 0 or the count below it, and latches lamp_life when the count has reached it with the
flag clear. That the limit in effect already is no new limit is assumption 32. That a new limit below the time counted
leaves the timer above it, and latches dwell_limit again with the flag already set, is the model's choice (assumption
51). -/
def Obligations.LimitsAndMaskTakeEffect : Prop :=
  ∀ (w : LaneWrite) (s : State), HostReady s →
    let st := s.hdr.settings
    let v := (writtenWord 21 w s).toNat
    let limit := if v = 0 then 0 else max 10 (min 900 v)
    let u := inEffect 21 { st with dwellLimit := limit } s.hdr.pend (written 21 w s)
    let mask := writtenWord 4 w s
    let hours := (writtenWord 36 w s).toNat
    let x := inEffect 36 { st with lifeLimit := hours } s.hdr.pend (written 36 w s)
    (limit = st.dwellLimit → Granted (.dwellLimit w) s u) ∧
    (limit ≠ st.dwellLimit → limit = 0 →
      Granted (.dwellLimit w) s
        (State.recapped { u with thermal := { s.thermal with dwellUs := 0, dwellFlag := false } })) ∧
    (limit ≠ st.dwellLimit → limit ≠ 0 → limit * 1000000 ≤ s.thermal.dwellUs →
      Granted (.dwellLimit w) s
        (State.latched .dwellLimit (State.recapped { u with thermal := { s.thermal with dwellFlag := true } }))) ∧
    (limit ≠ st.dwellLimit → limit ≠ 0 → s.thermal.dwellUs < limit * 1000000 → Granted (.dwellLimit w) s u) ∧
    Granted (.irqMask w) s { inEffect 4 { st with irqMask := mask } s.hdr.pend (written 4 w s) with
      sw := { s.sw with
        irqPending := s.sw.irqPending || decide ((s.sw.copy[2]?).getD 0 &&& mask &&& ~~~st.irqMask ≠ 0) } } ∧
    ((hours = 0 ∨ s.lamp.minutes < hours * 60) →
      Granted (.lifeLimit w) s { x with lamp := { s.lamp with lifeReported := false } }) ∧
    (hours ≠ 0 → hours * 60 ≤ s.lamp.minutes → s.lamp.lifeReported = true → Granted (.lifeLimit w) s x) ∧
    (hours ≠ 0 → hours * 60 ≤ s.lamp.minutes → s.lamp.lifeReported = false →
      Granted (.lifeLimit w) s (State.latched .lampLife { x with lamp := { s.lamp with lifeReported := true } }))

/-- The high word of a base is written with a candidate that fails the region check, or that is the base in effect:
the base stays, and both words wait to be corrected when the images differ from it. A candidate that passes and is a
change is the base in effect. A new SLOT_BASE or CLIP_BASE other than 0 frees the unpinned VALID entries of its kind,
marks the pinned ones stale and restarts the FILLING ones at their new addresses; 0, with none FILLING and no lookup
waiting for an entry, does the first two. A new CURVE_BASE marks both curves dirty, but for one being loaded, whose load
restarts at point 0; 0 marks both clean and abandons the load. A new RING_BASE starts the ring afresh. -/
def Obligations.BaseIsChecked : Prop :=
  ∀ (r : Region) (w : LaneWrite) (s : State), HostReady s →
    let st := s.hdr.settings
    let base := (writtenWord (r.word + 1) w s).toNat * 65536 + (s.hdr.imageOf r.word).toNat
    let x := (written (r.word + 1) w s).withSettings (st.withBase r base)
    let table (k : RecKind) : Vector WatchEntry 16 := s.shadow.table.map (WatchEntry.afterBase k base)
    let tabled (k : RecKind) : State :=
      State.retabled (table k) { x with
        shadow := { s.shadow with
          fetchList := s.shadow.fetchList.filter (fun i => decide ((table k)[i]?.getD .free ≠ .free)) } }
    ((st.regionOk r base = false ∨ base = st.base r) →
      Granted (baseCommand r w) s
        (State.corrected (decide (base ≠ st.base r)) (r.word + 1)
          (State.corrected (decide (base ≠ st.base r)) r.word (written (r.word + 1) w s)))) ∧
    (st.regionOk r base = true → base ≠ st.base r →
      (r = .slot → (base ≠ 0 ∨ (s.shadow.fillingKeys .slot = [] ∧ noLookupWaits s)) →
        Granted (.slotBase w) s (tabled .slot)) ∧
      (r = .clip → (base ≠ 0 ∨ (s.shadow.fillingKeys .clip = [] ∧ noLookupWaits s)) →
        Granted (.clipBase w) s (tabled .clip)) ∧
      (r = .curve → s.lamp.loader = none →
        Granted (.curveBase w) s
          { x with lamp := { s.lamp with dirtyA := decide (base ≠ 0), dirtyB := decide (base ≠ 0) } }) ∧
      (∀ ld, r = .curve → s.lamp.loader = some ld →
        Granted (.curveBase w) s { x with lamp :=
          if base = 0 then { s.lamp with dirtyA := false, dirtyB := false, loader := none }
          else { s.lamp with
            dirtyA := decide (ld.curve ≠ .a), dirtyB := decide (ld.curve ≠ .b)
            loader := some { curve := ld.curve, index := 0 } } }) ∧
      (r = .ring → Granted (.ringBase w) s x.ringAfresh))

/-- A write of RING_SIZE is clamped to 16..4096 and checked: a size that passes and is a change starts the ring
afresh, any other leaves the size. A write of RING_RD below RING_SIZE is accepted and handed to the Log Writer, which
takes it at the end of the record it writes, if it writes one; any other is not accepted. -/
def Obligations.RingSizeAndRingRd : Prop :=
  ∀ (w : LaneWrite) (s : State), HostReady s →
    let st := s.hdr.settings
    let p := s.hdr.pend
    let size := max 16 (min 4096 (writtenWord 32 w s).toNat)
    let rd := (writtenWord 33 w s).toNat
    (size ≠ st.ringSize → st.sizeOk size = true →
      Granted (.ringSize w) s (inEffect 32 { st with ringSize := size } p (written 32 w s).ringAfresh)) ∧
    ((size = st.ringSize ∨ st.sizeOk size = false) → Granted (.ringSize w) s (inEffect 32 st p (written 32 w s))) ∧
    (st.ringSize ≤ rd → Granted (.ringRd w) s (inEffect 33 st p (written 33 w s))) ∧
    (rd < st.ringSize →
      let x := written 33 w s
      Granted (.ringRd w) s (inEffect 33 st p { x with
        hdr := { x.hdr with ringRd := rd }
        log := if s.log.writing.isSome then { s.log with pendingRd := some rd } else { s.log with rd := rd } }))

/-- A write of CUE_OPTIONS puts its four flags in effect. Decoding off discards a frame in progress and returns the
aligner to HUNT. Auto-hold on adds AUTO at a queue of 6 or more and removes it at 2 or less; off removes it. -/
def Obligations.CueOptionsTakeEffect : Prop :=
  ∀ (w : LaneWrite) (s : State), HostReady s →
    let v := writtenWord 34 w s
    let len := s.cx.queue.length
    let u := inEffect 34 { s.hdr.settings with
      decoding := bitOf v 0, foreignLog := bitOf v 1, errorLog := bitOf v 2, autoHold := bitOf v 3 }
      s.hdr.pend (written 34 w s)
    Granted (.cueOptions w) s { u with
      cue := if bitOf v 0 then s.cue else { s.cue with
        frame := .between, fields := [], locked := false, window := [], group := [], spoiled := false }
      deck := { s.deck with
        auto := if bitOf v 3 then (if 6 ≤ len then true else if len ≤ 2 then false else s.deck.auto) else false } }

/-! ## Other accesses of the host -/

/-- A host write outside the header and the protected areas stores its bytes. Each VALID entry it overlaps is freed
when unpinned and marked stale when pinned, and shadow_stale latched; and a FILLING one restarts. Of the curves it
overlaps, the load of the one being loaded restarts at point 0, and any other is marked dirty. -/
def Obligations.WatchedWriteIsCompared : Prop :=
  ∀ (a : WordAddr) (w : LaneWrite) (s : State), HostReady s → 128 ≤ a.toNat → inRing s.hdr.settings a = false →
    let b := LaneWrite.bytes w a
    let base := s.hdr.settings.curveBase
    let hits : CurveSel → Bool
      | .a => overlaps b.1 b.2 base 66
      | .b => overlaps b.1 b.2 (base + 66) 66
    let loading (c : CurveSel) : Bool := decide (s.lamp.loader.map (·.curve) = some c)
    let x : State := { s with
      mem := memStore s.mem a w
      lamp := if base = 0 then s.lamp else { s.lamp with
        dirtyA := s.lamp.dirtyA || (hits .a && !loading .a)
        dirtyB := s.lamp.dirtyB || (hits .b && !loading .b)
        loader := s.lamp.loader.map fun ld => if hits ld.curve then { ld with index := 0 } else ld } }
    Granted (.hostWriteWatched a (.write w)) s (State.retabled (s.shadow.table.map (WatchEntry.afterWrite b.1 b.2)) x)

/-- A write of P1, P2, P3, of the tag lane of CMD, of a base's low word or of an unused header word only stores the
bytes, in RAM and in the image. A host write into the Status Block or into the cue ring area, while a ring is set,
changes nothing in RAM and no record, and latches protect. -/
def Obligations.PlainAndProtectedWrites : Prop :=
  ∀ (i : BitVec 6) (a : WordAddr) (w : LaneWrite) (s : State), HostReady s →
    (otherHeaderWrite i w = true → Granted (.headerWriteOther i w) s (written i.toNat w s)) ∧
    ((inStatusBlock a = true ∨ (128 ≤ a.toNat ∧ inRing s.hdr.settings a = true)) →
      Ends (.hostWriteProtected a w) s (State.latched .protect s))

/-- The RAM. A store changes the bytes it names and no other byte of memory: a word its two, a byte its one. The
arbiter grants the first that waits of: an urgent class S request; with the guard count at 8, the Status Writer, the
Header Monitor, the Log Writer, the Record Shadow, the Curve Loader; the host; the first class L requester; a plain
class S request; the first class F requester. At a grant of the host the guard count rises by 1, to at most 8, when a
class L or F request waits, and becomes 0 when none does; a class S grant leaves it, and any other grant makes it 0.
A grant is decided when the RAM is free and something waits, and not otherwise. The host's access waits from its start to
its grant; that a read of a LAMP_MIN word is no exception is the model's choice (assumption 73). -/
def Obligations.StoreChangesItsBytesOnly : Prop :=
  ∀ (m : List Host.Cell) (a : WordAddr) (w : LaneWrite) (x : Nat) (p : Port) (urgent : Bool) (s : State)
    (who : Requester) (k : HostAccess),
    (Memory.wf m = true →
      memByte (memStore m a w) x =
        match w with
        | .word v => if x = 2 * a.toNat then loByte v else if x = 2 * a.toNat + 1 then hiByte v else memByte m x
        | .low v => if x = 2 * a.toNat then v else memByte m x
        | .high v => if x = 2 * a.toNat + 1 then v else memByte m x) ∧
    (let r := p.reqs
     let classL := [(Requester.statusWriter, r.statusWriter.isSome), (.headerMonitor, r.headerMonitor.isSome),
       (.logWriter, r.logWriter.isSome)]
     let classF := [(Requester.recordShadow, r.recordShadow.isSome), (.curveLoader, r.curveLoader.isSome)]
     let atGuard (l : List (Requester × Bool)) := l.map fun e => (e.1, e.2 && decide (p.guard = 8))
     let order := (Requester.clipPlayer, r.clipPlayer.isSome && urgent) :: (atGuard classL ++ (atGuard classF ++
       ((.host, p.hostWaits) :: (classL ++ ((.clipPlayer, r.clipPlayer.isSome) :: classF)))))
     let lfWaits := (classL ++ classF).any (·.2)
     choose p urgent = (order.find? (·.2)).map (·.1) ∧
     guardAfter p .host = (if lfWaits then min 8 (p.guard + 1) else 0) ∧
     guardAfter p .clipPlayer = p.guard ∧
     (who ≠ .host → who ≠ .clipPlayer → guardAfter p who = 0)) ∧
    (p.access = none → p.hostWaits = false) ∧
    (p.access = some k → p.hostWaits = !k.inRam) ∧
    (s.port.ram = none → choose s.port s.clip.urgent = some who →
      (grant s).port.ram.map (·.who) = some who ∧ (grant s).port.guard = guardAfter s.port who) ∧
    ((s.port.ram ≠ none ∨ choose s.port s.clip.urgent = none) → grant s = s)

/-- A read of STATUS, of EVENTS or of any other word is granted and changes nothing else. At its end the word the RAM
gave is returned; a STATUS read clears IRQ pending when neither STATUS nor EVENTS is dirty; an EVENTS read clears the
latches that the last-written EVENTS shows; and a read of any other word gives no notice. The end of a write returns
nothing. A read that finds the RAM busy holds WAIT. That the reads of the other words have no row of their own is
assumption 55. -/
def Obligations.ReadsAndTheirNotices : Prop :=
  ∀ (s : State) (a : HostAccess) (r : RamAccess) (w : LaneWrite) (addr : WordAddr),
    (HostReady s →
      (Granted .statusRead s s ∧ ∃ t, exec .statusRead s = .next t
        ∧ t.port.ram.map (fun g => (g.addr, g.data)) = some (128, memWord s.mem 128)) ∧
      (Granted .eventsRead s s ∧ ∃ t, exec .eventsRead s = .next t
        ∧ t.port.ram.map (fun g => (g.addr, g.data)) = some (132, memWord s.mem 132)) ∧
      (Granted (.hostWriteWatched addr .read) s s ∧ ∃ t, exec (.hostWriteWatched addr .read) s = .next t
        ∧ t.port.ram.map (fun g => (g.addr, g.data)) = some (2 * addr.toNat, memWord s.mem (2 * addr.toNat)))) ∧
    (Settled s → s.port.access = none → s.port.ram = some r →
      Ends (.hostWriteWatched addr .read) s s ∧ ∃ t, exec (.hostWriteWatched addr .read) s = .next t
        ∧ t.waitLine = true ∧ t.port.ram = some r) ∧
    (Settled s → s.port.access = some a → a.inRam = true → s.port.ram = some r → r.who = .host → s.port.backlog = [] →
      (a.kind = .read → a.addr.toNat = 64 →
        Returns .hostAccessEnd s { s with sw := { s.sw with
          irqPending := s.sw.irqPending && (s.sw.dirty.contains 0 || s.sw.dirty.contains 2) } } r.data) ∧
      (a.kind = .read → a.addr.toNat = 66 →
        Returns .hostAccessEnd s { s with sw := { s.sw with
          latches := s.sw.latches &&& ~~~((s.sw.copy[2]?).getD 0) } } r.data) ∧
      (a.kind = .read → a.addr.toNat ≠ 64 → a.addr.toNat ≠ 66 → Returns .hostAccessEnd s s r.data) ∧
      (a.kind = .write w → Returns .hostAccessEnd s s s.port.readData))

/-- A corrective write lands: the word is in RAM, it is the image, and it waits for correction no longer. A word of a
ring record lands: the first three are counted; after the fourth W has advanced, a pending Rd takes effect, and the
record leaves the buffer. Of the records still staged the Log Writer takes the first when the ring then has room, and
with the ring full it drops one that is alone, counts it in the overflow counter and latches cue_fault; with none staged
it is IDLE. A word of an abandoned record is only in RAM. The word that the Log Writer asks to write next is the one that
its record's kind, CUE, FOREIGN, FRAME_ERROR or EXEC_FAIL, gives, at the place of record W in the ring. -/
def Obligations.CorrectionsAndLogWordsLand : Prop :=
  ∀ (s : State) (a : RamAccess) (k : Nat) (done next : LogRecord) (rest : List LogRecord),
    Settled s → s.port.ram = some a →
    let m := memSetWord s.mem a.addr a.data
    let w := (s.log.w + 1) % s.hdr.settings.ringSize
    let rd := s.log.pendingRd.getD s.log.rd
    let full := (w + 1) % s.hdr.settings.ringSize = rd
    let idle : State := { s with mem := m, log := { s.log with
      writing := none, staging := [], w := w, rd := rd, pendingRd := none } }
    (a.who = .headerMonitor →
      Ends .correctionLanded s { s with
        mem := m
        hdr := { s.hdr with
          image := s.hdr.image.setIfInBounds (a.addr / 2) a.data
          corrections := removeIndex (a.addr / 2) s.hdr.corrections } }) ∧
    (s.log.writing = some k → s.log.staging = done :: rest → k < 4 →
      let flag (b : Bool) (v : Nat) : Nat := if b then v else 0
      let causeOf : FrameCause → Nat
        | .invalidGroup => 0
        | .truncated => 1
        | .noEnd => 2
        | .check => 3
      let words : List Nat := match done with
        | .cue f u kind p time =>
          [flag f.dropped 16 + flag f.unknownKind 32 + flag f.badParam 64 + flag f.injected 128, u + 16 * kind, p, time]
        | .foreign injected u kind p time => [1 + flag injected 128, u + 16 * kind, p, time]
        | .frameError cause count time => [2, causeOf cause + 16 * count, 0, time]
        | .execFail injected kind code time => [3 + flag injected 128, 16 * kind, code.num, time]
      nextLogWord s = some (s.hdr.settings.ringBase + 8 * s.log.w + 2 * k, BitVec.ofNat 16 (words.getD k 0))) ∧
    (a.who = .logWriter → a.void = true → Ends .logWordLanded s { s with mem := m }) ∧
    (a.who = .logWriter → a.void = false → s.log.writing = some k → k < 3 →
      Ends .logWordLanded s { s with mem := m, log := { s.log with writing := some (k + 1) } }) ∧
    (a.who = .logWriter → a.void = false → s.log.writing = some k → k = 3 →
      (s.log.staging.length ≤ 1 → Ends .logWordLanded s idle) ∧
      (s.hdr.settings.ringBase ≠ 0 → s.log.staging = done :: next :: rest → ¬full →
        Ends .logWordLanded s { idle with log := { idle.log with staging := next :: rest, writing := some 0 } }) ∧
      (s.hdr.settings.ringBase ≠ 0 → s.log.staging = [done, next] → full →
        Ends .logWordLanded s idle.overflowed))

/-! ## The tray -/

/-- The dark event finds an action that holds its request: the request is issued. A GOTO of a READY transport, with the
lamp dark, no slot table set and the arm below its top limit, is planned the shorter way round, an exact half forward,
and LIFT begins, which releases the pin of the slide shown. With no action the event is only taken. That the event is a
command of its own is assumption 11. -/
def Obligations.DarkEventIssuesTheRequest : Prop :=
  ∀ (s : State) (x : Action) (target : Nat), Settled s → s.lamp.darkSent = true →
    let l := { s.lamp with darkSent := false }
    (s.cx.action = none → Ends .darkEvent s { s with lamp := l }) ∧
    (s.cx.action = some x → x.phase = .moving → x.window = true → x.issued = false → x.request = .goto target →
      s.tray.state = .ready → s.tray.request = none → s.lamp.dark = true → target < s.tray.n →
      s.tray.slot < s.tray.n → s.hdr.settings.slotBase = 0 → s.tray.topOn = false →
      let d := (target + s.tray.n - s.tray.slot) % s.tray.n
      Lifts .darkEvent s { s with
        lamp := l
        cx := { s.cx with action := some { x with issued := true } }
        tray := { s.tray with
          state := .lift, retry := false, lowering := false, timerStart := s.now, wait := .none, repin := false
          request := some {
            kind := .goto target, dark := true, examined := 0, stopRequested := false, skipping := false
            found := [], toFind := 0, homed := false
            plan := some (if d ≤ s.tray.n / 2 then { dir := .forward, dest := target, toGo := d }
              else { dir := .reverse, dest := target, toGo := s.tray.n - d }) } } })

/-- ARM_TOP becomes active: a lift ends with the gate EMPTY and goes to ROTATE, or to DROP with no positions to go or
a stop requested; during a retry's lowering, and in a state that does not wait for it, it only moves the arm position;
in homing's lift the rotation begins. Inactive, it only moves the arm position, which is BOTTOM while ARM_BOTTOM is
active, TOP while ARM_TOP is and BETWEEN otherwise; which it is with both active is the model's choice (assumption
71). -/
def Obligations.ArmTopEndsTheLift : Prop :=
  ∀ s : State, Settled s →
    let t := s.tray
    let up : Tray := { t with topOn := true }
    (t.state = .lift → t.lowering = false → t.stopping = false → t.toGo ≠ 0 →
      Ends (.armTop true) s { s with tray := { up with gate := .empty, state := .rotate, timerStart := s.now } }) ∧
    (t.state = .lift → t.lowering = false → (t.stopping = true ∨ t.toGo = 0) →
      Ends (.armTop true) s
        { s with tray := { up with gate := .empty, state := .drop, timerStart := s.now, wait := .none } }) ∧
    (t.state = .lift → t.lowering = true → Ends (.armTop true) s { s with tray := up }) ∧
    (t.state = .homing → t.homingStep = .lift → t.lowering = false →
      Ends (.armTop true) s { s with tray := { up with
        gate := .empty, homingStep := .rotate, homingCount := 0, timerStart := s.now } }) ∧
    (t.state ≠ .lift → t.state ≠ .homing → Ends (.armTop true) s { s with tray := up }) ∧
    Ends (.armTop false) s { s with tray := { t with topOn := false } } ∧
    t.arm = (if t.bottomOn then .bottom else if t.topOn then .top else .between)

/-- ARM_BOTTOM becomes active: a drop ends, of a change and of homing; a retry's lowering ends and the lift is begun
afresh; a recovery ends in READY, or UNHOMED with the position not known, answers its request, and the action that waits
ends ok, or aborted when it was stopped; in homing the lowering gives way to the lift, which releases the pin of the
slide shown; and a state that does not wait for it only has the arm position. Inactive, it only moves that. A lift that
follows finds the arm below its top limit, or ends at once. The values of an answer without a plan are assumption 28. -/
def Obligations.ArmBottomEndsTheDrop : Prop :=
  ∀ (s : State) (seen : Bool) (x : Action) (r : TrayRequest), Settled s →
    let t := s.tray
    let down : Tray := { t with bottomOn := true }
    (t.state = .drop →
      Ends (.armBottom true seen) s
        { s.dropEnded seen with tray := { (s.dropEnded seen).tray with state := .settle } }) ∧
    (t.state = .homing → t.homingStep = .drop →
      Ends (.armBottom true seen) s
        { s.dropEnded seen with tray := { (s.dropEnded seen).tray with homingStep := .settle } }) ∧
    (t.state = .lift → t.lowering = true → t.topOn = false →
      Ends (.armBottom true seen) s { s with tray := { down with lowering := false, timerStart := s.now } }) ∧
    (t.state = .lift → t.lowering = true → t.topOn = true → t.stopping = false → t.toGo ≠ 0 →
      Ends (.armBottom true seen) s { s with tray := { down with
        lowering := false, gate := .empty, state := .rotate, timerStart := s.now } }) ∧
    (t.state = .recover → awaitsTray s x r →
      Ends (.armBottom true seen) s
        (({ s with tray := Tray.answered { down with state := if t.known then .ready else .unhomed } } : State).moveEnded
          x (if x.stopped then .aborted else .ok))) ∧
    (t.state = .homing → t.homingStep = .lower → t.topOn = false →
      Lifts (.armBottom true seen) s { s with tray := { down with
        homingStep := .lift, retry := false, lowering := false, timerStart := s.now } }) ∧
    (t.state ≠ .lift → t.state ≠ .homing → t.state ≠ .drop → t.state ≠ .recover →
      Ends (.armBottom true seen) s { s with tray := down }) ∧
    Ends (.armBottom false seen) s { s with tray := { t with bottomOn := false } }

/-- The time limits of the tray. 800 ms of a lift: the first time the arm comes down for a retry, the second is a jam.
600 ms of a lowering, 400 ms without a pulse, 600 ms of a drop, 800 ms of a recovery: a jam, with the position not
known after a rotation and in homing, and as it was otherwise; the request is answered, and the action that waits for
it ends jammed. A limit that has not passed changes nothing. What is not due has no effect (assumption 5). The values
of an answer without a plan are assumption 28, and that an action of a cue ends jammed after a RESET too is 70. -/
def Obligations.TrayTimeLimits : Prop :=
  ∀ (s : State) (x : Action) (r : TrayRequest), Settled s →
    let t := s.tray
    let e := s.now - t.timerStart
    let jam (known : Bool) : State := (s.jammedNow known).moveEnded x .jammed
    (t.lifting = true → 800000 ≤ e → t.retry = false → t.bottomOn = false →
      Ends .liftTimeout s { s with tray := { t with retry := true, lowering := true, timerStart := s.now } }) ∧
    (t.lifting = true → 800000 ≤ e → t.retry = true → awaitsTray s x r → Ends .liftTimeout s (jam t.keptKnown)) ∧
    ((t.lifting = false ∨ e < 800000) → Ends .liftTimeout s s) ∧
    (t.loweringNow = true → 600000 ≤ e → awaitsTray s x r → Ends .lowerTimeout s (jam t.keptKnown)) ∧
    ((t.loweringNow = false ∨ e < 600000) → Ends .lowerTimeout s s) ∧
    (t.turning = true → 400000 ≤ e → awaitsTray s x r → Ends .rotateTimeout s (jam false)) ∧
    ((t.turning = false ∨ e < 400000) → Ends .rotateTimeout s s) ∧
    (t.dropping = true → 600000 ≤ e → awaitsTray s x r → Ends .dropTimeout s (jam t.keptKnown)) ∧
    ((t.dropping = false ∨ e < 600000) → Ends .dropTimeout s s) ∧
    (t.state = .recover → 800000 ≤ e → awaitsTray s x r → Ends .recoverTimeout s (jam t.known)) ∧
    ((t.state ≠ .recover ∨ e < 800000) → Ends .recoverTimeout s s)

/-- An INDEX pulse in ROTATE steps the slot in the planned direction, takes one from the positions to go and restarts
the limit; the last of them, and one with a stop requested, goes to DROP. A count of 0 without HOME latches
position_slip and the position is not known; HOME at another count corrects it to 0 and latches position_slip: a GOTO
goes on to its destination from there, an ADVANCE or REVERSE without skipping keeps its positions to go, with which
its destination moves, and one with skipping searches on from 0, the motor stopped while the first record is fetched.
An INDEX pulse in homing's rotation: with HOME the slot is 0 and the drop begins; without, it is counted, and the
count of N + 2 is a jam, with which the action that waits ends jammed. Outside a rotation, and while the motor is
stopped for a record, it changes nothing. A stop requested at a slip ends the rotation at that pulse (assumption 23),
with the positions to go of a skipping request counted from 0 (assumption 49). That each pulse takes a reached
eligible position off the list, and the count that the search from 0 takes from it, are assumption 64; that skipping
is as it was at planning is 27, the values of an answer without a plan are 28, and that an action of a cue ends jammed
after a RESET too is 70. -/
def Obligations.IndexPulse : Prop :=
  ∀ (s : State) (home : Bool) (r : TrayRequest) (p : Plan) (target i : Nat) (x : Action), Settled s →
    let t := s.tray
    (t.state = .rotate → t.wait = .none → t.request = some r → r.plan = some p →
      let slot := match p.dir with
        | .forward => (t.slot + 1) % t.n
        | .reverse => (t.slot + (t.n - 1)) % t.n
      let slipped := home = false ∧ slot = 0
      let u (st : TrayState) (q : Plan) : State :=
        { s with tray := { t with
          slot := slot, timerStart := s.now, state := st, known := if slipped then false else t.known
          request := some { r.reached slot with plan := some q } } }
      let v (x : State) : State := if slipped then x.latched .positionSlip else x
      ((home = true → slot = 0) → r.stopRequested = false → p.toGo - 1 ≠ 0 →
        Ends (.indexPulse home) s (v (u .rotate { p with toGo := p.toGo - 1 }))) ∧
      ((home = true → slot = 0) → (r.stopRequested = true ∨ p.toGo - 1 = 0) →
        Ends (.indexPulse home) s (v (u .drop { p with toGo := p.toGo - 1 }))) ∧
      (r.kind = .goto target → home = true → slot ≠ 0 →
        let d := posDistance t.n p.dir 0 target
        Ends (.indexPulse home) s (State.latched .positionSlip { s with tray := { t with
          slot := 0, timerStart := s.now, state := if r.stopRequested = true ∨ d = 0 then .drop else .rotate
          request := some { r with plan := some { p with toGo := d } } } })) ∧
      (r.stopRequested = true → (r.kind = .advance target ∨ r.kind = .reverse target) → home = true → slot ≠ 0 →
        let d := if r.skipping then posDistance t.n p.dir 0 p.dest else p.toGo - 1
        Ends (.indexPulse home) s (State.latched .positionSlip { s with tray := { t with
          slot := 0, timerStart := s.now, state := .drop
          request := some { r with plan := some { p with toGo := d } } } })) ∧
      (r.stopRequested = false → (r.kind = .advance target ∨ r.kind = .reverse target) → r.skipping = false →
        home = true → slot ≠ 0 → t.destPin = none → s.hdr.settings.slotBase = 0 →
        let d := p.toGo - 1
        Ends (.indexPulse home) s (State.latched .positionSlip { s with tray := { t with
          slot := 0, timerStart := s.now, state := if d = 0 then .drop else .rotate
          request := some { r with plan := some { p with dest := posAfter t.n p.dir 0 d, toGo := d } } } })) ∧
      (r.stopRequested = false → (r.kind = .advance target ∨ r.kind = .reverse target) → r.skipping = true →
        home = true → slot ≠ 0 → r.examined < t.n - 1 → slotMisses (nextPos t.n r.kind.dir 0) i s →
        let first := nextPos t.n r.kind.dir 0
        Ends (.indexPulse home) s (State.latched .positionSlip (({ s with tray := { t with
          slot := 0, timerStart := s.now, wait := .search { pos := first, find := r.found.length + r.toFind, found := [] }
          request := some { r with plan := some { p with toGo := posDistance t.n p.dir 0 p.dest } } } } : State).fetchingSlot
            first i 0)))) ∧
    (t.state = .homing → t.homingStep = .rotate →
      let counted : State := { s with tray := { t with homingCount := t.homingCount + 1, timerStart := s.now } }
      Ends (.indexPulse true) s { s with tray := { t with slot := 0, homingStep := .drop, timerStart := s.now } } ∧
      (t.homingCount + 1 ≠ t.n + 2 → Ends (.indexPulse false) s counted) ∧
      (t.homingCount + 1 = t.n + 2 → awaitsTray s x r →
        Ends (.indexPulse false) s ((counted.jammedNow false).moveEnded x .jammed))) ∧
    (t.turning = false → Ends (.indexPulse home) s s)

/-- Settling ends after 150 ms, in READY, or in UNHOMED with the position not known. A slide seen at the destination
pinned makes the pin that of the slide shown. One seen at another slot, as after a stop in mid-rotation, has the
destination's pin released and its own record looked up (assumption 25): a miss is fetched, and a VALID or FILLING entry
found is pinned; so it is after a RESET has dropped the pin. With no table, and at the destination of a plan made with
none, no pin is placed. With none seen and nothing to continue, the pin is released and the answer is empty. A release
lowers the entry's pin count by 1, and frees a stale entry left with none. The action ends aborted when it was stopped;
else the linked clip of the slide seated is handed to the player, and the lamp goes back to a restore level over the
blank rate, or with none the action ends ok. With none seen and skipping, the request goes on: READY while the next
position's record is fetched, or with no table it lifts for a next position that is not EMPTY, and for position 0 when N
− 1 have been examined. Homing's settling leaves the position known and the slot 0: a request with a stop ends there,
one to slot 0 too, with the homing drop's outcome, and a GOTO to another slot lifts. With a table the record of a slide
at 0 is looked up and pinned, and the destination's too: VALID, the request ends or lifts, and else it waits, READY.
Every lift releases the pin of a slide shown. Sooner, nothing changes. That READY waits for records is assumption 21,
the lookups a release may serve are 58, skipping as it was at planning, and the way to position 0, are 27, the values of
an answer without a plan are 28, the outcome of a request that homing leaves nothing to rotate is 26, that it waits for
its record is the model's choice (56), and that the record of a slide at 0 is looked up as homing has settled is 57.
What is not due has no effect (5). -/
def Obligations.SettlingEndsTheChange : Prop :=
  ∀ (s : State) (r : TrayRequest) (x : Action) (i j target : Nat), Settled s →
    let t := s.tray
    let e := s.now - t.timerStart
    let rest : TrayState := if t.known then .ready else .unhomed
    let seated : State := { s with tray := Tray.answered { t with state := rest, shownPin := t.destPin, destPin := none } }
    let u := releaseDest s
    let unpinned : State := { u with tray := Tray.answered { u.tray with state := rest } }
    let afresh : State := { unpinned with tray := { unpinned.tray with shownPin := some t.slot } }
    let found : State := { afresh with shadow := u.shadow.pinned j }
    let home : Tray := { t with state := .ready, known := true, slot := 0 }
    (t.destPin = none → u = s) ∧
    (∀ d m, t.destPin = some d → s.shadow.find .slot d = some m → noLookupWaits (s.undestined m) →
      u.body = (s.undestined m).body) ∧
    (t.settling = true → e < 150000 → Ends .settleEnd s s) ∧
    (t.state = .settle → 150000 ≤ e → awaitsTray s x r → t.gate = .loaded → t.destPin = some t.slot →
      EndsChange .settleEnd s x seated.linkedClip seated) ∧
    (∀ p ∈ r.plan, t.state = .settle → 150000 ≤ e → awaitsTray s x r → t.gate = .loaded → t.destPin ≠ some t.slot →
      let looksUp : Prop := t.destPin ≠ none ∨ t.repin = true ∨ p.dest ≠ t.slot
      (s.hdr.settings.slotBase = 0 → EndsChange .settleEnd s x none unpinned) ∧
      (¬looksUp → EndsChange .settleEnd s x unpinned.linkedClip unpinned) ∧
      (looksUp → slotMisses t.slot j u → EndsChange .settleEnd s x none (afresh.fetchingSlot t.slot j 1)) ∧
      (looksUp → slotFound t.slot j u → EndsChange .settleEnd s x found.linkedClip found)) ∧
    (t.state = .settle → 150000 ≤ e → awaitsTray s x r → t.gate = .empty →
      (r.skipping = false ∨ t.slot = 0 ∨ t.known = false ∨ r.stopRequested = true) →
      EndsChange .settleEnd s x none unpinned) ∧
    (t.state = .settle → 150000 ≤ e → t.gate = .empty → t.request = some r →
      (r.kind = .advance target ∨ r.kind = .reverse target) → r.skipping = true → t.slot ≠ 0 → t.slot < t.n →
      t.known = true → r.stopRequested = false →
      let next := nextPos t.n r.kind.dir t.slot
      let leg (dest : Nat) : Plan :=
        { dir := r.kind.dir, dest := dest, toGo := posDistance t.n r.kind.dir t.slot dest }
      let lifts (q : TrayRequest) : State :=
        { u with tray := { Tray.lifted q s.now u.tray with repin := t.repin } }
      (r.examined < t.n - 1 → slotMisses next j u →
        Ends .settleEnd s (({ u with tray := { u.tray with
          state := .ready, wait := .search { pos := next, find := 1, found := [] } } } : State).fetchingSlot next j 0)) ∧
      (r.examined < t.n - 1 → s.hdr.settings.slotBase = 0 → next ≠ 0 → (t.presence[next]?).getD .unknown ≠ .empty →
        t.topOn = false →
        Lifts .settleEnd s
          (lifts { r with plan := some (leg next), examined := r.examined + 1, found := [next], toFind := 0 })) ∧
      (t.n - 1 ≤ r.examined → s.hdr.settings.slotBase = 0 → t.topOn = false →
        Lifts .settleEnd s (lifts { r with plan := some (leg 0), found := [], toFind := 1 }))) ∧
    (t.state = .homing → t.homingStep = .settle → 150000 ≤ e → awaitsTray s x r →
      let plan (k : Plan) : TrayRequest := { r with homed := true, plan := some k }
      let shows := decide (t.gate = .loaded)
      let shown : Tray := { home with shownPin := if shows then some 0 else t.shownPin }
      let once : Shadow := if shows then s.shadow.pinned i else s.shadow
      (r.stopRequested = true →
        let here : State := { s with tray := Tray.answered shown }
        let found : State := { here with shadow := once }
        ((t.gate ≠ .loaded ∨ s.hdr.settings.slotBase = 0) →
          EndsChange .settleEnd s x none { s with tray := Tray.answered home }) ∧
        (t.gate = .loaded → slotMisses 0 j s → EndsChange .settleEnd s x none (here.fetchingSlot 0 j 1)) ∧
        (t.gate = .loaded → slotFound 0 i s → EndsChange .settleEnd s x found.linkedClip found)) ∧
      (r.stopRequested = false → r.kind = .goto 0 → 0 < t.n → t.destPin = none →
        let ended (v : Tray) : Tray := { v with
          request := none, wait := .none, repin := false, remaining := 0, lastSlot := 0 }
        let waits : Tray := { shown with
          destPin := some 0, wait := .destination, request := some (plan { dir := .forward, dest := 0, toGo := 0 }) }
        (s.hdr.settings.slotBase = 0 → EndsChange .settleEnd s x none { s with tray := ended home }) ∧
        (slotMisses 0 j s →
          Ends .settleEnd s (State.fetchingSlot 0 j (if shows then 2 else 1) { s with tray := waits })) ∧
        (slotFound 0 i s →
          let v : State := { s with shadow := (once.pinned i).released i, tray := ended shown }
          ((s.shadow.entry i).isValid = true → noLookupWaits v →
            EndsChange .settleEnd s x (if shows then v.linkedClip else none) v) ∧
          ((s.shadow.entry i).isValid = false →
            Ends .settleEnd s { s with shadow := once.pinned i, tray := waits }))) ∧
      (r.stopRequested = false → r.kind = .goto target → 0 < target → target < t.n →
        let going : Tray := { home with
          state := .lift, retry := false, lowering := false, timerStart := s.now, wait := .none
          request := some (plan (Plan.goto t.n 0 target)) }
        (s.hdr.settings.slotBase = 0 → t.topOn = false → Lifts .settleEnd s { s with tray := going }) ∧
        (t.gate = .loaded → slotFound 0 i s → s.shadow.find .slot target = some j →
          let v : State := { s with
            shadow := (s.shadow.pinned i).pinned j
            tray := { going with shownPin := some 0, destPin := some target } }
          ((s.shadow.entry j).isValid = true → t.topOn = false → noLookupWaits (v.unshown i) →
            Ends .settleEnd s (v.unshown i)) ∧
          ((s.shadow.entry j).isValid = false → Ends .settleEnd s { v with tray := { home with
            shownPin := some 0, destPin := some target, wait := .destination
            request := some (plan (Plan.goto t.n 0 target)) } }))))

/-- Removal of the tray in any state: TRAY_OUT, every Presence entry UNKNOWN, the position not known, the gate UNKNOWN,
the pins released, a held request answered and the action that waits for it ended tray_out, and tray_removed latched. A
seating in TRAY_OUT reads N, sets slot 0, position known, gate EMPTY and READY; in any other state it changes nothing.
The values of an answer without a plan are assumption 28, and that its last slot is 0 though the position was known, in
a first skip search and in RECOVER, is the model's choice (assumption 76). Those of an answer that comes while a search
waits for a record are the model's: for the search of a continuation assumption 48, and for that of a re-plan after a
slip assumption 49. That an action of a cue ends tray_out after a RESET too is assumption 70. -/
def Obligations.TrayRemovedAndSeated : Prop :=
  ∀ (s : State) (x : Action) (r : TrayRequest), Settled s →
    let u := s.unpinned
    let out (t : Tray) : State := State.latched .trayRemoved { u with tray := Tray.answered { t with
      state := .trayOut, presence := Vector.replicate 96 .unknown, known := false, gate := .unknown } }
    (s.tray.state ≠ .trayOut → s.tray.request = none → Ends .trayRemoved s (out u.tray)) ∧
    (s.tray.state ≠ .trayOut → awaitsTray s x r → Ends .trayRemoved s ((out u.tray).moveEnded x .trayOut)) ∧
    (s.tray.state = .trayOut → Ends .trayRemoved s s) ∧
    (∀ big : Bool, s.tray.state = .trayOut →
      Ends (.traySeated big) s { s with tray := { s.tray with
        n := if big then 96 else 48, slot := 0, known := true, gate := .empty, state := .ready } }) ∧
    (∀ big : Bool, s.tray.state ≠ .trayOut → Ends (.traySeated big) s s)

/-! ## Records -/

/-- A record word returns. One of an abandoned read is discarded. Otherwise it joins the copy of the entry under fetch;
with the last word, and nobody waiting, the entry is VALID, not stale, the most recently used, and off the fetch list. A
transport that waits for the record of its destination begins the lift, which releases the pin of the slide shown: its
entry's count is lower by 1, and a stale entry left with no pin is FREE; with a request that homing has left nothing to
rotate it releases the pin of the destination and answers with the homing drop's outcome, and the linked clip of a slide
at 0 is handed to the player. One whose skip search waits for it has examined one position more: one that is not
eligible, and one that is with more still to find, leave the search to go on to the next position, here one whose record
has to be fetched; the last to find is the destination, pinned, and the lift begins; and when N − 1 positions have been
examined and none was eligible, position 0 is the destination, its record to be fetched. The last word of a clip
descriptor answers the start record that waits for it. A descriptor that fails the check is answered clip_invalid, the
start record is absent and its pin released, and a FETCHING player is IDLE. One that passes begins the play of a CUT in
FETCHING, with the request answered ok; is held by a CUT in FADING_OUT; and of a QUEUE request is appended to a queue of
fewer than 4, with the request answered ok, or begins the play at once in IDLE; a queue of 4 refuses it with
clip_invalid. That the transport waits, READY, for the record of its destination is assumption 21, with homing's request
too 56 and its outcome 26, and which lookups the end of a fetch serves, here none, is 58. -/
def Obligations.RecordWordReturns : Prop :=
  ∀ (s : State) (a : RamAccess) (i j : Nat) (rest : List Nat) (d : EntryData) (se : Search) (st : StartRecord)
      (w0 w1 w2 : Word), Settled s → s.port.ram = some a → a.who = .recordShadow →
    let e : EntryData := { d with copy := d.copy ++ [a.data] }
    let done : State := { s with shadow := { s.shadow.setEntry i (.valid e false s.shadow.useStamp) with
      fetchList := rest, useStamp := s.shadow.useStamp + 1 } }
    (a.void = true → Ends .recordWordReturned s s) ∧
    (a.void = false → s.shadow.fetchList = i :: rest → s.shadow.entry i = .filling d →
      e.copy.length < recordLength d.kind →
      Ends .recordWordReturned s { s with shadow := s.shadow.setEntry i (.filling e) }) ∧
    (a.void = false → s.shadow.fetchList = i :: rest → s.shadow.entry i = .filling d →
      recordLength d.kind ≤ e.copy.length → s.tray.wait = .none → s.clip.start = none →
      noLookupWaits done → Ends .recordWordReturned s done) ∧
    (∀ r x, s.tray.request = some r → ∀ p, r.plan = some p → a.void = false → s.shadow.fetchList = i :: rest →
      s.shadow.entry i = .filling d → d.kind = .slot → 2 ≤ e.copy.length → p.dest = d.key →
      s.tray.wait = .destination → s.tray.state = .ready → noLookupWaits done →
      (s.tray.topOn = false → (r.homed = false ∨ p.toGo ≠ 0) →
        Lifts .recordWordReturned s { done with tray := { s.tray with
          state := .lift, retry := false, lowering := false, timerStart := s.now, wait := .none } }) ∧
      (awaitsTray s x r → r.homed = true → p.toGo = 0 → x.stopped = false → x.restore = none →
        s.hdr.settings.slotBase ≠ 0 → s.tray.destPin = some d.key → done.shadow.find .slot d.key = some i →
        let lowered : WatchEntry := .valid { e with pins := d.pins - 1 } false s.shadow.useStamp
        let u : State := { done with
          shadow := done.shadow.setEntry i lowered
          tray := Tray.answered { s.tray with destPin := none } }
        (s.tray.gate ≠ .loaded → Ends .recordWordReturned s (u.moveEnded x .ok)) ∧
        (s.tray.gate = .loaded → s.tray.shownPin = some d.key →
          (slotLinkedClip e.copy = none → Ends .recordWordReturned s (u.moveEnded x .ok)) ∧
          (∀ clip, slotLinkedClip e.copy = some clip → clipMisses clip j u →
            Ends .recordWordReturned s ((u.fetchingClip clip j .linked).moveEnded x .ok))))) ∧
    (∀ r, s.tray.request = some r → a.void = false → s.shadow.fetchList = i :: rest → s.shadow.entry i = .filling d →
      d.kind = .slot → 2 ≤ e.copy.length → s.tray.wait = .search se → se.pos = d.key → se.find ≠ 0 →
      s.tray.state = .ready → r.homed = false → noLookupWaits done →
      let t := s.tray
      let next := nextPos t.n r.kind.dir d.key
      let fits := d.key ≠ 0 ∧ (t.presence[d.key]?).getD .unknown ≠ .empty ∧ slotSkip e.copy = false
      let leg (dest : Nat) : Plan :=
        { dir := r.kind.dir, dest := dest, toGo := posDistance t.n r.kind.dir t.slot dest }
      let looked : TrayRequest := { r with examined := r.examined + 1 }
      (¬fits → r.examined + 1 < t.n - 1 → slotMisses next j done →
        Ends .recordWordReturned s (({ done with tray := { t with
          request := some looked, wait := .search { se with pos := next } } } : State).fetchingSlot next j 0)) ∧
      (fits → 1 < se.find → r.examined + 1 < t.n - 1 → slotMisses next j done →
        Ends .recordWordReturned s (({ done with tray := { t with
          request := some looked
          wait := .search { pos := next, find := se.find - 1, found := se.found ++ [d.key] } } } : State).fetchingSlot
            next j 0)) ∧
      (fits → se.find = 1 → s.hdr.settings.slotBase ≠ 0 → done.shadow.find .slot d.key = some i → t.topOn = false →
        Lifts .recordWordReturned s { done with
          shadow := { done.shadow.setEntry i (.valid { e with pins := e.pins + 1 } false done.shadow.useStamp) with
            useStamp := done.shadow.useStamp + 1 }
          tray := { t with
            state := .lift, retry := false, lowering := false, timerStart := s.now, wait := .none
            destPin := some d.key
            request := some { looked with
              plan := some (leg d.key), found := se.found ++ [d.key], toFind := 0 } } }) ∧
      (¬fits → t.n - 1 ≤ r.examined + 1 → se.found = [] → slotMisses 0 j done →
        Ends .recordWordReturned s (({ done with tray := { t with
          destPin := some 0, wait := .destination
          request := some { looked with plan := some (leg 0), found := [], toFind := se.find } } } : State).fetchingSlot
            0 j 1))) ∧
    (s.clip.start = some st → a.void = false → s.shadow.fetchList = i :: rest → s.shadow.entry i = .filling d →
      d.kind = .clip → d.copy = [w0, w1, w2] → st.request.clip = d.key → st.copy = none → st.pinned = true →
      done.shadow.find .clip d.key = some i → noLookupWaits done → s.clip.requests = [] →
      startPosts st.request.source s →
      let c := s.clip
      let source := st.request.source
      let desc := descriptorIn w0 w1 w2 a.data
      let lowered : WatchEntry := .valid { e with pins := d.pins - 1 } false s.shadow.useStamp
      let unpinned : State := { done with shadow := done.shadow.setEntry i lowered }
      let entry : ClipEntry := { clip := d.key, source := source, copy := [w0, w1, w2, a.data], pinned := true }
      (st.request.queueMode = false → c.state = .fetching → desc.passes →
        Ends .recordWordReturned s (State.startAnswered source .ok { unpinned with
          clip := ClipPlayer.begun d.key source desc s.now { c with start := none } })) ∧
      (st.request.queueMode = false → c.state = .fetching → ¬desc.passes →
        Ends .recordWordReturned s (State.startAnswered source .clipInvalid { unpinned with
          clip := ClipPlayer.retarget s.now { c with state := .idle, lastOutput := 0, start := none } })) ∧
      (st.request.queueMode = false → c.state = .fadingOut → desc.passes →
        Ends .recordWordReturned s { done with
          clip := { c with start := some { st with copy := some [w0, w1, w2, a.data] } } }) ∧
      (st.request.queueMode = true → desc.passes → c.queue.length < 4 → c.state ≠ .idle →
        Ends .recordWordReturned s (State.startAnswered source .ok { done with
          clip := { c with queue := c.queue ++ [entry], start := none } })) ∧
      (st.request.queueMode = true → desc.passes → c.queue = [] → c.state = .idle →
        Ends .recordWordReturned s (State.startAnswered source .ok { unpinned with
          clip := ClipPlayer.begun d.key source desc s.now { c with start := none } })) ∧
      (((st.request.queueMode = false ∧ c.state = .fadingOut ∧ ¬desc.passes) ∨
          (st.request.queueMode = true ∧ (¬desc.passes ∨ 4 ≤ c.queue.length))) →
        Ends .recordWordReturned s (State.startAnswered source .clipInvalid { unpinned with
          clip := { c with start := none } })))

/-! ## Mains, light and lamp -/

/-- A crossing with mains present is a half-cycle event when its measurement lies in 7,500..11,000 µs: the history
takes it and H is the average of the eight, rounded down. Any other changes nothing. The first crossing with mains
absent makes it present and is a half-cycle event. 15,000 µs without an accepted crossing make mains absent, latch
mains_loss and give a substitute event at once; while it is absent one follows every H µs. The half-cycle that
completes the warming count makes the lamp ON before its light is computed, and a LAMP on that waits ends ok; the
fourth firing in a row judged unlit sets the lamp FAILED with its run-on, latches lamp_failed, and a LAMP on that
waits ends aborted. The order inside the event is assumption 29. That a ramp completed here is only recorded, so that
the light is still computed for a lamp whose off mark waits, is assumption 12, that the dark event is only on its way
is 11, that the half-cycle ends the warming itself is 13, and that what is not due has no effect is 5. That each
half-cycle begins with no pulse of LAMP_FIRE held, and a FAILED lamp loses its firing, is assumption 68. -/
def Obligations.HalfCycleEvents : Prop :=
  ∀ (s : State) (x : Action), Settled s →
    let l := s.lamp
    let m := s.now - l.lastCross
    let history := l.history.drop 1 ++ [m]
    let crossed : Lamp := { l with history := history, h := history.foldl (· + ·) 0 / 8, lastCross := s.now }
    let accepted := l.mainsPresent = true ∧ 7500 ≤ m ∧ m ≤ 11000
    let warm := accepted ∧ nothingToApply s ∧ (l.judging = true → l.failures ≠ 3) ∧ l.state = .warming
      ∧ l.warmTarget ≤ l.warmCount + 1
    let on : State := State.halfCycled true (State.dutied { s with
      lamp := { crossed with state := .on, warmCount := l.warmCount + 1 } })
    let fails := accepted ∧ nothingToApply s ∧ l.judging = true ∧ l.failures = 3 ∧ l.state.lit = true
    let failed : State := State.halfCycled true (State.dutied (State.latched .lampFailed { s with
      lamp := { crossed with state := .failed, judging := false, failures := 4 }
      thermal := { s.thermal with runOn := some s.now } }))
    (plainHalfCycle s → accepted → Ends .zeroCross s (State.halfCycled true { s with lamp := crossed })) ∧
    (l.mainsPresent = true → (m < 7500 ∨ 11000 < m) → Ends .zeroCross s s) ∧
    (plainHalfCycle s → l.mainsPresent = false →
      Ends .zeroCross s (State.halfCycled true { s with
        lamp := { l with mainsPresent := true, lastCross := s.now } })) ∧
    (plainHalfCycle s → l.mainsPresent = true → 15000 ≤ m →
      Ends .mainsLoss s (State.halfCycled false (State.latched .mainsLoss { s with
        lamp := { l with mainsPresent := false, nextSub := s.now + l.h } }))) ∧
    ((l.mainsPresent = false ∨ m < 15000) → Ends .mainsLoss s s) ∧
    (plainHalfCycle s → l.mainsPresent = false → l.nextSub ≤ s.now →
      Ends .substituteHalfCycle s (State.halfCycled false { s with
        lamp := { l with nextSub := l.nextSub + l.h } })) ∧
    ((l.mainsPresent = true ∨ s.now < l.nextSub) → Ends .substituteHalfCycle s s) ∧
    (warm → noLampOn s → Ends .zeroCross s on) ∧
    (warm → awaitsLamp s x → Ends .zeroCross s (on.actionEnded x .ok (x.answer s))) ∧
    (fails → noLampOn s → Ends .zeroCross s failed) ∧
    (fails → awaitsLamp s x → Ends .zeroCross s (failed.actionEnded x .aborted (x.answer s)))

/-- A ramp's completion event is taken by its requester. An off mark puts an ON or FAILED lamp OFF, with run-on from ON,
whatever the power state; a FAILED lamp put OFF in STANDBY_PENDING with no run-on active brings the unit to STANDBY,
with the fan at 0. On any other lamp it does nothing. The completion that the action waits for ends a FADE, a dissolve's
fade-in, a restore and a LAMP off, ok. A blanking and a dissolve's fade-out go to MOVING with the window opened: the
request is held for the dark event of a lit lamp, and issued at once when the lamp is dark, where the lift begins, or,
after a blanking, the action ends tray_out or jammed with the transport's answer. A fade-out that finds the transport
TRAY_OUT or JAMMED ends tray_out or jammed without a request. That the completion is a command of its own is assumption
12, that the lamp put OFF loses its pending firing is 68, and the values of an answer without a plan are 28. Two points
are the model's choices, where the tray was changed in the meantime: a GOTO beyond it is answered by the state, tray_out
or jammed (assumption 78), and the count of an ADVANCE or REVERSE is planned as it was taken up, though it be above N −
1 (assumption 47). -/
def Obligations.RampCompletionArrives : Prop :=
  ∀ (s : State) (d : RampDone) (rest : List RampDone) (x : Action), Settled s → s.lamp.rampDone = d :: rest →
    let taken : State := { s with lamp := { s.lamp with rampDone := rest } }
    let out : State := taken.lampOut
    let put : State := if s.thermal.power = .standbyPending ∧ out.thermal.runOn = none then
      { out with thermal := { out.thermal with power := .standby, duty := 0 } } else out
    let acted : State := if d.offMark = true ∧ (s.lamp.state = .on ∨ s.lamp.state = .failed) then put else taken
    (d.byAction = false → Ends .rampComplete s acted) ∧
    (d.byAction = true → s.cx.action = some x →
      (x.phase = .fading ∨ x.phase = .fadingIn ∨ x.phase = .restoring) → endsAlone s x →
      Ends .rampComplete s (acted.actionEnded x .ok (x.answer s))) ∧
    (d.byAction = true → s.cx.action = some x → x.phase = .fadingOut → endsAlone s x →
      (s.tray.state = .trayOut → Ends .rampComplete s (acted.actionEnded x .trayOut (x.answer s))) ∧
      (s.tray.state = .jammed → Ends .rampComplete s (acted.actionEnded x .jammed (x.answer s)))) ∧
    (d.byAction = true → s.cx.action = some x →
      (x.phase = .blanking ∨ (x.phase = .fadingOut ∧ s.tray.state ≠ .trayOut ∧ s.tray.state ≠ .jammed)) →
      let moving : Action := { x with phase := .moving, window := true }
      let opened (y : Action) : State := { acted.doing y with
        lamp := if acted.lamp.window then acted.lamp
          else { acted.lamp with window := true, darkOwed := !acted.lamp.dark, darkSent := false } }
      let kind := x.request.trayKind
      (acted.lamp.dark = false → Ends .rampComplete s (opened moving)) ∧
      (acted.lamp.dark = true → liftsAtOnce s → kind.plannable s.tray.n = true →
        Lifts .rampComplete s { opened { moving with issued := true } with
          tray := s.tray.lifted (TrayRequest.planned kind true (Plan.of s.tray.n s.tray.slot kind)) s.now }) ∧
      (acted.lamp.dark = true → s.tray.request = none → endsAlone s x →
        let refused : State := { opened moving with tray := { s.tray with
          remaining := kind.count, lastSlot := if s.tray.known then s.tray.slot else 0 } }
        (s.tray.state = .trayOut → Ends .rampComplete s (refused.moveEnded moving .trayOut)) ∧
        (s.tray.state = .jammed → kind ≠ .clearJam → Ends .rampComplete s (refused.moveEnded moving .jammed))))

/-- The warming ends when its count has reached its target: the lamp is ON, and a LAMP on that waits for it ends ok;
in any other state WARMING_COMPLETE changes nothing. A firing due is pulsed on LAMP_FIRE when the lamp is lit and
mains present, and is to be judged when its K is also at least 400; otherwise it is dropped. LAMP_CURRENT judges a
firing lit and clears the failure counter. After a minute of lit time the minutes count rises by 1, to at most
16,777,215, and lamp_life is latched when it has reached LIFE_LIMIT × 60 with the limit not 0 and the flag clear. Each
does nothing where it is not due. That the end of warming and the expiries are commands of their own is assumptions 5
and 13. That the begun part of a millisecond is kept is assumption 59, and that the pulse is held as the firing made
is 68. -/
def Obligations.WarmingAndFirings : Prop :=
  ∀ (s : State) (x : Action) (fr : Firing), Settled s →
    let l := s.lamp
    let n := min 16777215 (l.minutes + 1)
    let limit := s.hdr.settings.lifeLimit
    let u (b : Bool) : State :=
      { s with lamp := { l with minuteUs := l.minuteUs - 60000000, minutes := n, lifeReported := b } }
    let warm := l.state = .warming ∧ l.warmTarget ≤ l.warmCount
    let on : State := State.dutied { s with lamp := { l with state := .on } }
    (warm → noLampOn s → Ends .warmingComplete s on) ∧
    (warm → awaitsLamp s x → Ends .warmingComplete s (on.actionEnded x .ok (x.answer s))) ∧
    (¬warm → Ends .warmingComplete s s) ∧
    (l.firing = some fr → fr.time ≤ s.now →
      Ends .lampFiring s { s with lamp := { l with
        firing := none
        fired := if l.state.lit = true ∧ l.mainsPresent = true then some fr else l.fired
        judging := l.judging || (l.state.lit && l.mainsPresent && decide (400 ≤ fr.k)) } }) ∧
    (l.firing = some fr → s.now < fr.time → Ends .lampFiring s s) ∧
    (l.firing = none → Ends .lampFiring s s) ∧
    (l.judging = true → Ends .lampCurrent s { s with lamp := { l with judging := false, failures := 0 } }) ∧
    (l.judging = false → Ends .lampCurrent s s) ∧
    (l.minuteUs < 60000000 → Ends .lampMinuteTick s s) ∧
    (60000000 ≤ l.minuteUs → (limit = 0 ∨ n < limit * 60 ∨ l.lifeReported = true) →
      Ends .lampMinuteTick s (u l.lifeReported)) ∧
    (60000000 ≤ l.minuteUs → limit ≠ 0 → limit * 60 ≤ n → l.lifeReported = false →
      Ends .lampMinuteTick s (State.latched .lampLife (u true)))

/-- With no load in flight an apply record takes effect. A curve word that returns is clamped to 4095, raised to the
point before it and stored in the spare bank; one of an abandoned load is discarded. After all 33 the banks swap, and
the apply record takes effect with them. That these rows act outside a half-cycle too is assumption 14, and that they
have no effect where they are not due is 5. -/
def Obligations.ApplyAndCurveLoads : Prop :=
  ∀ (s : State) (p : PendingSettings) (ld : Loading) (a : RamAccess), Settled s →
    let l := s.lamp
    (l.applyRec = some p → l.loader = none → Ends .applyTakesEffect s (s.applied p)) ∧
    ((l.applyRec = none ∨ l.loader ≠ none) → Ends .applyTakesEffect s s) ∧
    (l.loader = some ld → ld.index = 33 →
      let u : State := { s with lamp := { l with
        bank := l.spare, spare := l.bank, curve := .loaded ld.curve, loader := none } }
      (l.applyRec = some p → Ends .curveSwap s (u.applied p)) ∧ (l.applyRec = none → Ends .curveSwap s u)) ∧
    ((∀ x, l.loader = some x → x.index ≠ 33) → Ends .curveSwap s s) ∧
    (s.port.ram = some a → a.who = .curveLoader →
      (a.void = true → Ends .curveWordReturned s s) ∧
      (a.void = false → l.loader = some ld → ld.index < 33 →
        let v := min 4095 a.data.toNat
        let point := if ld.index = 0 then v else max v ((l.spare[ld.index - 1]?).getD 0)
        Ends .curveWordReturned s { s with lamp := { l with
          spare := l.spare.setIfInBounds ld.index point, loader := some { ld with index := ld.index + 1 } } }))

/-! ## Cooling -/

/-- A read cycle starts every 250 ms. An accepted lamp-house reading, in any power state, becomes Th, ends a fault, moves
the fan zone, and the duty and ceiling are decided again; one below 45 ends a run-on of 60 s or more, with which a
pending standby of an unlit lamp becomes STANDBY with the fan off. At Tt or above a clear over-temperature flag is set and
thermal_trip latched, and a lamp that is not TRIPPED is, one lit with run-on, and a LAMP on that waits for it ends
thermal_hold; below Tt the flag is cleared. The first reading of 45 or more on an OFF lamp starts run-on, but in STANDBY
(assumption 24). An accepted gate reading becomes Tg, and the gate flag follows it. The order at one reading is
assumption 30, and a read's end is taken as it comes (assumption 36). That a TRIPPED lamp loses its pending firing is
assumption 68, and that a read cycle before its time has no effect is 5. -/
def Obligations.SensorReadings : Prop :=
  ∀ (s : State) (v : Nat) (x : Action), Settled s → v ≤ 200 →
    let h := s.thermal
    let zone := if v < 45 then 0 else if v < 50 then min h.zone 1 else if v < 65 then 1
      else if v < 70 then max 1 (min h.zone 2) else if v < 85 then 2 else if v < 90 then max 2 (min h.zone 3) else 3
    let served := (h.runOn.map fun start => decide (60000000 ≤ s.now - start)).getD false = true ∧ v < 45
    let hot := h.firstTaken = false ∧ 45 ≤ v ∧ s.lamp.state = .off ∧ h.runOn = none ∧ h.power ≠ .standby
    let read : Thermal := { h with
      th := v, failTh := 0, readingTh := false, firstTaken := true, zone := zone
      runOn := if served then none else if hot then some s.now else h.runOn }
    let st := s.hdr.settings
    let limit := st.gateLimit
    let flag := if limit ≤ v then true else if v < limit - 5 then false else h.gateFlag
    let reads (u : State) : Prop := Ends (.sensorReadDone .lampHouse (.value v)) s u
    let decided (l : Lamp) (t : Thermal) : State := State.recapped (State.dutied { s with lamp := l, thermal := t })
    (h.nextRead ≤ s.now →
      Ends .sensorReadCycle s
        { s with thermal := { h with nextRead := h.nextRead + 250000, readingTh := true, readingTg := true } }) ∧
    (s.now < h.nextRead → Ends .sensorReadCycle s s) ∧
    (h.zone ≤ 3 → (v < st.tt ∨ h.overTemp = true) →
      let now := { read with overTemp := decide (st.tt ≤ v) }
      (¬(served ∧ h.power = .standbyPending ∧ s.lamp.state.lit = false) → reads (decided s.lamp now)) ∧
      (served → h.power = .standbyPending → s.lamp.state.lit = false → h.duty ≠ 0 →
        reads (State.recapped { s with thermal := { now with power := .standby, duty := 0 } }))) ∧
    (h.zone ≤ 3 → st.tt ≤ v → h.overTemp = false → 45 ≤ v →
      (s.lamp.state.lit = true →
        let tripped : State := State.latched .thermalTrip
          (decided (s.lamp.unlit .tripped) { read with overTemp := true, runOn := some s.now })
        (noLampOn s → reads tripped) ∧ (awaitsLamp s x → reads (tripped.actionEnded x .thermalHold (x.answer s)))) ∧
      (s.lamp.state.lit = false → noLampOn s → (h.power = .standbyPending → h.runOn ≠ none) →
        reads (State.latched .thermalTrip (decided
          (if s.lamp.state = .tripped then s.lamp else s.lamp.unlit .tripped)
          { read with overTemp := true, runOn := h.runOn })))) ∧
    Ends (.sensorReadDone .gate (.value v)) s
      (State.recapped (State.dutied { s with
        thermal := { h with tg := v, failTg := 0, readingTg := false, gateFlag := flag } }))

/-- A read without answer, with a wrong check or outside 0..200 adds 1 to its sensor's count, up to 4, and leaves the
temperature. As the count becomes 4, cooling_fault is latched, a lamp that is not TRIPPED is, with run-on when it was
lit, and the duty decided again. A read's end is taken as it comes (assumption 36). That a TRIPPED lamp loses its
pending firing is assumption 68. -/
def Obligations.FailedReadings : Prop :=
  ∀ (s : State) (r : SensorRead), Settled s → noLampOn s → s.thermal.power = .normal → s.lamp.state ≠ .tripped →
    let h := s.thermal
    let fault (t : Thermal) : State := State.latched .coolingFault (State.dutied { s with
      lamp := s.lamp.unlit .tripped
      thermal := { t with runOn := if s.lamp.state.lit = true then some s.now else t.runOn } })
    (r = .noAnswer ∨ r = .badCheck ∨ (∃ v, r = .value v ∧ (v < 0 ∨ 200 < v))) →
    (h.failTh < 3 → Ends (.sensorReadDone .lampHouse r) s
      { s with thermal := { h with failTh := h.failTh + 1, readingTh := false } }) ∧
    (h.failTh = 3 → Ends (.sensorReadDone .lampHouse r) s (fault { h with failTh := 4, readingTh := false })) ∧
    (h.failTh = 4 → Ends (.sensorReadDone .lampHouse r) s { s with thermal := { h with readingTh := false } }) ∧
    (h.failTg < 3 → Ends (.sensorReadDone .gate r) s
      { s with thermal := { h with failTg := h.failTg + 1, readingTg := false } }) ∧
    (h.failTg = 3 → Ends (.sensorReadDone .gate r) s (fault { h with failTg := 4, readingTg := false })) ∧
    (h.failTg = 4 → Ends (.sensorReadDone .gate r) s { s with thermal := { h with readingTg := false } })

/-- A tach pulse restarts a running watch, clears a fan fault, and the duty is decided again. 2 s without one set a
clear fault standing, latch cooling_fault, trip the lamp and decide the duty again; a standing one only restarts the
watch. Run-on ends at 60 s with Th below 45 and the sensor not in fault, and then a pending standby becomes STANDBY
with the fan off. The dwell timer at its limit sets the flag, latches dwell_limit and lowers the ceiling. Each does
nothing where it is not due. A pulse with the duty at 0 changes nothing (assumption 31). The dwell timer sets no flag
when it stands at its limit while it does not count: that is the model's choice (assumption 52), and that what is not
due has no effect is assumption 5. That the trip drops the pending firing is assumption 68. -/
def Obligations.FanAndThermalTimers : Prop :=
  ∀ (s : State) (start : Nat), Settled s → noLampOn s →
    let h := s.thermal
    let served := h.runOn = some start ∧ 60000000 ≤ s.now - start ∧ h.th < 45 ∧ h.failTh ≠ 4
    let dwell := s.dwellCounts = true ∧ s.hdr.settings.dwellLimit * 1000000 ≤ h.dwellUs
    (h.duty ≠ 0 →
      Ends .fanTach s (State.dutied { s with thermal := { h with tachStart := s.now, fanFault := false } })) ∧
    (h.duty = 0 → Ends .fanTach s s) ∧
    (h.duty ≠ 0 → 2000000 ≤ s.now - h.tachStart → h.fanFault = true →
      Ends .tachWatchExpiry s { s with thermal := { h with tachStart := s.now } }) ∧
    (h.duty ≠ 0 → 2000000 ≤ s.now - h.tachStart → h.fanFault = false → s.lamp.state ≠ .tripped → h.power = .normal →
      Ends .tachWatchExpiry s (State.latched .coolingFault (State.dutied { s with
        lamp := s.lamp.unlit .tripped
        thermal := { h with
          tachStart := s.now, fanFault := true, runOn := if s.lamp.state.lit = true then some s.now else h.runOn } }))) ∧
    ((h.duty = 0 ∨ s.now - h.tachStart < 2000000) → Ends .tachWatchExpiry s s) ∧
    (served → h.power = .normal →
      Ends .runOnTimeReached s (State.dutied { s with thermal := { h with runOn := none } })) ∧
    (served → h.power = .standbyPending → s.lamp.state.lit = false → h.duty ≠ 0 →
      Ends .runOnTimeReached s { s with thermal := { h with runOn := none, power := .standby, duty := 0 } }) ∧
    ((h.runOn = none ∨ 45 ≤ h.th ∨ h.failTh = 4 ∨ (h.runOn = some start ∧ s.now - start < 60000000)) →
      Ends .runOnTimeReached s s) ∧
    (dwell → Ends .dwellLimitReached s
      (State.latched .dwellLimit (State.recapped { s with thermal := { h with dwellFlag := true } }))) ∧
    (¬dwell → Ends .dwellLimitReached s s)

/-! ## The cue track and the tape deck -/

/-- One transition. In ABSENT it starts an acquisition run, and in ACQUIRING one out of 1,282..2,381 µs starts a new
one; one in range joins the run, and makes the carrier PRESENT once the run has lasted 100 ms, with P the average of
the last eight and the tape time 0. In PRESENT one that comes more than 500 ms after the last valid one finds the
carrier lost, latches carrier_lost, fails a frame in progress and starts an acquisition run; an invalid one spoils the
group under assembly; a chip that completes FILL, FILL and START locks the aligner and begins a frame; between frames
a group that is neither FILL nor START returns it to HUNT; in a frame an invalid group fails it, and latches
cue_fault. In standby transitions do nothing. A transition stands its interval after the one before it; the first in
ABSENT stands at the present time when that is later. What the rows carry, that time, and the standby states, are
assumptions 16 and 17. That an acquisition begins the ticks of the tape time afresh is the model's choice (assumption
53). -/
def Obligations.TransitionsAndTheAligner : Prop :=
  ∀ (s : State) (e : CueEdge), Settled s →
    let c := s.cue
    let time := c.lastTransition + e.interval
    let run (start : Nat) : State := { s with cue := { c with
      carrier := .acquiring, runStart := start, runIntervals := [], lastTransition := start } }
    let last8 := (c.runIntervals ++ [e.interval]).drop (c.runIntervals.length + 1 - 8)
    let inRange := 1282 ≤ e.interval ∧ e.interval ≤ 2381
    let oneChip := 4 * (e.interval - c.period) ≤ c.period ∧ 4 * (c.period - e.interval) ≤ c.period
    let tracked := { c with
      lastTransition := time, lastValid := time
      period := max 1282 (min 2381 ((7 * c.period + e.interval) / 8)) }
    let group := c.group ++ [e.tone]
    let grouped := oneChip ∧ 0 < c.period ∧ c.locked = true ∧ group.length = 6 ∧ c.spoiled = false
      ∧ s.hdr.settings.decoding = true
    let hunt (x : CueTrack) : CueTrack := { x with locked := false, window := [], group := [], spoiled := false }
    let late := c.carrier = .present ∧ 500000 < time - c.lastValid
    let kept := c.carrier = .present ∧ time - c.lastValid ≤ 500000
    let again : CueTrack := { hunt c with
      carrier := .acquiring, runStart := max s.now time, runIntervals := [], lastTransition := max s.now time }
    (s.thermal.power ≠ .normal → Ends (.acquisitionRunStart [e]) s s) ∧
    (s.thermal.power = .normal →
      (c.carrier = .absent → Ends (.acquisitionRunStart [e]) s (run (max s.now time))) ∧
      (c.carrier = .acquiring → ¬inRange → Ends (.acquisitionRunStart [e]) s (run time)) ∧
      (c.carrier = .acquiring → inRange → time - c.runStart < 100000 →
        Ends (.carrierAcquired [e]) s { s with cue := { c with runIntervals := last8, lastTransition := time } }) ∧
      (c.carrier = .acquiring → inRange → 100000 ≤ time - c.runStart →
        Ends (.carrierAcquired [e]) s { s with cue := { hunt c with
          carrier := .present, period := last8.foldl (· + ·) 0 / last8.length, runIntervals := last8
          lastValid := time, lastTransition := time, frame := .between, fields := [], tapeTime := 0, tapeUs := 0 } }) ∧
      (late → c.frame = .between →
        Ends (.acquisitionRunStart [e]) s (State.latched .carrierLost { s with cue := again })) ∧
      (late → c.frame ≠ .between → s.hdr.settings.errorLog = false →
        Ends (.frameError [e]) s (State.latched .cueFault (State.latched .carrierLost { s with
          cue := { again with bad := countUp c.bad, frame := .between, fields := [] } }))) ∧
      (kept → 0 < c.period → 7 * c.period < e.interval →
        Ends (.frameError [e]) s { s with cue := { c with lastTransition := time, spoiled := c.locked } }) ∧
      (kept → oneChip → 0 < c.period → c.locked = false → c.window.length = 17 →
        bitsNat (c.window ++ [e.tone]) = 0b101010101010000111 → s.hdr.settings.decoding = true →
        Ends (.alignerLock [e]) s { s with cue := { tracked with
          locked := true, window := [], group := [], spoiled := false, frame := .collecting, fields := [] } }) ∧
      (kept → grouped → c.frame = .between →
        classifyGroup group ≠ .fill → classifyGroup group ≠ .start →
        Ends (.alignerReturnToHunt [e]) s { s with cue := hunt tracked }) ∧
      (kept → grouped → c.frame = .collecting → classifyGroup group = .invalid →
        s.hdr.settings.errorLog = false →
        Ends (.frameError [e]) s (State.latched .cueFault { s with cue := { hunt tracked with
          bad := countUp c.bad, frame := .between, fields := [] } })))

/-- A valid frame of a sequenced kind, addressed to this unit and no repeat, is counted good, logged, and appended to
a queue of fewer than 8, with auto-hold following the depth; an IDLE executor takes it up at once: a FADE sets the
show level when above F and ramps to its level, and an ADVANCE with no tray fails, with no ring without a trace. A
GOTO beyond the tray is only logged, with BAD_PARAM; at a full queue it is logged with DROPPED and cue_fault latched.
A repeat is only counted; a frame for another unit is counted good, and with foreign logging on logged as FOREIGN; a
frame with a wrong check fails, counted bad, and with error logging on logged with its cause. The chip period
follows the frame's intervals one after the other, also with decoding disabled, when the frame has no other effect but
to keep the carrier; with no carrier it has none. That a row is a whole frame, and its END time, are assumption 15; that
a frame whose END lies later than the present time is stamped, in its queue entry and its records, with the present tape
time is the model's choice (assumption 79). -/
def Obligations.SequencedCues : Prop :=
  ∀ (kind : SeqKind) (fr : CueFrame) (s : State) (x : Action), Settled s →
    let k := SeqKind.code kind
    let nibbles := CueFrame.nibbles fr k
    let u := fr.u.toNat
    let p := 256 * fr.p2.toNat + 16 * fr.p1.toNat + fr.p0.toNat
    let beyond := kind = .goto ∧ s.tray.n ≤ p
    let entry : QueueEntry := { kind := kind, param := p, injected := false, tapeTime := s.cue.tapeTime }
    let depth := s.cx.queue.length + 1
    let taken := hears k fr s ∧ ¬repeats nibbles s ∧ addressed u s = true
    let flags := plainFlags false
    (busyAction s x → taken → ¬beyond → s.cx.queue.length < 8 → logRoom s →
      let v := (s.counted nibbles fr.intervals).logged (.cue flags u k p s.cue.tapeTime)
      Ends (seqCue kind fr) s { v with
        cx := { s.cx with queue := s.cx.queue ++ [entry] }
        deck := { s.deck with auto :=
          if s.hdr.settings.autoHold then
            (if 6 ≤ depth then true else if depth ≤ 2 then false else s.deck.auto)
          else s.deck.auto } }) ∧
    (busyAction s x → taken → ¬beyond → 8 ≤ s.cx.queue.length → logRoom s →
      Ends (seqCue kind fr) s (State.latched .cueFault
        ((s.counted nibbles fr.intervals).logged (.cue { flags with dropped := true } u k p s.cue.tapeTime)))) ∧
    (taken → beyond → logRoom s →
      Ends (seqCue kind fr) s
        ((s.counted nibbles fr.intervals).logged (.cue { flags with badParam := true } u k p s.cue.tapeTime))) ∧
    (hears k fr s → ¬repeats nibbles s → addressed u s = false →
      (s.hdr.settings.foreignLog = false → Ends (seqCue kind fr) s (s.counted nibbles fr.intervals)) ∧
      (s.hdr.settings.foreignLog = true → logRoom s →
        Ends (seqCue kind fr) s
          ((s.counted nibbles fr.intervals).logged (.foreign false u k p s.cue.tapeTime)))) ∧
    (hears k fr s → repeats nibbles s →
      Ends (seqCue kind fr) s { s with cue := { CueTrack.afterFrame fr.intervals s.endTime s.cue with
        repeats := countUp s.cue.repeats } }) ∧
    (s.cue.carrier = .present → s.hdr.settings.decoding = true → s.cue.frame = .between → frameChecks k fr = false →
      let failed : State := State.latched .cueFault { s with
        cue := { CueTrack.afterFrame fr.intervals s.endTime s.cue with bad := countUp s.cue.bad } }
      (s.hdr.settings.errorLog = false → Ends (seqCue kind fr) s failed) ∧
      (s.hdr.settings.errorLog = true → logRoom s →
        Ends (seqCue kind fr) s (failed.logged (.frameError .check 7 s.cue.tapeTime)))) ∧
    (s.cue.carrier ≠ .present → Ends (seqCue kind fr) s s) ∧
    (s.cue.carrier = .present → s.hdr.settings.decoding = false →
      Ends (seqCue kind fr) s { s with cue := CueTrack.tracked fr.intervals s.endTime s.cue }) ∧
    (s.cx.action = none → kind = .fade → taken → logRoom s → s.thermal.power = .normal →
      let level := if p / 256 = 15 then 1023 else 68 * (p / 256)
      let rate := p % 256
      let v := (s.counted nibbles fr.intervals).logged (.cue flags u k p s.cue.tapeTime)
      Ends (seqCue kind fr) s
        ((({ v with
            cx := { s.cx with showLevel := if s.lamp.f < level then level else s.cx.showLevel }
            deck := { s.deck with auto := if s.hdr.settings.autoHold then false else s.deck.auto } } : State).doing
          (freshAction (.fade level rate) (.tape s.cue.tapeTime) false .fading)).ramping level rate true false)) ∧
    (s.cx.action = none → kind = .advance → taken → s.thermal.power = .normal → s.tray.state = .trayOut →
      s.hdr.settings.ringBase = 0 →
      Ends (seqCue kind fr) s { s.counted nibbles fr.intervals with
        deck := { s.deck with auto := if s.hdr.settings.autoHold then false else s.deck.auto } })

/-- A valid frame of an immediate kind, addressed to this unit and no repeat, is counted good and logged, and acts at
once: MARK no further, and with no room in the Log Writer's buffer, or in the ring for a record alone in the buffer,
its record is dropped, counted in the overflow counter, and cue_fault latched; an unknown kind is flagged so; HOLD
adds CUE and sets the hold timer, which a parameter of 0 stops; CLIP_STOP fades a playing clip out; CLIP hands a CUT
of the clip to the player. The chip period follows the frame's intervals. That a row is a whole frame, and its END
time, are assumption 15. Where the END lies later than the present time, that the frame is stamped with the present tape
time (assumption 79), and that the time of a HOLD counts from the present time (assumption 81), are the model's
choices. -/
def Obligations.ImmediateCues : Prop :=
  ∀ (fr : CueFrame) (kind : Nibble) (s : State) (i : Nat) (pl : PlayingClip), Settled s →
    let u := fr.u.toNat
    let p := 256 * fr.p2.toNat + 16 * fr.p1.toNat + fr.p0.toNat
    let taken (k : Nat) := hears k fr s ∧ ¬repeats (CueFrame.nibbles fr k) s ∧ addressed u s = true ∧ logRoom s
    let cued (fl : CueFlags) (k : Nat) : State :=
      (s.counted (CueFrame.nibbles fr k) fr.intervals).logged (.cue fl u k p s.cue.tapeTime)
    (taken 10 → Ends (.cueMark fr) s (cued (plainFlags false) 10)) ∧
    (hears 10 fr s → ¬repeats (CueFrame.nibbles fr 10) s → addressed u s = true → logFull s →
      Ends (.cueMark fr) s (s.counted (CueFrame.nibbles fr 10) fr.intervals).overflowed) ∧
    (unknownKind kind = true → taken kind.toNat →
      Ends (.cueUnknownKind kind fr) s (cued { plainFlags false with unknownKind := true } kind.toNat)) ∧
    (taken 9 →
      Ends (.cueHold fr) s { cued (plainFlags false) 9 with
        deck := { s.deck with cue := true, holdUntil := if p = 0 then none else some (s.now + p * 100000) } }) ∧
    (taken 8 → s.clip.state = .playing → s.clip.playing = some pl → s.clip.priming = false → s.clip.start = none →
      s.clip.requests = [] → s.clip.queue = [] →
      Ends (.cueClipStop fr) s { cued (plainFlags false) 8 with
        clip := ClipPlayer.retarget s.now { s.clip with state := .fadingOut, fadeCount := fadeLength pl.desc.rate } }) ∧
    (taken 7 → p / 64 % 2 = 0 → clipMisses (p % 64) i s →
      Ends (.cueClip fr) s ((cued (plainFlags false) 7).fetchingClip (p % 64) i (.tape s.cue.tapeTime)))

/-- 500 ms after the last valid transition the carrier is lost: ABSENT, HUNT, and carrier_lost latched; a frame in
progress fails, counted bad, with cue_fault latched. Sooner, nothing changes. The hold timer that has run out removes
CUE and stops. TAPE_RUN changes are taken. A tick of the tape time is due each 10 ms of carrier and TAPE_RUN, and
returns to 0 after 65,535. What is not due does nothing. What is not due has no effect (assumption 5). That the part
of a tick begun is kept while TAPE_RUN is inactive, and counts on afterwards, is the model's choice (assumption
53). -/
def Obligations.CarrierLossAndTapeTimers : Prop :=
  ∀ (s : State) (t : Nat) (on : Bool), Settled s →
    let c := s.cue
    let gone := { c with carrier := .absent, locked := false, window := [], group := [], spoiled := false }
    let due := c.carrier = .present ∧ 500000 ≤ s.now - c.lastValid
    let ticks := s.cue.carrier = .present ∧ s.deck.tapeRun = true ∧ 10000 ≤ s.cue.tapeUs
    (due → c.frame = .between → Ends .carrierLost s (State.latched .carrierLost { s with cue := gone })) ∧
    (due → c.frame ≠ .between → s.hdr.settings.errorLog = false →
      Ends .carrierLost s (State.latched .cueFault (State.latched .carrierLost { s with
        cue := { gone with bad := countUp c.bad, frame := .between, fields := [] } }))) ∧
    (due → c.frame ≠ .between → s.hdr.settings.errorLog = true → logRoom s →
      Ends .carrierLost s ((State.latched .cueFault (State.latched .carrierLost { s with
        cue := { gone with bad := countUp c.bad, frame := .between, fields := [] } })).logged
          (.frameError .truncated c.fields.length c.tapeTime))) ∧
    (¬due → Ends .carrierLost s s) ∧
    (s.deck.holdUntil = some t → t ≤ s.now →
      Ends .holdTimerExpiry s { s with deck := { s.deck with cue := false, holdUntil := none } }) ∧
    ((s.deck.holdUntil = none ∨ (s.deck.holdUntil = some t ∧ s.now < t)) → Ends .holdTimerExpiry s s) ∧
    Ends (.tapeRun on) s { s with deck := { s.deck with tapeRun := on } } ∧
    (ticks → Ends .tapeTimeTick s { s with cue := { s.cue with
      tapeTime := (s.cue.tapeTime + 1) % 65536, tapeUs := s.cue.tapeUs - 10000 } }) ∧
    (¬ticks → Ends .tapeTimeTick s s)

/-! ## Sound clips -/

/-- A sample word that returns puts its low and its high byte into the FIFO, and of the last word of an odd length the low
byte alone; a play primed with 32 samples, or with fewer at the end of its fetch, has its first one due at the present
time; an abandoned word is discarded. With the last samples of a pass a looping clip with nothing queued begins the next
pass from its start, and any other has fetched its last. A sample due in PLAYING is output scaled by gain
and volume, rounded toward minus infinity; with the FIFO empty it is missed, and underrun latched once a play; after
the last of a play with nothing queued the player is IDLE, and with a clip queued the head leaves the queue, its pin
is released and its play begins. In FADING_OUT the fade count falls and scales the output; with the last sample of the
fade CLIP_OUT is 0, the FIFO empty and the playing clip dropped, and a CUT that waits with its copy begins and is
answered ok, one whose descriptor is not yet answered leaves the player FETCHING, and else the head of the queue
begins, or the player is IDLE; a sample missed lets the count fall too, with the output repeated, and ends the fade as the
last of it does. A gain tick moves G along its ramp. Due times are rounded down to a microsecond
(assumption 9). That the ticks of a gain ramp are counted from its start is the model's choice (assumption 60). What
is not due, as a sample is before its time and while the play is priming, and a sample outside a play, has no effect
(assumption 5). -/
def Obligations.SamplesAndGain : Prop :=
  ∀ (s : State) (a : RamAccess) (x : Int) (rest : List Int) (p : PlayingClip) (g : GainRamp) (q : ClipEntry)
      (later : List ClipEntry) (st : StartRecord) (copy : List Word), Settled s →
    let c := s.clip
    let lo : Int := (loByte a.data).toInt
    let hi : Int := (hiByte a.data).toInt
    let fifo := c.fifo ++ [lo, hi]
    let primed := c.priming = true ∧ 32 ≤ fifo.length
    let due := c.playing = some p ∧ c.priming = false
      ∧ c.sampleBase + c.samples * 1000000 / sampleRate p.desc.rate ≤ s.now
    let n := fadeLength p.desc.rate
    let k := g.ticks + 1
    let len := if g.gt < g.g0 then 50 else 300
    let fadeOver (l : ClipPlayer) (f : State → State) : Prop :=
      let faded : ClipPlayer := { l with
        lastOutput := 0, fifo := [], playing := none, fadeCount := 0, fetchDone := true, samples := c.samples + 1 }
      let w : State := { s with clip := { c with start := none } }
      (c.start = none → c.queue = [] →
        Ends .sampleDue s (f { s with clip := ClipPlayer.retarget s.now { faded with state := .idle } })) ∧
      (c.start = none → c.queue = q :: later →
        Ends .sampleDue s (f { s with
          shadow := if q.pinned then (releasePin .clip q.clip s).shadow else s.shadow
          clip := ClipPlayer.begun q.clip q.source (descriptorOf q.copy) s.now { faded with queue := later } })) ∧
      (c.start = some st → st.request.queueMode = false → st.copy = some copy → c.requests = [] →
        startPosts st.request.source s →
        Ends .sampleDue s (f (State.startAnswered st.request.source .ok { s with
          shadow := if st.pinned then (releasePin .clip st.request.clip w).shadow else s.shadow
          clip := ClipPlayer.begun st.request.clip st.request.source (descriptorOf copy) s.now
            { faded with start := none } }))) ∧
      (c.start = some st → st.request.queueMode = false → st.copy = none →
        Ends .sampleDue s (f { s with clip := ClipPlayer.retarget s.now { faded with state := .fetching } }))
    (s.port.ram = some a → a.who = .clipPlayer → a.void = true → Ends .sampleWordReturned s s) ∧
    (s.port.ram = some a → a.who = .clipPlayer → a.void = false → 2 < c.toFetch → c.fetchDone = false →
      Ends .sampleWordReturned s { s with clip := { c with
        fifo := fifo, toFetch := c.toFetch - 2, fetchAddr := c.fetchAddr + 2
        priming := if primed then false else c.priming
        sampleBase := if primed then s.now else c.sampleBase
        samples := if primed then 0 else c.samples } }) ∧
    (s.port.ram = some a → a.who = .clipPlayer → a.void = false → c.fetchDone = false → c.playing = some p →
      (c.toFetch = 1 ∨ c.toFetch = 2) →
      let last := if c.toFetch = 1 then c.fifo ++ [lo] else fifo
      let again := p.desc.loop = true ∧ c.queue = []
      let primed := c.priming = true ∧ (32 ≤ last.length ∨ ¬again)
      Ends .sampleWordReturned s { s with clip := { c with
        fifo := last
        toFetch := if again then p.desc.length else 0
        fetchAddr := if again then p.desc.start else c.fetchAddr + 2
        fetchDone := decide (¬again)
        priming := if primed then false else c.priming
        sampleBase := if primed then s.now else c.sampleBase
        samples := if primed then 0 else c.samples } }) ∧
    (due → c.state = .playing → c.fifo = x :: rest → (c.fetchDone = false ∨ rest ≠ []) →
      Ends .sampleDue s { s with clip := { c with
        fifo := rest, samples := c.samples + 1, lastOutput := x * p.desc.gain * c.volume / 65536 } }) ∧
    (due → c.state = .playing → c.fifo = [x] → c.fetchDone = true → c.queue = [] →
      Ends .sampleDue s { s with clip := ClipPlayer.retarget s.now { c with
        state := .idle, playing := none, fifo := [], samples := c.samples + 1, lastOutput := 0 } }) ∧
    (due → c.state = .playing → c.fifo = [x] → c.fetchDone = true → c.queue = q :: later →
      Ends .sampleDue s { s with
        shadow := if q.pinned then (releasePin .clip q.clip s).shadow else s.shadow
        clip := ClipPlayer.begun q.clip q.source (descriptorOf q.copy) s.now
          { c with queue := later, samples := c.samples + 1 } }) ∧
    (due → c.state = .fadingOut → c.fifo = x :: rest → (c.fadeCount ≤ 1 ∨ (c.fetchDone = true ∧ rest = [])) →
      fadeOver c id) ∧
    (due → c.state = .fadingOut → c.fifo = x :: rest → 1 < c.fadeCount → (c.fetchDone = false ∨ rest ≠ []) →
      Ends .sampleDue s { s with clip := { c with
        fifo := rest, samples := c.samples + 1, fadeCount := c.fadeCount - 1
        lastOutput := x * p.desc.gain * c.volume * ((c.fadeCount - 1 : Nat) : Int) / (65536 * n) } }) ∧
    (due → c.fifo = [] → c.fetchDone = false →
      let missed : ClipPlayer := { c with underruns := countUp c.underruns, underrunReported := true }
      let latched (u : State) : State := if c.underrunReported then u else State.latched .underrun u
      (c.state = .playing → Ends .sampleDue s (latched { s with clip := { missed with samples := c.samples + 1 } })) ∧
      (c.state = .fadingOut → 1 < c.fadeCount →
        Ends .sampleDue s (latched { s with clip := { missed with
          samples := c.samples + 1, fadeCount := c.fadeCount - 1 } })) ∧
      (c.state = .fadingOut → c.fadeCount ≤ 1 → fadeOver missed latched)) ∧
    (c.state ≠ .playing → c.state ≠ .fadingOut → Ends .sampleDue s s) ∧
    ((c.priming = true ∨ (c.playing = some p ∧
        s.now < c.sampleBase + c.samples * 1000000 / sampleRate p.desc.rate)) → Ends .sampleDue s s) ∧
    (c.gainRamp = some g → g.start + k * 1000 ≤ s.now → k < len →
      Ends .gainRampTick s { s with clip := { c with
        gain := if g.gt < g.g0 then g.g0 - (g.g0 - g.gt) * k / 50 else g.g0 + (g.gt - g.g0) * k / 300
        gainRamp := some { g with ticks := k } } }) ∧
    (c.gainRamp = some g → g.start + k * 1000 ≤ s.now → len ≤ k →
      Ends .gainRampTick s { s with clip := { c with gain := g.gt, gainRamp := none } }) ∧
    ((c.gainRamp = none ∨ (c.gainRamp = some g ∧ s.now < g.start + k * 1000)) → Ends .gainRampTick s s)

/-! ## The hand remote, the panel and the focus motor -/

/-- FWD, REV, DISSOLVE and LAMP in NORMAL. While the executor is busy, a new press of the remote that the lockout does
not refuse moves the net count by one within −9..+9, or makes the one-shot that key; and a panel key active for 20 ms
makes its press without touching the last frame. An IDLE executor takes the press up at once: LAMP ramps an ON lamp to F
with the off mark and starts the warming of an OFF one, and FWD in OPEN mode begins the lift of an ADVANCE of 1, which
releases the pin of the slide shown. A refused press, and a repeat, are only the last frame; a frame that is not
accepted only ends the reception; a panel key held through the RESET pin only goes down; a shorter one does nothing.
What a row carries is assumption 18. -/
def Obligations.ShowKeys : Prop :=
  ∀ (fr : RemoteFrame) (s : State) (x : Action) (d : Nat), Settled s → s.thermal.power = .normal →
    let r := s.remote
    let got (key : Nat) : Remote := r.framed fr.sys.toNat key fr.toggle.toNat s.now
    let idle : Remote := { r with line := .waiting, bits := [], markSeen := false }
    let allowed := s.prog = false ∨ s.hdr.settings.override = true
    let up := min 9 (r.netCount + 1)
    let down := max (-9) (r.netCount - 1)
    let held : PanelKeyState := { down := true, heldAtPin := false }
    let idleLamp := s.cx.action = none ∧ accepts 4 fr s ∧ ¬heldKey 4 fr s ∧ allowed
    let lampKey (on : Bool) (ph : Phase) : State :=
      ({ s with remote := got 4 } : State).doing (freshAction (.lamp on) .remote false ph)
    (busyAction s x →
     (-9 ≤ r.netCount → accepts 1 fr s → ¬heldKey 1 fr s → allowed →
       Ends (.keyFwd (.remote fr)) s { s with remote := { got 1 with netCount := up } }) ∧
     (r.netCount ≤ 9 → accepts 2 fr s → ¬heldKey 2 fr s → allowed →
       Ends (.keyRev (.remote fr)) s { s with remote := { got 2 with netCount := down } }) ∧
     (accepts 3 fr s → ¬heldKey 3 fr s → allowed →
       Ends (.keyDissolve fr) s { s with remote := { got 3 with oneShot := some .dissolve } }) ∧
     (accepts 4 fr s → ¬heldKey 4 fr s → allowed →
       Ends (.keyLamp (.remote fr)) s { s with remote := { got 4 with oneShot := some .lamp } }) ∧
     (-9 ≤ r.netCount → 20000 ≤ d → r.keyFwd.down = false → r.keyFwd.heldAtPin = false → allowed →
       Ends (.keyFwd (.panel d)) s { s with remote := { r with keyFwd := held, netCount := up } }) ∧
     (20000 ≤ d → r.keyLamp.down = false → r.keyLamp.heldAtPin = false → allowed →
       Ends (.keyLamp (.panel d)) s { s with remote := { r with keyLamp := held, oneShot := some .lamp } })) ∧
    (accepts 1 fr s → ¬allowed → Ends (.keyFwd (.remote fr)) s { s with remote := got 1 }) ∧
    (accepts 4 fr s → heldKey 4 fr s → Ends (.keyLamp (.remote fr)) s { s with remote := got 4 }) ∧
    (¬accepts 3 fr s → Ends (.keyDissolve fr) s { s with remote := idle }) ∧
    (20000 ≤ d → r.keyRev.down = false → r.keyRev.heldAtPin = true →
      Ends (.keyRev (.panel d)) s { s with remote := { r with keyRev := held } }) ∧
    ((d < 20000 ∨ r.keyFwd.down = true) → Ends (.keyFwd (.panel d)) s s) ∧
    (idleLamp → s.lamp.state = .on →
      Ends (.keyLamp (.remote fr)) s
        ((lampKey false .fading).ramping s.lamp.f s.hdr.settings.blankRate true true)) ∧
    (idleLamp → s.lamp.state = .off → s.thermal.fanFault = false → s.thermal.sensorFault = false →
      Ends (.keyLamp (.remote fr)) s (lampKey true .warming).warmingBegun) ∧
    (s.cx.action = none → accepts 1 fr s → ¬heldKey 1 fr s → allowed → s.hdr.settings.changeMode = .opened →
      liftsAtOnce s →
      Lifts (.keyFwd (.remote fr)) s { ({ s with remote := got 1 } : State).doing
          { freshAction (.advance 1) .remote false .moving with issued := true } with
        tray := s.tray.lifted (TrayRequest.planned (.advance 1) false
          { dir := .forward, dest := (s.tray.slot + 1) % s.tray.n, toGo := 1 }) s.now })

/-- In a standby state a new LAMP press wakes the unit when wake-by-remote is set, and FWD is refused. HOLD adds
REMOTE, RELEASE removes CUE, HOST and REMOTE and stops the hold timer, STOP with nothing to stop changes nothing and
in a fading phase of the action freezes the ramp and ends the action aborted, one of a cue with an EXEC_FAIL record,
CLIP n hands a CUT of clip n to the player, and any other key does nothing: each new press is also the last frame.
What a row carries is assumption 18. That the STOP key sets no abort mark on an ACCEPTED command is assumption 20, and
that the wake leaves a clip that is fading as it is is 66. -/
def Obligations.OtherKeys : Prop :=
  ∀ (fr : RemoteFrame) (n : BitVec 2) (key : BitVec 6) (i : Nat) (s : State) (x : Action),
    Settled s →
    let got (k : Nat) : Remote := s.remote.framed fr.sys.toNat k fr.toggle.toNat s.now
    let press (k : Nat) : Prop := accepts k fr s ∧ ¬heldKey k fr s
    (press 4 → s.thermal.power ≠ .normal → s.hdr.settings.wakeByRemote = true →
      Ends (.keyLamp (.remote fr)) s (State.dutied { s with
        remote := got 4, thermal := { s.thermal with power := .normal } })) ∧
    (press 1 → s.thermal.power ≠ .normal → Ends (.keyFwd (.remote fr)) s { s with remote := got 1 }) ∧
    (press 6 → Ends (.keyHold fr) s { s with remote := got 6, deck := { s.deck with remote := true } }) ∧
    (press 7 → Ends (.keyRelease fr) s { s with
      remote := got 7, deck := { s.deck with cue := false, host := false, remote := false, holdUntil := none } }) ∧
    (press 5 → s.cx.action = none → s.remote.focus = none → Ends (.keyStop fr) s { s with remote := got 5 }) ∧
    (press 5 → s.cx.action = some x → x.phase ≠ .moving → x.phase ≠ .warming → s.remote.focus = none →
      s.thermal.power = .normal → endsAlone s x →
      Ends (.keyStop fr) s (({ s with remote := got 5, lamp := { s.lamp with ramp := none } } : State).actionEnded
        x .aborted (x.answer s))) ∧
    (press (16 + n.toNat) → clipMisses n.toNat i s →
      Ends (.keyClip n fr) s
        (({ s with remote := got (16 + n.toNat) } : State).fetchingClip n.toNat i .remote)) ∧
    (keyCodes.contains key.toNat = false → accepts key.toNat fr s →
      Ends (.keyOther key fr) s { s with remote := got key.toNat })

/-- A new focus press starts a 4 s run in its direction, owned by the remote or the panel, and takes the motor over from
any run held; a COMMAND run taken over ends its FOCUS command aborted. A repeat of a remote run's key renews it. The
release of the panel key ends the run it started; 250 ms without a repeat end a remote run; the time limit and a stall
end any, and one of an ACTIVE FOCUS ends its command ok. What is not due, and a release too short, does nothing. What a
row carries is assumption 18, and what is not due has no effect (assumption 5). That a run starts whatever stall was
reported before is assumption 67, and that only the key of the run's direction ends a panel run is 69. -/
def Obligations.FocusRuns : Prop :=
  ∀ (fr : RemoteFrame) (s : State) (run : FocusRun) (d : Nat) (k : PanelKey), Settled s →
    let r := s.remote
    let got (key : Nat) : Remote := r.framed fr.sys.toNat key fr.toggle.toNat s.now
    let held : PanelKeyState := { down := true, heldAtPin := false }
    let off : State := { s with remote := { r with focus := none } }
    let fresh (inward : Bool) (o : FocusOwner) : FocusRun := FocusRun.fresh inward o 4000000 s.now
    let starts (f : State → State) : Prop :=
      (accepts 8 fr s → ¬heldKey 8 fr s →
        Ends (.keyFocusIn (.remote fr)) s (f { s with remote := { got 8 with focus := some (fresh true .remote) } })) ∧
      (accepts 9 fr s → ¬heldKey 9 fr s →
        Ends (.keyFocusOut (.remote fr)) s (f { s with remote := { got 9 with focus := some (fresh false .remote) } })) ∧
      (20000 ≤ d → r.keyFocusIn.down = false → r.keyFocusIn.heldAtPin = false →
        Ends (.keyFocusIn (.panel d)) s
          (f { s with remote := { r with keyFocusIn := held, focus := some (fresh true .panel) } })) ∧
      (20000 ≤ d → r.keyFocusOut.down = false → r.keyFocusOut.heldAtPin = false →
        Ends (.keyFocusOut (.panel d)) s
          (f { s with remote := { r with keyFocusOut := held, focus := some (fresh false .panel) } }))
    (s.thermal.power = .normal → (∀ f ∈ r.focus, f.owner ≠ .command) → starts id) ∧
    (s.thermal.power = .normal → r.focus = some run → run.owner = .command → s.hdr.record.state = .active →
      s.hdr.record.code = codeFocus → starts (State.ended .aborted 0 (plainLastSlot s))) ∧
    (r.focus = some run → run.owner = .remote → run.inward = true → accepts 8 fr s → heldKey 8 fr s →
      Ends (.keyFocusIn (.remote fr)) s
        { s with remote := { got 8 with focus := some { run with lastRepeat := s.now } } }) ∧
    (20000 ≤ d → r.focus = some run → run.owner = .panel → run.inward = true → r.keyFocusIn.down = true →
      Ends (.panelKeyRelease .focusIn d) s
        { s with remote := { r with keyFocusIn := { down := false, heldAtPin := false }, focus := none } }) ∧
    (20000 ≤ d → r.focus = some run → run.owner = .panel → run.inward = false → r.keyFocusOut.down = true →
      Ends (.panelKeyRelease .focusOut d) s
        { s with remote := { r with keyFocusOut := { down := false, heldAtPin := false }, focus := none } }) ∧
    (20000 ≤ d → r.focus = some run → (run.owner ≠ .panel ∨ k ≠ if run.inward then .focusIn else .focusOut) →
      Ends (.panelKeyRelease k d) s { s with remote := r.setKey k { down := false, heldAtPin := false } }) ∧
    (20000 ≤ d → r.focus = none →
      Ends (.panelKeyRelease k d) s { s with remote := r.setKey k { down := false, heldAtPin := false } }) ∧
    (d < 20000 → Ends (.panelKeyRelease k d) s s) ∧
    (r.focus = some run → run.owner = .remote → 250000 ≤ s.now - run.lastRepeat → Ends .remoteRepeatTimeout s off) ∧
    (r.focus = some run → (run.owner ≠ .remote ∨ s.now - run.lastRepeat < 250000) → Ends .remoteRepeatTimeout s s) ∧
    (r.focus = some run → run.limit ≤ s.now - run.start → run.owner ≠ .command → Ends .focusTimeLimit s off) ∧
    (r.focus = some run → run.limit ≤ s.now - run.start → run.owner = .command → s.hdr.record.state = .active →
      s.hdr.record.code = codeFocus → Ends .focusTimeLimit s (off.ended .ok 0 (plainLastSlot s))) ∧
    (r.focus = some run → s.now - run.start < run.limit → Ends .focusTimeLimit s s) ∧
    (r.focus = some run → run.owner ≠ .command → Ends .focusStall s off) ∧
    (r.focus = some run → run.owner = .command → s.hdr.record.state = .active → s.hdr.record.code = codeFocus →
      Ends .focusStall s (off.ended .ok 0 (plainLastSlot s))) ∧
    (r.focus = none → Ends .focusStall s s ∧ Ends .focusTimeLimit s s ∧ Ends .remoteRepeatTimeout s s)

/-- A mark of 4.5 to 7.5 ms brings the line from WAITING to LEADER, and a space of 2.25 to 3.75 ms after it to BITS
with no bits. In BITS a mark outside 0.3..0.7 ms, or a space that carries no bit, abandons the frame: the bits are
discarded, the line is WAITING, or LEADER when the mark is itself a leader mark, and the last frame is unchanged. What
the row carries is assumption 19. -/
def Obligations.FramesAreAbandoned : Prop :=
  ∀ (s : State) (len : Nat), Settled s →
    let r := s.remote
    let waiting : State := { s with remote := { r with line := .waiting, bits := [], markSeen := false } }
    let leader : State := { s with remote := { r with line := .leader, bits := [], markSeen := true } }
    (r.line = .waiting → 4500 ≤ len → len ≤ 7500 → Ends (.remoteFrameAbandoned [.mark len]) s leader) ∧
    (r.line = .leader → 2250 ≤ len → len ≤ 3750 →
      Ends (.remoteFrameAbandoned [.space len]) s
        { s with remote := { r with line := .bits, bits := [], markSeen := false } }) ∧
    (r.line = .leader → (len < 2250 ∨ 3750 < len) → Ends (.remoteFrameAbandoned [.space len]) s waiting) ∧
    (r.line = .bits → r.markSeen = false → (len < 300 ∨ 700 < len) → (len < 4500 ∨ 7500 < len) →
      Ends (.remoteFrameAbandoned [.mark len]) s waiting) ∧
    (r.line = .bits → r.markSeen = false → 4500 ≤ len → len ≤ 7500 →
      Ends (.remoteFrameAbandoned [.mark len]) s leader) ∧
    (r.line = .bits → r.markSeen = true → (len < 300 ∨ (700 < len ∧ len < 1200) ∨ 1800 < len) →
      Ends (.remoteFrameAbandoned [.space len]) s waiting) ∧
    ((r.line = .bits ∨ r.line = .closing) → r.markSeen = false → 3750 < len →
      Ends (.remoteFrameAbandoned [.space len]) s waiting)

/-! ## Invariants -/

/-- Every step keeps the canonical form of the memory. The byte that is not listed is assumption 3. -/
def Obligations.EveryStepKeepsTheMemoryForm : Prop :=
  ∀ s t : State, Memory.wf s.mem = true → step s = .next t → Memory.wf t.mem = true

/-- Every step keeps the order of the thermal settings, Tr < Td < Tt, with the ranges that the clamps give. -/
def Obligations.EveryStepKeepsTheThermalOrder : Prop :=
  ∀ s t : State, s.hdr.settings.thermalOrder → step s = .next t → t.hdr.settings.thermalOrder

/-- Every step keeps the laws of the fan and of the standby deferral: the duty is the one commanded for the present
inputs, and in STANDBY the lamp is neither WARMING nor ON and run-on is not active. A first reading in STANDBY starts
no run-on (assumption 24). -/
def Obligations.EveryStepKeepsTheCoolingLaw : Prop :=
  ∀ s t : State, CoolingLaw s → step s = .next t → CoolingLaw t

/-- Every step keeps the law of the Status Block: each of its 64 words, as last written, reads as the state has it, or
is dirty, requested, or in the RAM with the present content. -/
def Obligations.EveryStepKeepsTheStatusBlock : Prop :=
  ∀ s t : State, StatusKept s → step s = .next t → StatusKept t

/-- The machine right after reset meets the invariants. -/
def Obligations.ResetMeetsTheInvariants : Prop :=
  Memory.wf State.reset.mem = true ∧ State.reset.hdr.settings.thermalOrder ∧ CoolingLaw State.reset
    ∧ StatusKept State.reset
end

