-- ==== Sys2Proof/Laws/State.lean ====
section
/-! SUPPORT. One lemma per field of the state for each named update: what it writes, and that it leaves the other fields
alone. Later proofs rewrite with these and never unfold an update. -/

namespace Sys2Proof.Machine

/-! ## Marks of the Status Writer -/

/-! ### markDirty -/

@[simp] theorem markDirty_mem (i : Nat) (s : State) : (markDirty i s).mem = s.mem := rfl
@[simp] theorem markDirty_port (i : Nat) (s : State) : (markDirty i s).port = s.port := rfl
@[simp] theorem markDirty_hdr (i : Nat) (s : State) : (markDirty i s).hdr = s.hdr := rfl
@[simp] theorem markDirty_cx (i : Nat) (s : State) : (markDirty i s).cx = s.cx := rfl
@[simp] theorem markDirty_tray (i : Nat) (s : State) : (markDirty i s).tray = s.tray := rfl
@[simp] theorem markDirty_shadow (i : Nat) (s : State) : (markDirty i s).shadow = s.shadow := rfl
@[simp] theorem markDirty_lamp (i : Nat) (s : State) : (markDirty i s).lamp = s.lamp := rfl
@[simp] theorem markDirty_thermal (i : Nat) (s : State) : (markDirty i s).thermal = s.thermal := rfl
@[simp] theorem markDirty_cue (i : Nat) (s : State) : (markDirty i s).cue = s.cue := rfl
@[simp] theorem markDirty_log (i : Nat) (s : State) : (markDirty i s).log = s.log := rfl
@[simp] theorem markDirty_deck (i : Nat) (s : State) : (markDirty i s).deck = s.deck := rfl
@[simp] theorem markDirty_clip (i : Nat) (s : State) : (markDirty i s).clip = s.clip := rfl
@[simp] theorem markDirty_remote (i : Nat) (s : State) : (markDirty i s).remote = s.remote := rfl
@[simp] theorem markDirty_unit (i : Nat) (s : State) : (markDirty i s).unit = s.unit := rfl
@[simp] theorem markDirty_resetHeld (i : Nat) (s : State) : (markDirty i s).resetHeld = s.resetHeld := rfl
@[simp] theorem markDirty_now (i : Nat) (s : State) : (markDirty i s).now = s.now := rfl
@[simp] theorem markDirty_pending (i : Nat) (s : State) : (markDirty i s).pending = s.pending := rfl

/-! ### markIf -/

@[simp] theorem markIf_mem (b : Bool) (i : Nat) (s : State) : (markIf b i s).mem = s.mem := by cases b <;> rfl
@[simp] theorem markIf_port (b : Bool) (i : Nat) (s : State) : (markIf b i s).port = s.port := by cases b <;> rfl
@[simp] theorem markIf_hdr (b : Bool) (i : Nat) (s : State) : (markIf b i s).hdr = s.hdr := by cases b <;> rfl
@[simp] theorem markIf_cx (b : Bool) (i : Nat) (s : State) : (markIf b i s).cx = s.cx := by cases b <;> rfl
@[simp] theorem markIf_tray (b : Bool) (i : Nat) (s : State) : (markIf b i s).tray = s.tray := by cases b <;> rfl
@[simp] theorem markIf_shadow (b : Bool) (i : Nat) (s : State) : (markIf b i s).shadow = s.shadow := by cases b <;> rfl
@[simp] theorem markIf_lamp (b : Bool) (i : Nat) (s : State) : (markIf b i s).lamp = s.lamp := by cases b <;> rfl
@[simp] theorem markIf_thermal (b : Bool) (i : Nat) (s : State) : (markIf b i s).thermal = s.thermal := by cases b <;> rfl
@[simp] theorem markIf_cue (b : Bool) (i : Nat) (s : State) : (markIf b i s).cue = s.cue := by cases b <;> rfl
@[simp] theorem markIf_log (b : Bool) (i : Nat) (s : State) : (markIf b i s).log = s.log := by cases b <;> rfl
@[simp] theorem markIf_deck (b : Bool) (i : Nat) (s : State) : (markIf b i s).deck = s.deck := by cases b <;> rfl
@[simp] theorem markIf_clip (b : Bool) (i : Nat) (s : State) : (markIf b i s).clip = s.clip := by cases b <;> rfl
@[simp] theorem markIf_remote (b : Bool) (i : Nat) (s : State) : (markIf b i s).remote = s.remote := by cases b <;> rfl
@[simp] theorem markIf_unit (b : Bool) (i : Nat) (s : State) : (markIf b i s).unit = s.unit := by cases b <;> rfl
@[simp] theorem markIf_resetHeld (b : Bool) (i : Nat) (s : State) : (markIf b i s).resetHeld = s.resetHeld := by cases b <;> rfl
@[simp] theorem markIf_now (b : Bool) (i : Nat) (s : State) : (markIf b i s).now = s.now := by cases b <;> rfl
@[simp] theorem markIf_pending (b : Bool) (i : Nat) (s : State) : (markIf b i s).pending = s.pending := by cases b <;> rfl

/-! ### markStatus -/

@[simp] theorem markStatus_mem  (s : State) : (markStatus  s).mem = s.mem := rfl
@[simp] theorem markStatus_port  (s : State) : (markStatus  s).port = s.port := rfl
@[simp] theorem markStatus_hdr  (s : State) : (markStatus  s).hdr = s.hdr := rfl
@[simp] theorem markStatus_cx  (s : State) : (markStatus  s).cx = s.cx := rfl
@[simp] theorem markStatus_tray  (s : State) : (markStatus  s).tray = s.tray := rfl
@[simp] theorem markStatus_shadow  (s : State) : (markStatus  s).shadow = s.shadow := rfl
@[simp] theorem markStatus_lamp  (s : State) : (markStatus  s).lamp = s.lamp := rfl
@[simp] theorem markStatus_thermal  (s : State) : (markStatus  s).thermal = s.thermal := rfl
@[simp] theorem markStatus_cue  (s : State) : (markStatus  s).cue = s.cue := rfl
@[simp] theorem markStatus_log  (s : State) : (markStatus  s).log = s.log := rfl
@[simp] theorem markStatus_deck  (s : State) : (markStatus  s).deck = s.deck := rfl
@[simp] theorem markStatus_clip  (s : State) : (markStatus  s).clip = s.clip := rfl
@[simp] theorem markStatus_remote  (s : State) : (markStatus  s).remote = s.remote := rfl
@[simp] theorem markStatus_unit  (s : State) : (markStatus  s).unit = s.unit := rfl
@[simp] theorem markStatus_resetHeld  (s : State) : (markStatus  s).resetHeld = s.resetHeld := rfl
@[simp] theorem markStatus_now  (s : State) : (markStatus  s).now = s.now := rfl
@[simp] theorem markStatus_pending  (s : State) : (markStatus  s).pending = s.pending := rfl

/-! ### markStatusIf -/

@[simp] theorem markStatusIf_mem (b : Bool) (s : State) : (markStatusIf b s).mem = s.mem := by cases b <;> rfl
@[simp] theorem markStatusIf_port (b : Bool) (s : State) : (markStatusIf b s).port = s.port := by cases b <;> rfl
@[simp] theorem markStatusIf_hdr (b : Bool) (s : State) : (markStatusIf b s).hdr = s.hdr := by cases b <;> rfl
@[simp] theorem markStatusIf_cx (b : Bool) (s : State) : (markStatusIf b s).cx = s.cx := by cases b <;> rfl
@[simp] theorem markStatusIf_tray (b : Bool) (s : State) : (markStatusIf b s).tray = s.tray := by cases b <;> rfl
@[simp] theorem markStatusIf_shadow (b : Bool) (s : State) : (markStatusIf b s).shadow = s.shadow := by cases b <;> rfl
@[simp] theorem markStatusIf_lamp (b : Bool) (s : State) : (markStatusIf b s).lamp = s.lamp := by cases b <;> rfl
@[simp] theorem markStatusIf_thermal (b : Bool) (s : State) : (markStatusIf b s).thermal = s.thermal := by cases b <;> rfl
@[simp] theorem markStatusIf_cue (b : Bool) (s : State) : (markStatusIf b s).cue = s.cue := by cases b <;> rfl
@[simp] theorem markStatusIf_log (b : Bool) (s : State) : (markStatusIf b s).log = s.log := by cases b <;> rfl
@[simp] theorem markStatusIf_deck (b : Bool) (s : State) : (markStatusIf b s).deck = s.deck := by cases b <;> rfl
@[simp] theorem markStatusIf_clip (b : Bool) (s : State) : (markStatusIf b s).clip = s.clip := by cases b <;> rfl
@[simp] theorem markStatusIf_remote (b : Bool) (s : State) : (markStatusIf b s).remote = s.remote := by cases b <;> rfl
@[simp] theorem markStatusIf_unit (b : Bool) (s : State) : (markStatusIf b s).unit = s.unit := by cases b <;> rfl
@[simp] theorem markStatusIf_resetHeld (b : Bool) (s : State) : (markStatusIf b s).resetHeld = s.resetHeld := by cases b <;> rfl
@[simp] theorem markStatusIf_now (b : Bool) (s : State) : (markStatusIf b s).now = s.now := by cases b <;> rfl
@[simp] theorem markStatusIf_pending (b : Bool) (s : State) : (markStatusIf b s).pending = s.pending := by cases b <;> rfl

/-! ### markAll -/

@[simp] theorem markAll_mem  (s : State) : (markAll  s).mem = s.mem := rfl
@[simp] theorem markAll_port  (s : State) : (markAll  s).port = s.port := rfl
@[simp] theorem markAll_hdr  (s : State) : (markAll  s).hdr = s.hdr := rfl
@[simp] theorem markAll_cx  (s : State) : (markAll  s).cx = s.cx := rfl
@[simp] theorem markAll_tray  (s : State) : (markAll  s).tray = s.tray := rfl
@[simp] theorem markAll_shadow  (s : State) : (markAll  s).shadow = s.shadow := rfl
@[simp] theorem markAll_lamp  (s : State) : (markAll  s).lamp = s.lamp := rfl
@[simp] theorem markAll_thermal  (s : State) : (markAll  s).thermal = s.thermal := rfl
@[simp] theorem markAll_cue  (s : State) : (markAll  s).cue = s.cue := rfl
@[simp] theorem markAll_log  (s : State) : (markAll  s).log = s.log := rfl
@[simp] theorem markAll_deck  (s : State) : (markAll  s).deck = s.deck := rfl
@[simp] theorem markAll_clip  (s : State) : (markAll  s).clip = s.clip := rfl
@[simp] theorem markAll_remote  (s : State) : (markAll  s).remote = s.remote := rfl
@[simp] theorem markAll_unit  (s : State) : (markAll  s).unit = s.unit := rfl
@[simp] theorem markAll_resetHeld  (s : State) : (markAll  s).resetHeld = s.resetHeld := rfl
@[simp] theorem markAll_now  (s : State) : (markAll  s).now = s.now := rfl
@[simp] theorem markAll_pending  (s : State) : (markAll  s).pending = s.pending := rfl

/-! ### latch -/

@[simp] theorem latch_mem (e : Event) (s : State) : (latch e s).mem = s.mem := by unfold latch; split <;> simp
@[simp] theorem latch_port (e : Event) (s : State) : (latch e s).port = s.port := by unfold latch; split <;> simp
@[simp] theorem latch_hdr (e : Event) (s : State) : (latch e s).hdr = s.hdr := by unfold latch; split <;> simp
@[simp] theorem latch_cx (e : Event) (s : State) : (latch e s).cx = s.cx := by unfold latch; split <;> simp
@[simp] theorem latch_tray (e : Event) (s : State) : (latch e s).tray = s.tray := by unfold latch; split <;> simp
@[simp] theorem latch_shadow (e : Event) (s : State) : (latch e s).shadow = s.shadow := by unfold latch; split <;> simp
@[simp] theorem latch_lamp (e : Event) (s : State) : (latch e s).lamp = s.lamp := by unfold latch; split <;> simp
@[simp] theorem latch_thermal (e : Event) (s : State) : (latch e s).thermal = s.thermal := by unfold latch; split <;> simp
@[simp] theorem latch_cue (e : Event) (s : State) : (latch e s).cue = s.cue := by unfold latch; split <;> simp
@[simp] theorem latch_log (e : Event) (s : State) : (latch e s).log = s.log := by unfold latch; split <;> simp
@[simp] theorem latch_deck (e : Event) (s : State) : (latch e s).deck = s.deck := by unfold latch; split <;> simp
@[simp] theorem latch_clip (e : Event) (s : State) : (latch e s).clip = s.clip := by unfold latch; split <;> simp
@[simp] theorem latch_remote (e : Event) (s : State) : (latch e s).remote = s.remote := by unfold latch; split <;> simp
@[simp] theorem latch_unit (e : Event) (s : State) : (latch e s).unit = s.unit := by unfold latch; split <;> simp
@[simp] theorem latch_resetHeld (e : Event) (s : State) : (latch e s).resetHeld = s.resetHeld := by unfold latch; split <;> simp
@[simp] theorem latch_now (e : Event) (s : State) : (latch e s).now = s.now := by unfold latch; split <;> simp
@[simp] theorem latch_pending (e : Event) (s : State) : (latch e s).pending = s.pending := by unfold latch; split <;> simp

/-! ### latchIf -/

@[simp] theorem latchIf_mem (b : Bool) (e : Event) (s : State) : (latchIf b e s).mem = s.mem := by cases b <;> simp [latchIf]
@[simp] theorem latchIf_port (b : Bool) (e : Event) (s : State) : (latchIf b e s).port = s.port := by cases b <;> simp [latchIf]
@[simp] theorem latchIf_hdr (b : Bool) (e : Event) (s : State) : (latchIf b e s).hdr = s.hdr := by cases b <;> simp [latchIf]
@[simp] theorem latchIf_cx (b : Bool) (e : Event) (s : State) : (latchIf b e s).cx = s.cx := by cases b <;> simp [latchIf]
@[simp] theorem latchIf_tray (b : Bool) (e : Event) (s : State) : (latchIf b e s).tray = s.tray := by cases b <;> simp [latchIf]
@[simp] theorem latchIf_shadow (b : Bool) (e : Event) (s : State) : (latchIf b e s).shadow = s.shadow := by cases b <;> simp [latchIf]
@[simp] theorem latchIf_lamp (b : Bool) (e : Event) (s : State) : (latchIf b e s).lamp = s.lamp := by cases b <;> simp [latchIf]
@[simp] theorem latchIf_thermal (b : Bool) (e : Event) (s : State) : (latchIf b e s).thermal = s.thermal := by cases b <;> simp [latchIf]
@[simp] theorem latchIf_cue (b : Bool) (e : Event) (s : State) : (latchIf b e s).cue = s.cue := by cases b <;> simp [latchIf]
@[simp] theorem latchIf_log (b : Bool) (e : Event) (s : State) : (latchIf b e s).log = s.log := by cases b <;> simp [latchIf]
@[simp] theorem latchIf_deck (b : Bool) (e : Event) (s : State) : (latchIf b e s).deck = s.deck := by cases b <;> simp [latchIf]
@[simp] theorem latchIf_clip (b : Bool) (e : Event) (s : State) : (latchIf b e s).clip = s.clip := by cases b <;> simp [latchIf]
@[simp] theorem latchIf_remote (b : Bool) (e : Event) (s : State) : (latchIf b e s).remote = s.remote := by cases b <;> simp [latchIf]
@[simp] theorem latchIf_unit (b : Bool) (e : Event) (s : State) : (latchIf b e s).unit = s.unit := by cases b <;> simp [latchIf]
@[simp] theorem latchIf_resetHeld (b : Bool) (e : Event) (s : State) : (latchIf b e s).resetHeld = s.resetHeld := by cases b <;> simp [latchIf]
@[simp] theorem latchIf_now (b : Bool) (e : Event) (s : State) : (latchIf b e s).now = s.now := by cases b <;> simp [latchIf]
@[simp] theorem latchIf_pending (b : Bool) (e : Event) (s : State) : (latchIf b e s).pending = s.pending := by cases b <;> simp [latchIf]

/-! ## A fold of marks -/

/-- Marks made one after another leave every field but the Status Writer's alone. -/
theorem foldMarks_eq (l : List Nat) (p : Nat → Bool) (g : Nat → Nat) (s : State) :
    l.foldl (fun s j => markIf (p j) (g j) s) s
      = { s with sw := (l.foldl (fun s j => markIf (p j) (g j) s) s).sw } := by
  induction l generalizing s with
  | nil => rfl
  | cons a l ih =>
    simp only [List.foldl_cons]
    rw [ih]
    cases hp : p a <;> simp [markIf, markDirty]

/-! ## The Status Writer's fields but the dirty set -/

@[simp] theorem markDirty_sw_copy (i : Nat) (s : State) : (markDirty i s).sw.copy = s.sw.copy := rfl
@[simp] theorem markDirty_sw_unwritten (i : Nat) (s : State) : (markDirty i s).sw.unwritten = s.sw.unwritten := rfl
@[simp] theorem markDirty_sw_latches (i : Nat) (s : State) : (markDirty i s).sw.latches = s.sw.latches := rfl
@[simp] theorem markDirty_sw_irqPending (i : Nat) (s : State) : (markDirty i s).sw.irqPending = s.sw.irqPending := rfl
@[simp] theorem markDirty_sw_rdy (i : Nat) (s : State) : (markDirty i s).sw.rdy = s.sw.rdy := rfl
@[simp] theorem markDirty_sw_resultTag (i : Nat) (s : State) : (markDirty i s).sw.resultTag = s.sw.resultTag := rfl
@[simp] theorem markDirty_sw_resultCode (i : Nat) (s : State) : (markDirty i s).sw.resultCode = s.sw.resultCode := rfl
@[simp] theorem markDirty_sw_remaining (i : Nat) (s : State) : (markDirty i s).sw.remaining = s.sw.remaining := rfl
@[simp] theorem markDirty_sw_lastSlot (i : Nat) (s : State) : (markDirty i s).sw.lastSlot = s.sw.lastSlot := rfl
@[simp] theorem markDirty_sw_rejectTag (i : Nat) (s : State) : (markDirty i s).sw.rejectTag = s.sw.rejectTag := rfl
@[simp] theorem markDirty_sw_fail (i : Nat) (s : State) : (markDirty i s).sw.fail = s.sw.fail := rfl

@[simp] theorem markIf_sw_copy (b : Bool) (i : Nat) (s : State) : (markIf b i s).sw.copy = s.sw.copy := by cases b <;> rfl
@[simp] theorem markIf_sw_unwritten (b : Bool) (i : Nat) (s : State) : (markIf b i s).sw.unwritten = s.sw.unwritten := by cases b <;> rfl
@[simp] theorem markIf_sw_latches (b : Bool) (i : Nat) (s : State) : (markIf b i s).sw.latches = s.sw.latches := by cases b <;> rfl
@[simp] theorem markIf_sw_irqPending (b : Bool) (i : Nat) (s : State) : (markIf b i s).sw.irqPending = s.sw.irqPending := by cases b <;> rfl
@[simp] theorem markIf_sw_rdy (b : Bool) (i : Nat) (s : State) : (markIf b i s).sw.rdy = s.sw.rdy := by cases b <;> rfl
@[simp] theorem markIf_sw_resultTag (b : Bool) (i : Nat) (s : State) : (markIf b i s).sw.resultTag = s.sw.resultTag := by cases b <;> rfl
@[simp] theorem markIf_sw_resultCode (b : Bool) (i : Nat) (s : State) : (markIf b i s).sw.resultCode = s.sw.resultCode := by cases b <;> rfl
@[simp] theorem markIf_sw_remaining (b : Bool) (i : Nat) (s : State) : (markIf b i s).sw.remaining = s.sw.remaining := by cases b <;> rfl
@[simp] theorem markIf_sw_lastSlot (b : Bool) (i : Nat) (s : State) : (markIf b i s).sw.lastSlot = s.sw.lastSlot := by cases b <;> rfl
@[simp] theorem markIf_sw_rejectTag (b : Bool) (i : Nat) (s : State) : (markIf b i s).sw.rejectTag = s.sw.rejectTag := by cases b <;> rfl
@[simp] theorem markIf_sw_fail (b : Bool) (i : Nat) (s : State) : (markIf b i s).sw.fail = s.sw.fail := by cases b <;> rfl

@[simp] theorem markStatus_sw_copy  (s : State) : (markStatus  s).sw.copy = s.sw.copy := rfl
@[simp] theorem markStatus_sw_unwritten  (s : State) : (markStatus  s).sw.unwritten = s.sw.unwritten := rfl
@[simp] theorem markStatus_sw_latches  (s : State) : (markStatus  s).sw.latches = s.sw.latches := rfl
@[simp] theorem markStatus_sw_irqPending  (s : State) : (markStatus  s).sw.irqPending = s.sw.irqPending := rfl
@[simp] theorem markStatus_sw_rdy  (s : State) : (markStatus  s).sw.rdy = s.sw.rdy := rfl
@[simp] theorem markStatus_sw_resultTag  (s : State) : (markStatus  s).sw.resultTag = s.sw.resultTag := rfl
@[simp] theorem markStatus_sw_resultCode  (s : State) : (markStatus  s).sw.resultCode = s.sw.resultCode := rfl
@[simp] theorem markStatus_sw_remaining  (s : State) : (markStatus  s).sw.remaining = s.sw.remaining := rfl
@[simp] theorem markStatus_sw_lastSlot  (s : State) : (markStatus  s).sw.lastSlot = s.sw.lastSlot := rfl
@[simp] theorem markStatus_sw_rejectTag  (s : State) : (markStatus  s).sw.rejectTag = s.sw.rejectTag := rfl
@[simp] theorem markStatus_sw_fail  (s : State) : (markStatus  s).sw.fail = s.sw.fail := rfl

@[simp] theorem markStatusIf_sw_copy (b : Bool) (s : State) : (markStatusIf b s).sw.copy = s.sw.copy := by cases b <;> rfl
@[simp] theorem markStatusIf_sw_unwritten (b : Bool) (s : State) : (markStatusIf b s).sw.unwritten = s.sw.unwritten := by cases b <;> rfl
@[simp] theorem markStatusIf_sw_latches (b : Bool) (s : State) : (markStatusIf b s).sw.latches = s.sw.latches := by cases b <;> rfl
@[simp] theorem markStatusIf_sw_irqPending (b : Bool) (s : State) : (markStatusIf b s).sw.irqPending = s.sw.irqPending := by cases b <;> rfl
@[simp] theorem markStatusIf_sw_rdy (b : Bool) (s : State) : (markStatusIf b s).sw.rdy = s.sw.rdy := by cases b <;> rfl
@[simp] theorem markStatusIf_sw_resultTag (b : Bool) (s : State) : (markStatusIf b s).sw.resultTag = s.sw.resultTag := by cases b <;> rfl
@[simp] theorem markStatusIf_sw_resultCode (b : Bool) (s : State) : (markStatusIf b s).sw.resultCode = s.sw.resultCode := by cases b <;> rfl
@[simp] theorem markStatusIf_sw_remaining (b : Bool) (s : State) : (markStatusIf b s).sw.remaining = s.sw.remaining := by cases b <;> rfl
@[simp] theorem markStatusIf_sw_lastSlot (b : Bool) (s : State) : (markStatusIf b s).sw.lastSlot = s.sw.lastSlot := by cases b <;> rfl
@[simp] theorem markStatusIf_sw_rejectTag (b : Bool) (s : State) : (markStatusIf b s).sw.rejectTag = s.sw.rejectTag := by cases b <;> rfl
@[simp] theorem markStatusIf_sw_fail (b : Bool) (s : State) : (markStatusIf b s).sw.fail = s.sw.fail := by cases b <;> rfl

@[simp] theorem markAll_sw_copy  (s : State) : (markAll  s).sw.copy = s.sw.copy := rfl
@[simp] theorem markAll_sw_unwritten  (s : State) : (markAll  s).sw.unwritten = s.sw.unwritten := rfl
@[simp] theorem markAll_sw_latches  (s : State) : (markAll  s).sw.latches = s.sw.latches := rfl
@[simp] theorem markAll_sw_irqPending  (s : State) : (markAll  s).sw.irqPending = s.sw.irqPending := rfl
@[simp] theorem markAll_sw_rdy  (s : State) : (markAll  s).sw.rdy = s.sw.rdy := rfl
@[simp] theorem markAll_sw_resultTag  (s : State) : (markAll  s).sw.resultTag = s.sw.resultTag := rfl
@[simp] theorem markAll_sw_resultCode  (s : State) : (markAll  s).sw.resultCode = s.sw.resultCode := rfl
@[simp] theorem markAll_sw_remaining  (s : State) : (markAll  s).sw.remaining = s.sw.remaining := rfl
@[simp] theorem markAll_sw_lastSlot  (s : State) : (markAll  s).sw.lastSlot = s.sw.lastSlot := rfl
@[simp] theorem markAll_sw_rejectTag  (s : State) : (markAll  s).sw.rejectTag = s.sw.rejectTag := rfl
@[simp] theorem markAll_sw_fail  (s : State) : (markAll  s).sw.fail = s.sw.fail := rfl

@[simp] theorem latch_sw_copy (e : Event) (s : State) : (latch e s).sw.copy = s.sw.copy := by unfold latch; split <;> simp
@[simp] theorem latch_sw_unwritten (e : Event) (s : State) : (latch e s).sw.unwritten = s.sw.unwritten := by unfold latch; split <;> simp
@[simp] theorem latch_sw_irqPending (e : Event) (s : State) : (latch e s).sw.irqPending = s.sw.irqPending := by unfold latch; split <;> simp
@[simp] theorem latch_sw_rdy (e : Event) (s : State) : (latch e s).sw.rdy = s.sw.rdy := by unfold latch; split <;> simp
@[simp] theorem latch_sw_resultTag (e : Event) (s : State) : (latch e s).sw.resultTag = s.sw.resultTag := by unfold latch; split <;> simp
@[simp] theorem latch_sw_resultCode (e : Event) (s : State) : (latch e s).sw.resultCode = s.sw.resultCode := by unfold latch; split <;> simp
@[simp] theorem latch_sw_remaining (e : Event) (s : State) : (latch e s).sw.remaining = s.sw.remaining := by unfold latch; split <;> simp
@[simp] theorem latch_sw_lastSlot (e : Event) (s : State) : (latch e s).sw.lastSlot = s.sw.lastSlot := by unfold latch; split <;> simp
@[simp] theorem latch_sw_rejectTag (e : Event) (s : State) : (latch e s).sw.rejectTag = s.sw.rejectTag := by unfold latch; split <;> simp
@[simp] theorem latch_sw_fail (e : Event) (s : State) : (latch e s).sw.fail = s.sw.fail := by unfold latch; split <;> simp

/-- What a latch leaves in the latches: the event's bit is set. -/
@[simp] theorem latch_sw_latches (e : Event) (s : State) :
    (latch e s).sw.latches = s.sw.latches ||| BitVec.twoPow 16 e.bit := by
  unfold latch
  split
  · rename_i h
    apply BitVec.eq_of_getLsbD_eq
    intro i hi
    by_cases hb : e.bit = i
    · subst hb; simp [h]
    · have : decide (e.bit = i) = false := decide_eq_false hb
      simp [BitVec.getLsbD_twoPow, this]
  · simp


@[simp] theorem foldMarks_sw_copy (l : List Nat) (p : Nat → Bool) (g : Nat → Nat) (s : State) :
    (l.foldl (fun s j => markIf (p j) (g j) s) s).sw.copy = s.sw.copy := by
  induction l generalizing s with
  | nil => rfl
  | cons a l ih => simp only [List.foldl_cons]; rw [ih]; simp

@[simp] theorem foldMarks_sw_unwritten (l : List Nat) (p : Nat → Bool) (g : Nat → Nat) (s : State) :
    (l.foldl (fun s j => markIf (p j) (g j) s) s).sw.unwritten = s.sw.unwritten := by
  induction l generalizing s with
  | nil => rfl
  | cons a l ih => simp only [List.foldl_cons]; rw [ih]; simp

@[simp] theorem foldMarks_sw_irqPending (l : List Nat) (p : Nat → Bool) (g : Nat → Nat) (s : State) :
    (l.foldl (fun s j => markIf (p j) (g j) s) s).sw.irqPending = s.sw.irqPending := by
  induction l generalizing s with
  | nil => rfl
  | cons a l ih => simp only [List.foldl_cons]; rw [ih]; simp

@[simp] theorem foldMarks_sw_rdy (l : List Nat) (p : Nat → Bool) (g : Nat → Nat) (s : State) :
    (l.foldl (fun s j => markIf (p j) (g j) s) s).sw.rdy = s.sw.rdy := by
  induction l generalizing s with
  | nil => rfl
  | cons a l ih => simp only [List.foldl_cons]; rw [ih]; simp

@[simp] theorem foldMarks_sw_resultTag (l : List Nat) (p : Nat → Bool) (g : Nat → Nat) (s : State) :
    (l.foldl (fun s j => markIf (p j) (g j) s) s).sw.resultTag = s.sw.resultTag := by
  induction l generalizing s with
  | nil => rfl
  | cons a l ih => simp only [List.foldl_cons]; rw [ih]; simp

@[simp] theorem foldMarks_sw_resultCode (l : List Nat) (p : Nat → Bool) (g : Nat → Nat) (s : State) :
    (l.foldl (fun s j => markIf (p j) (g j) s) s).sw.resultCode = s.sw.resultCode := by
  induction l generalizing s with
  | nil => rfl
  | cons a l ih => simp only [List.foldl_cons]; rw [ih]; simp

@[simp] theorem foldMarks_sw_remaining (l : List Nat) (p : Nat → Bool) (g : Nat → Nat) (s : State) :
    (l.foldl (fun s j => markIf (p j) (g j) s) s).sw.remaining = s.sw.remaining := by
  induction l generalizing s with
  | nil => rfl
  | cons a l ih => simp only [List.foldl_cons]; rw [ih]; simp

@[simp] theorem foldMarks_sw_lastSlot (l : List Nat) (p : Nat → Bool) (g : Nat → Nat) (s : State) :
    (l.foldl (fun s j => markIf (p j) (g j) s) s).sw.lastSlot = s.sw.lastSlot := by
  induction l generalizing s with
  | nil => rfl
  | cons a l ih => simp only [List.foldl_cons]; rw [ih]; simp

@[simp] theorem foldMarks_sw_rejectTag (l : List Nat) (p : Nat → Bool) (g : Nat → Nat) (s : State) :
    (l.foldl (fun s j => markIf (p j) (g j) s) s).sw.rejectTag = s.sw.rejectTag := by
  induction l generalizing s with
  | nil => rfl
  | cons a l ih => simp only [List.foldl_cons]; rw [ih]; simp

@[simp] theorem foldMarks_sw_fail (l : List Nat) (p : Nat → Bool) (g : Nat → Nat) (s : State) :
    (l.foldl (fun s j => markIf (p j) (g j) s) s).sw.fail = s.sw.fail := by
  induction l generalizing s with
  | nil => rfl
  | cons a l ih => simp only [List.foldl_cons]; rw [ih]; simp

@[simp] theorem foldMarks_sw_latches (l : List Nat) (p : Nat → Bool) (g : Nat → Nat) (s : State) :
    (l.foldl (fun s j => markIf (p j) (g j) s) s).sw.latches = s.sw.latches := by
  induction l generalizing s with
  | nil => rfl
  | cons a l ih => simp only [List.foldl_cons]; rw [ih]; simp

@[simp] theorem foldMarks_mem (l : List Nat) (p : Nat → Bool) (g : Nat → Nat) (s : State) :
    (l.foldl (fun s j => markIf (p j) (g j) s) s).mem = s.mem := by rw [foldMarks_eq]

@[simp] theorem foldMarks_port (l : List Nat) (p : Nat → Bool) (g : Nat → Nat) (s : State) :
    (l.foldl (fun s j => markIf (p j) (g j) s) s).port = s.port := by rw [foldMarks_eq]

@[simp] theorem foldMarks_hdr (l : List Nat) (p : Nat → Bool) (g : Nat → Nat) (s : State) :
    (l.foldl (fun s j => markIf (p j) (g j) s) s).hdr = s.hdr := by rw [foldMarks_eq]

@[simp] theorem foldMarks_cx (l : List Nat) (p : Nat → Bool) (g : Nat → Nat) (s : State) :
    (l.foldl (fun s j => markIf (p j) (g j) s) s).cx = s.cx := by rw [foldMarks_eq]

@[simp] theorem foldMarks_tray (l : List Nat) (p : Nat → Bool) (g : Nat → Nat) (s : State) :
    (l.foldl (fun s j => markIf (p j) (g j) s) s).tray = s.tray := by rw [foldMarks_eq]

@[simp] theorem foldMarks_shadow (l : List Nat) (p : Nat → Bool) (g : Nat → Nat) (s : State) :
    (l.foldl (fun s j => markIf (p j) (g j) s) s).shadow = s.shadow := by rw [foldMarks_eq]

@[simp] theorem foldMarks_lamp (l : List Nat) (p : Nat → Bool) (g : Nat → Nat) (s : State) :
    (l.foldl (fun s j => markIf (p j) (g j) s) s).lamp = s.lamp := by rw [foldMarks_eq]

@[simp] theorem foldMarks_thermal (l : List Nat) (p : Nat → Bool) (g : Nat → Nat) (s : State) :
    (l.foldl (fun s j => markIf (p j) (g j) s) s).thermal = s.thermal := by rw [foldMarks_eq]

@[simp] theorem foldMarks_cue (l : List Nat) (p : Nat → Bool) (g : Nat → Nat) (s : State) :
    (l.foldl (fun s j => markIf (p j) (g j) s) s).cue = s.cue := by rw [foldMarks_eq]

@[simp] theorem foldMarks_log (l : List Nat) (p : Nat → Bool) (g : Nat → Nat) (s : State) :
    (l.foldl (fun s j => markIf (p j) (g j) s) s).log = s.log := by rw [foldMarks_eq]

@[simp] theorem foldMarks_deck (l : List Nat) (p : Nat → Bool) (g : Nat → Nat) (s : State) :
    (l.foldl (fun s j => markIf (p j) (g j) s) s).deck = s.deck := by rw [foldMarks_eq]

@[simp] theorem foldMarks_clip (l : List Nat) (p : Nat → Bool) (g : Nat → Nat) (s : State) :
    (l.foldl (fun s j => markIf (p j) (g j) s) s).clip = s.clip := by rw [foldMarks_eq]

@[simp] theorem foldMarks_remote (l : List Nat) (p : Nat → Bool) (g : Nat → Nat) (s : State) :
    (l.foldl (fun s j => markIf (p j) (g j) s) s).remote = s.remote := by rw [foldMarks_eq]

@[simp] theorem foldMarks_unit (l : List Nat) (p : Nat → Bool) (g : Nat → Nat) (s : State) :
    (l.foldl (fun s j => markIf (p j) (g j) s) s).unit = s.unit := by rw [foldMarks_eq]

@[simp] theorem foldMarks_resetHeld (l : List Nat) (p : Nat → Bool) (g : Nat → Nat) (s : State) :
    (l.foldl (fun s j => markIf (p j) (g j) s) s).resetHeld = s.resetHeld := by rw [foldMarks_eq]

@[simp] theorem foldMarks_now (l : List Nat) (p : Nat → Bool) (g : Nat → Nat) (s : State) :
    (l.foldl (fun s j => markIf (p j) (g j) s) s).now = s.now := by rw [foldMarks_eq]

@[simp] theorem foldMarks_pending (l : List Nat) (p : Nat → Bool) (g : Nat → Nat) (s : State) :
    (l.foldl (fun s j => markIf (p j) (g j) s) s).pending = s.pending := by rw [foldMarks_eq]

/-! ## Putting a block's state in place -/

/-! ### putTray -/

@[simp] theorem putTray_tray (t : Tray) (s : State) : (putTray t s).tray = t := by unfold putTray; dsimp only; split <;> simp
@[simp] theorem putTray_mem (t : Tray) (s : State) : (putTray t s).mem = s.mem := by unfold putTray; dsimp only; split <;> simp
@[simp] theorem putTray_port (t : Tray) (s : State) : (putTray t s).port = s.port := by unfold putTray; dsimp only; split <;> simp
@[simp] theorem putTray_hdr (t : Tray) (s : State) : (putTray t s).hdr = s.hdr := by unfold putTray; dsimp only; split <;> simp
@[simp] theorem putTray_cx (t : Tray) (s : State) : (putTray t s).cx = s.cx := by unfold putTray; dsimp only; split <;> simp
@[simp] theorem putTray_shadow (t : Tray) (s : State) : (putTray t s).shadow = s.shadow := by unfold putTray; dsimp only; split <;> simp
@[simp] theorem putTray_lamp (t : Tray) (s : State) : (putTray t s).lamp = s.lamp := by unfold putTray; dsimp only; split <;> simp
@[simp] theorem putTray_thermal (t : Tray) (s : State) : (putTray t s).thermal = s.thermal := by unfold putTray; dsimp only; split <;> simp
@[simp] theorem putTray_cue (t : Tray) (s : State) : (putTray t s).cue = s.cue := by unfold putTray; dsimp only; split <;> simp
@[simp] theorem putTray_log (t : Tray) (s : State) : (putTray t s).log = s.log := by unfold putTray; dsimp only; split <;> simp
@[simp] theorem putTray_deck (t : Tray) (s : State) : (putTray t s).deck = s.deck := by unfold putTray; dsimp only; split <;> simp
@[simp] theorem putTray_clip (t : Tray) (s : State) : (putTray t s).clip = s.clip := by unfold putTray; dsimp only; split <;> simp
@[simp] theorem putTray_remote (t : Tray) (s : State) : (putTray t s).remote = s.remote := by unfold putTray; dsimp only; split <;> simp
@[simp] theorem putTray_unit (t : Tray) (s : State) : (putTray t s).unit = s.unit := by unfold putTray; dsimp only; split <;> simp
@[simp] theorem putTray_resetHeld (t : Tray) (s : State) : (putTray t s).resetHeld = s.resetHeld := by unfold putTray; dsimp only; split <;> simp
@[simp] theorem putTray_now (t : Tray) (s : State) : (putTray t s).now = s.now := by unfold putTray; dsimp only; split <;> simp
@[simp] theorem putTray_pending (t : Tray) (s : State) : (putTray t s).pending = s.pending := by unfold putTray; dsimp only; split <;> simp
@[simp] theorem putTray_sw_copy (t : Tray) (s : State) : (putTray t s).sw.copy = s.sw.copy := by unfold putTray; dsimp only; split <;> simp
@[simp] theorem putTray_sw_unwritten (t : Tray) (s : State) : (putTray t s).sw.unwritten = s.sw.unwritten := by unfold putTray; dsimp only; split <;> simp
@[simp] theorem putTray_sw_latches (t : Tray) (s : State) : (putTray t s).sw.latches = s.sw.latches := by unfold putTray; dsimp only; split <;> simp
@[simp] theorem putTray_sw_irqPending (t : Tray) (s : State) : (putTray t s).sw.irqPending = s.sw.irqPending := by unfold putTray; dsimp only; split <;> simp
@[simp] theorem putTray_sw_rdy (t : Tray) (s : State) : (putTray t s).sw.rdy = s.sw.rdy := by unfold putTray; dsimp only; split <;> simp
@[simp] theorem putTray_sw_resultTag (t : Tray) (s : State) : (putTray t s).sw.resultTag = s.sw.resultTag := by unfold putTray; dsimp only; split <;> simp
@[simp] theorem putTray_sw_resultCode (t : Tray) (s : State) : (putTray t s).sw.resultCode = s.sw.resultCode := by unfold putTray; dsimp only; split <;> simp
@[simp] theorem putTray_sw_remaining (t : Tray) (s : State) : (putTray t s).sw.remaining = s.sw.remaining := by unfold putTray; dsimp only; split <;> simp
@[simp] theorem putTray_sw_lastSlot (t : Tray) (s : State) : (putTray t s).sw.lastSlot = s.sw.lastSlot := by unfold putTray; dsimp only; split <;> simp
@[simp] theorem putTray_sw_rejectTag (t : Tray) (s : State) : (putTray t s).sw.rejectTag = s.sw.rejectTag := by unfold putTray; dsimp only; split <;> simp
@[simp] theorem putTray_sw_fail (t : Tray) (s : State) : (putTray t s).sw.fail = s.sw.fail := by unfold putTray; dsimp only; split <;> simp

/-! ### putLamp -/

@[simp] theorem putLamp_lamp (l : Lamp) (s : State) : (putLamp l s).lamp = l := by simp [putLamp]
@[simp] theorem putLamp_mem (l : Lamp) (s : State) : (putLamp l s).mem = s.mem := by simp [putLamp]
@[simp] theorem putLamp_port (l : Lamp) (s : State) : (putLamp l s).port = s.port := by simp [putLamp]
@[simp] theorem putLamp_hdr (l : Lamp) (s : State) : (putLamp l s).hdr = s.hdr := by simp [putLamp]
@[simp] theorem putLamp_cx (l : Lamp) (s : State) : (putLamp l s).cx = s.cx := by simp [putLamp]
@[simp] theorem putLamp_tray (l : Lamp) (s : State) : (putLamp l s).tray = s.tray := by simp [putLamp]
@[simp] theorem putLamp_shadow (l : Lamp) (s : State) : (putLamp l s).shadow = s.shadow := by simp [putLamp]
@[simp] theorem putLamp_thermal (l : Lamp) (s : State) : (putLamp l s).thermal = s.thermal := by simp [putLamp]
@[simp] theorem putLamp_cue (l : Lamp) (s : State) : (putLamp l s).cue = s.cue := by simp [putLamp]
@[simp] theorem putLamp_log (l : Lamp) (s : State) : (putLamp l s).log = s.log := by simp [putLamp]
@[simp] theorem putLamp_deck (l : Lamp) (s : State) : (putLamp l s).deck = s.deck := by simp [putLamp]
@[simp] theorem putLamp_clip (l : Lamp) (s : State) : (putLamp l s).clip = s.clip := by simp [putLamp]
@[simp] theorem putLamp_remote (l : Lamp) (s : State) : (putLamp l s).remote = s.remote := by simp [putLamp]
@[simp] theorem putLamp_unit (l : Lamp) (s : State) : (putLamp l s).unit = s.unit := by simp [putLamp]
@[simp] theorem putLamp_resetHeld (l : Lamp) (s : State) : (putLamp l s).resetHeld = s.resetHeld := by simp [putLamp]
@[simp] theorem putLamp_now (l : Lamp) (s : State) : (putLamp l s).now = s.now := by simp [putLamp]
@[simp] theorem putLamp_pending (l : Lamp) (s : State) : (putLamp l s).pending = s.pending := by simp [putLamp]
@[simp] theorem putLamp_sw_copy (l : Lamp) (s : State) : (putLamp l s).sw.copy = s.sw.copy := by simp [putLamp]
@[simp] theorem putLamp_sw_unwritten (l : Lamp) (s : State) : (putLamp l s).sw.unwritten = s.sw.unwritten := by simp [putLamp]
@[simp] theorem putLamp_sw_latches (l : Lamp) (s : State) : (putLamp l s).sw.latches = s.sw.latches := by simp [putLamp]
@[simp] theorem putLamp_sw_irqPending (l : Lamp) (s : State) : (putLamp l s).sw.irqPending = s.sw.irqPending := by simp [putLamp]
@[simp] theorem putLamp_sw_rdy (l : Lamp) (s : State) : (putLamp l s).sw.rdy = s.sw.rdy := by simp [putLamp]
@[simp] theorem putLamp_sw_resultTag (l : Lamp) (s : State) : (putLamp l s).sw.resultTag = s.sw.resultTag := by simp [putLamp]
@[simp] theorem putLamp_sw_resultCode (l : Lamp) (s : State) : (putLamp l s).sw.resultCode = s.sw.resultCode := by simp [putLamp]
@[simp] theorem putLamp_sw_remaining (l : Lamp) (s : State) : (putLamp l s).sw.remaining = s.sw.remaining := by simp [putLamp]
@[simp] theorem putLamp_sw_lastSlot (l : Lamp) (s : State) : (putLamp l s).sw.lastSlot = s.sw.lastSlot := by simp [putLamp]
@[simp] theorem putLamp_sw_rejectTag (l : Lamp) (s : State) : (putLamp l s).sw.rejectTag = s.sw.rejectTag := by simp [putLamp]
@[simp] theorem putLamp_sw_fail (l : Lamp) (s : State) : (putLamp l s).sw.fail = s.sw.fail := by simp [putLamp]

/-! ### putThermal -/

@[simp] theorem putThermal_thermal (t : Thermal) (s : State) : (putThermal t s).thermal = t := by simp [putThermal]
@[simp] theorem putThermal_mem (t : Thermal) (s : State) : (putThermal t s).mem = s.mem := by simp [putThermal]
@[simp] theorem putThermal_port (t : Thermal) (s : State) : (putThermal t s).port = s.port := by simp [putThermal]
@[simp] theorem putThermal_hdr (t : Thermal) (s : State) : (putThermal t s).hdr = s.hdr := by simp [putThermal]
@[simp] theorem putThermal_cx (t : Thermal) (s : State) : (putThermal t s).cx = s.cx := by simp [putThermal]
@[simp] theorem putThermal_tray (t : Thermal) (s : State) : (putThermal t s).tray = s.tray := by simp [putThermal]
@[simp] theorem putThermal_shadow (t : Thermal) (s : State) : (putThermal t s).shadow = s.shadow := by simp [putThermal]
@[simp] theorem putThermal_lamp (t : Thermal) (s : State) : (putThermal t s).lamp = s.lamp := by simp [putThermal]
@[simp] theorem putThermal_cue (t : Thermal) (s : State) : (putThermal t s).cue = s.cue := by simp [putThermal]
@[simp] theorem putThermal_log (t : Thermal) (s : State) : (putThermal t s).log = s.log := by simp [putThermal]
@[simp] theorem putThermal_deck (t : Thermal) (s : State) : (putThermal t s).deck = s.deck := by simp [putThermal]
@[simp] theorem putThermal_clip (t : Thermal) (s : State) : (putThermal t s).clip = s.clip := by simp [putThermal]
@[simp] theorem putThermal_remote (t : Thermal) (s : State) : (putThermal t s).remote = s.remote := by simp [putThermal]
@[simp] theorem putThermal_unit (t : Thermal) (s : State) : (putThermal t s).unit = s.unit := by simp [putThermal]
@[simp] theorem putThermal_resetHeld (t : Thermal) (s : State) : (putThermal t s).resetHeld = s.resetHeld := by simp [putThermal]
@[simp] theorem putThermal_now (t : Thermal) (s : State) : (putThermal t s).now = s.now := by simp [putThermal]
@[simp] theorem putThermal_pending (t : Thermal) (s : State) : (putThermal t s).pending = s.pending := by simp [putThermal]
@[simp] theorem putThermal_sw_copy (t : Thermal) (s : State) : (putThermal t s).sw.copy = s.sw.copy := by simp [putThermal]
@[simp] theorem putThermal_sw_unwritten (t : Thermal) (s : State) : (putThermal t s).sw.unwritten = s.sw.unwritten := by simp [putThermal]
@[simp] theorem putThermal_sw_latches (t : Thermal) (s : State) : (putThermal t s).sw.latches = s.sw.latches := by simp [putThermal]
@[simp] theorem putThermal_sw_irqPending (t : Thermal) (s : State) : (putThermal t s).sw.irqPending = s.sw.irqPending := by simp [putThermal]
@[simp] theorem putThermal_sw_rdy (t : Thermal) (s : State) : (putThermal t s).sw.rdy = s.sw.rdy := by simp [putThermal]
@[simp] theorem putThermal_sw_resultTag (t : Thermal) (s : State) : (putThermal t s).sw.resultTag = s.sw.resultTag := by simp [putThermal]
@[simp] theorem putThermal_sw_resultCode (t : Thermal) (s : State) : (putThermal t s).sw.resultCode = s.sw.resultCode := by simp [putThermal]
@[simp] theorem putThermal_sw_remaining (t : Thermal) (s : State) : (putThermal t s).sw.remaining = s.sw.remaining := by simp [putThermal]
@[simp] theorem putThermal_sw_lastSlot (t : Thermal) (s : State) : (putThermal t s).sw.lastSlot = s.sw.lastSlot := by simp [putThermal]
@[simp] theorem putThermal_sw_rejectTag (t : Thermal) (s : State) : (putThermal t s).sw.rejectTag = s.sw.rejectTag := by simp [putThermal]
@[simp] theorem putThermal_sw_fail (t : Thermal) (s : State) : (putThermal t s).sw.fail = s.sw.fail := by simp [putThermal]

/-! ### putCue -/

@[simp] theorem putCue_cue (c : CueTrack) (s : State) : (putCue c s).cue = c := by simp [putCue]
@[simp] theorem putCue_mem (c : CueTrack) (s : State) : (putCue c s).mem = s.mem := by simp [putCue]
@[simp] theorem putCue_port (c : CueTrack) (s : State) : (putCue c s).port = s.port := by simp [putCue]
@[simp] theorem putCue_hdr (c : CueTrack) (s : State) : (putCue c s).hdr = s.hdr := by simp [putCue]
@[simp] theorem putCue_cx (c : CueTrack) (s : State) : (putCue c s).cx = s.cx := by simp [putCue]
@[simp] theorem putCue_tray (c : CueTrack) (s : State) : (putCue c s).tray = s.tray := by simp [putCue]
@[simp] theorem putCue_shadow (c : CueTrack) (s : State) : (putCue c s).shadow = s.shadow := by simp [putCue]
@[simp] theorem putCue_lamp (c : CueTrack) (s : State) : (putCue c s).lamp = s.lamp := by simp [putCue]
@[simp] theorem putCue_thermal (c : CueTrack) (s : State) : (putCue c s).thermal = s.thermal := by simp [putCue]
@[simp] theorem putCue_log (c : CueTrack) (s : State) : (putCue c s).log = s.log := by simp [putCue]
@[simp] theorem putCue_deck (c : CueTrack) (s : State) : (putCue c s).deck = s.deck := by simp [putCue]
@[simp] theorem putCue_clip (c : CueTrack) (s : State) : (putCue c s).clip = s.clip := by simp [putCue]
@[simp] theorem putCue_remote (c : CueTrack) (s : State) : (putCue c s).remote = s.remote := by simp [putCue]
@[simp] theorem putCue_unit (c : CueTrack) (s : State) : (putCue c s).unit = s.unit := by simp [putCue]
@[simp] theorem putCue_resetHeld (c : CueTrack) (s : State) : (putCue c s).resetHeld = s.resetHeld := by simp [putCue]
@[simp] theorem putCue_now (c : CueTrack) (s : State) : (putCue c s).now = s.now := by simp [putCue]
@[simp] theorem putCue_pending (c : CueTrack) (s : State) : (putCue c s).pending = s.pending := by simp [putCue]
@[simp] theorem putCue_sw_copy (c : CueTrack) (s : State) : (putCue c s).sw.copy = s.sw.copy := by simp [putCue]
@[simp] theorem putCue_sw_unwritten (c : CueTrack) (s : State) : (putCue c s).sw.unwritten = s.sw.unwritten := by simp [putCue]
@[simp] theorem putCue_sw_latches (c : CueTrack) (s : State) : (putCue c s).sw.latches = s.sw.latches := by simp [putCue]
@[simp] theorem putCue_sw_irqPending (c : CueTrack) (s : State) : (putCue c s).sw.irqPending = s.sw.irqPending := by simp [putCue]
@[simp] theorem putCue_sw_rdy (c : CueTrack) (s : State) : (putCue c s).sw.rdy = s.sw.rdy := by simp [putCue]
@[simp] theorem putCue_sw_resultTag (c : CueTrack) (s : State) : (putCue c s).sw.resultTag = s.sw.resultTag := by simp [putCue]
@[simp] theorem putCue_sw_resultCode (c : CueTrack) (s : State) : (putCue c s).sw.resultCode = s.sw.resultCode := by simp [putCue]
@[simp] theorem putCue_sw_remaining (c : CueTrack) (s : State) : (putCue c s).sw.remaining = s.sw.remaining := by simp [putCue]
@[simp] theorem putCue_sw_lastSlot (c : CueTrack) (s : State) : (putCue c s).sw.lastSlot = s.sw.lastSlot := by simp [putCue]
@[simp] theorem putCue_sw_rejectTag (c : CueTrack) (s : State) : (putCue c s).sw.rejectTag = s.sw.rejectTag := by simp [putCue]
@[simp] theorem putCue_sw_fail (c : CueTrack) (s : State) : (putCue c s).sw.fail = s.sw.fail := by simp [putCue]

/-! ### putLog -/

@[simp] theorem putLog_log (l : LogWriter) (s : State) : (putLog l s).log = l := by simp [putLog]
@[simp] theorem putLog_mem (l : LogWriter) (s : State) : (putLog l s).mem = s.mem := by simp [putLog]
@[simp] theorem putLog_port (l : LogWriter) (s : State) : (putLog l s).port = s.port := by simp [putLog]
@[simp] theorem putLog_hdr (l : LogWriter) (s : State) : (putLog l s).hdr = s.hdr := by simp [putLog]
@[simp] theorem putLog_cx (l : LogWriter) (s : State) : (putLog l s).cx = s.cx := by simp [putLog]
@[simp] theorem putLog_tray (l : LogWriter) (s : State) : (putLog l s).tray = s.tray := by simp [putLog]
@[simp] theorem putLog_shadow (l : LogWriter) (s : State) : (putLog l s).shadow = s.shadow := by simp [putLog]
@[simp] theorem putLog_lamp (l : LogWriter) (s : State) : (putLog l s).lamp = s.lamp := by simp [putLog]
@[simp] theorem putLog_thermal (l : LogWriter) (s : State) : (putLog l s).thermal = s.thermal := by simp [putLog]
@[simp] theorem putLog_cue (l : LogWriter) (s : State) : (putLog l s).cue = s.cue := by simp [putLog]
@[simp] theorem putLog_deck (l : LogWriter) (s : State) : (putLog l s).deck = s.deck := by simp [putLog]
@[simp] theorem putLog_clip (l : LogWriter) (s : State) : (putLog l s).clip = s.clip := by simp [putLog]
@[simp] theorem putLog_remote (l : LogWriter) (s : State) : (putLog l s).remote = s.remote := by simp [putLog]
@[simp] theorem putLog_unit (l : LogWriter) (s : State) : (putLog l s).unit = s.unit := by simp [putLog]
@[simp] theorem putLog_resetHeld (l : LogWriter) (s : State) : (putLog l s).resetHeld = s.resetHeld := by simp [putLog]
@[simp] theorem putLog_now (l : LogWriter) (s : State) : (putLog l s).now = s.now := by simp [putLog]
@[simp] theorem putLog_pending (l : LogWriter) (s : State) : (putLog l s).pending = s.pending := by simp [putLog]
@[simp] theorem putLog_sw_copy (l : LogWriter) (s : State) : (putLog l s).sw.copy = s.sw.copy := by simp [putLog]
@[simp] theorem putLog_sw_unwritten (l : LogWriter) (s : State) : (putLog l s).sw.unwritten = s.sw.unwritten := by simp [putLog]
@[simp] theorem putLog_sw_latches (l : LogWriter) (s : State) : (putLog l s).sw.latches = s.sw.latches := by simp [putLog]
@[simp] theorem putLog_sw_irqPending (l : LogWriter) (s : State) : (putLog l s).sw.irqPending = s.sw.irqPending := by simp [putLog]
@[simp] theorem putLog_sw_rdy (l : LogWriter) (s : State) : (putLog l s).sw.rdy = s.sw.rdy := by simp [putLog]
@[simp] theorem putLog_sw_resultTag (l : LogWriter) (s : State) : (putLog l s).sw.resultTag = s.sw.resultTag := by simp [putLog]
@[simp] theorem putLog_sw_resultCode (l : LogWriter) (s : State) : (putLog l s).sw.resultCode = s.sw.resultCode := by simp [putLog]
@[simp] theorem putLog_sw_remaining (l : LogWriter) (s : State) : (putLog l s).sw.remaining = s.sw.remaining := by simp [putLog]
@[simp] theorem putLog_sw_lastSlot (l : LogWriter) (s : State) : (putLog l s).sw.lastSlot = s.sw.lastSlot := by simp [putLog]
@[simp] theorem putLog_sw_rejectTag (l : LogWriter) (s : State) : (putLog l s).sw.rejectTag = s.sw.rejectTag := by simp [putLog]
@[simp] theorem putLog_sw_fail (l : LogWriter) (s : State) : (putLog l s).sw.fail = s.sw.fail := by simp [putLog]

/-! ### putDeck -/

@[simp] theorem putDeck_deck (d : Deck) (s : State) : (putDeck d s).deck = d := by simp [putDeck]
@[simp] theorem putDeck_mem (d : Deck) (s : State) : (putDeck d s).mem = s.mem := by simp [putDeck]
@[simp] theorem putDeck_port (d : Deck) (s : State) : (putDeck d s).port = s.port := by simp [putDeck]
@[simp] theorem putDeck_hdr (d : Deck) (s : State) : (putDeck d s).hdr = s.hdr := by simp [putDeck]
@[simp] theorem putDeck_cx (d : Deck) (s : State) : (putDeck d s).cx = s.cx := by simp [putDeck]
@[simp] theorem putDeck_tray (d : Deck) (s : State) : (putDeck d s).tray = s.tray := by simp [putDeck]
@[simp] theorem putDeck_shadow (d : Deck) (s : State) : (putDeck d s).shadow = s.shadow := by simp [putDeck]
@[simp] theorem putDeck_lamp (d : Deck) (s : State) : (putDeck d s).lamp = s.lamp := by simp [putDeck]
@[simp] theorem putDeck_thermal (d : Deck) (s : State) : (putDeck d s).thermal = s.thermal := by simp [putDeck]
@[simp] theorem putDeck_cue (d : Deck) (s : State) : (putDeck d s).cue = s.cue := by simp [putDeck]
@[simp] theorem putDeck_log (d : Deck) (s : State) : (putDeck d s).log = s.log := by simp [putDeck]
@[simp] theorem putDeck_clip (d : Deck) (s : State) : (putDeck d s).clip = s.clip := by simp [putDeck]
@[simp] theorem putDeck_remote (d : Deck) (s : State) : (putDeck d s).remote = s.remote := by simp [putDeck]
@[simp] theorem putDeck_unit (d : Deck) (s : State) : (putDeck d s).unit = s.unit := by simp [putDeck]
@[simp] theorem putDeck_resetHeld (d : Deck) (s : State) : (putDeck d s).resetHeld = s.resetHeld := by simp [putDeck]
@[simp] theorem putDeck_now (d : Deck) (s : State) : (putDeck d s).now = s.now := by simp [putDeck]
@[simp] theorem putDeck_pending (d : Deck) (s : State) : (putDeck d s).pending = s.pending := by simp [putDeck]
@[simp] theorem putDeck_sw_copy (d : Deck) (s : State) : (putDeck d s).sw.copy = s.sw.copy := by simp [putDeck]
@[simp] theorem putDeck_sw_unwritten (d : Deck) (s : State) : (putDeck d s).sw.unwritten = s.sw.unwritten := by simp [putDeck]
@[simp] theorem putDeck_sw_latches (d : Deck) (s : State) : (putDeck d s).sw.latches = s.sw.latches := by simp [putDeck]
@[simp] theorem putDeck_sw_irqPending (d : Deck) (s : State) : (putDeck d s).sw.irqPending = s.sw.irqPending := by simp [putDeck]
@[simp] theorem putDeck_sw_rdy (d : Deck) (s : State) : (putDeck d s).sw.rdy = s.sw.rdy := by simp [putDeck]
@[simp] theorem putDeck_sw_resultTag (d : Deck) (s : State) : (putDeck d s).sw.resultTag = s.sw.resultTag := by simp [putDeck]
@[simp] theorem putDeck_sw_resultCode (d : Deck) (s : State) : (putDeck d s).sw.resultCode = s.sw.resultCode := by simp [putDeck]
@[simp] theorem putDeck_sw_remaining (d : Deck) (s : State) : (putDeck d s).sw.remaining = s.sw.remaining := by simp [putDeck]
@[simp] theorem putDeck_sw_lastSlot (d : Deck) (s : State) : (putDeck d s).sw.lastSlot = s.sw.lastSlot := by simp [putDeck]
@[simp] theorem putDeck_sw_rejectTag (d : Deck) (s : State) : (putDeck d s).sw.rejectTag = s.sw.rejectTag := by simp [putDeck]
@[simp] theorem putDeck_sw_fail (d : Deck) (s : State) : (putDeck d s).sw.fail = s.sw.fail := by simp [putDeck]

/-! ### putClip -/

@[simp] theorem putClip_clip (c : ClipPlayer) (s : State) : (putClip c s).clip = c := by simp [putClip]
@[simp] theorem putClip_mem (c : ClipPlayer) (s : State) : (putClip c s).mem = s.mem := by simp [putClip]
@[simp] theorem putClip_port (c : ClipPlayer) (s : State) : (putClip c s).port = s.port := by simp [putClip]
@[simp] theorem putClip_hdr (c : ClipPlayer) (s : State) : (putClip c s).hdr = s.hdr := by simp [putClip]
@[simp] theorem putClip_cx (c : ClipPlayer) (s : State) : (putClip c s).cx = s.cx := by simp [putClip]
@[simp] theorem putClip_tray (c : ClipPlayer) (s : State) : (putClip c s).tray = s.tray := by simp [putClip]
@[simp] theorem putClip_shadow (c : ClipPlayer) (s : State) : (putClip c s).shadow = s.shadow := by simp [putClip]
@[simp] theorem putClip_lamp (c : ClipPlayer) (s : State) : (putClip c s).lamp = s.lamp := by simp [putClip]
@[simp] theorem putClip_thermal (c : ClipPlayer) (s : State) : (putClip c s).thermal = s.thermal := by simp [putClip]
@[simp] theorem putClip_cue (c : ClipPlayer) (s : State) : (putClip c s).cue = s.cue := by simp [putClip]
@[simp] theorem putClip_log (c : ClipPlayer) (s : State) : (putClip c s).log = s.log := by simp [putClip]
@[simp] theorem putClip_deck (c : ClipPlayer) (s : State) : (putClip c s).deck = s.deck := by simp [putClip]
@[simp] theorem putClip_remote (c : ClipPlayer) (s : State) : (putClip c s).remote = s.remote := by simp [putClip]
@[simp] theorem putClip_unit (c : ClipPlayer) (s : State) : (putClip c s).unit = s.unit := by simp [putClip]
@[simp] theorem putClip_resetHeld (c : ClipPlayer) (s : State) : (putClip c s).resetHeld = s.resetHeld := by simp [putClip]
@[simp] theorem putClip_now (c : ClipPlayer) (s : State) : (putClip c s).now = s.now := by simp [putClip]
@[simp] theorem putClip_pending (c : ClipPlayer) (s : State) : (putClip c s).pending = s.pending := by simp [putClip]
@[simp] theorem putClip_sw_copy (c : ClipPlayer) (s : State) : (putClip c s).sw.copy = s.sw.copy := by simp [putClip]
@[simp] theorem putClip_sw_unwritten (c : ClipPlayer) (s : State) : (putClip c s).sw.unwritten = s.sw.unwritten := by simp [putClip]
@[simp] theorem putClip_sw_latches (c : ClipPlayer) (s : State) : (putClip c s).sw.latches = s.sw.latches := by simp [putClip]
@[simp] theorem putClip_sw_irqPending (c : ClipPlayer) (s : State) : (putClip c s).sw.irqPending = s.sw.irqPending := by simp [putClip]
@[simp] theorem putClip_sw_rdy (c : ClipPlayer) (s : State) : (putClip c s).sw.rdy = s.sw.rdy := by simp [putClip]
@[simp] theorem putClip_sw_resultTag (c : ClipPlayer) (s : State) : (putClip c s).sw.resultTag = s.sw.resultTag := by simp [putClip]
@[simp] theorem putClip_sw_resultCode (c : ClipPlayer) (s : State) : (putClip c s).sw.resultCode = s.sw.resultCode := by simp [putClip]
@[simp] theorem putClip_sw_remaining (c : ClipPlayer) (s : State) : (putClip c s).sw.remaining = s.sw.remaining := by simp [putClip]
@[simp] theorem putClip_sw_lastSlot (c : ClipPlayer) (s : State) : (putClip c s).sw.lastSlot = s.sw.lastSlot := by simp [putClip]
@[simp] theorem putClip_sw_rejectTag (c : ClipPlayer) (s : State) : (putClip c s).sw.rejectTag = s.sw.rejectTag := by simp [putClip]
@[simp] theorem putClip_sw_fail (c : ClipPlayer) (s : State) : (putClip c s).sw.fail = s.sw.fail := by simp [putClip]

/-! ### putRemote -/

@[simp] theorem putRemote_remote (r : Remote) (s : State) : (putRemote r s).remote = r := by simp [putRemote]
@[simp] theorem putRemote_mem (r : Remote) (s : State) : (putRemote r s).mem = s.mem := by simp [putRemote]
@[simp] theorem putRemote_port (r : Remote) (s : State) : (putRemote r s).port = s.port := by simp [putRemote]
@[simp] theorem putRemote_hdr (r : Remote) (s : State) : (putRemote r s).hdr = s.hdr := by simp [putRemote]
@[simp] theorem putRemote_cx (r : Remote) (s : State) : (putRemote r s).cx = s.cx := by simp [putRemote]
@[simp] theorem putRemote_tray (r : Remote) (s : State) : (putRemote r s).tray = s.tray := by simp [putRemote]
@[simp] theorem putRemote_shadow (r : Remote) (s : State) : (putRemote r s).shadow = s.shadow := by simp [putRemote]
@[simp] theorem putRemote_lamp (r : Remote) (s : State) : (putRemote r s).lamp = s.lamp := by simp [putRemote]
@[simp] theorem putRemote_thermal (r : Remote) (s : State) : (putRemote r s).thermal = s.thermal := by simp [putRemote]
@[simp] theorem putRemote_cue (r : Remote) (s : State) : (putRemote r s).cue = s.cue := by simp [putRemote]
@[simp] theorem putRemote_log (r : Remote) (s : State) : (putRemote r s).log = s.log := by simp [putRemote]
@[simp] theorem putRemote_deck (r : Remote) (s : State) : (putRemote r s).deck = s.deck := by simp [putRemote]
@[simp] theorem putRemote_clip (r : Remote) (s : State) : (putRemote r s).clip = s.clip := by simp [putRemote]
@[simp] theorem putRemote_unit (r : Remote) (s : State) : (putRemote r s).unit = s.unit := by simp [putRemote]
@[simp] theorem putRemote_resetHeld (r : Remote) (s : State) : (putRemote r s).resetHeld = s.resetHeld := by simp [putRemote]
@[simp] theorem putRemote_now (r : Remote) (s : State) : (putRemote r s).now = s.now := by simp [putRemote]
@[simp] theorem putRemote_pending (r : Remote) (s : State) : (putRemote r s).pending = s.pending := by simp [putRemote]
@[simp] theorem putRemote_sw_copy (r : Remote) (s : State) : (putRemote r s).sw.copy = s.sw.copy := by simp [putRemote]
@[simp] theorem putRemote_sw_unwritten (r : Remote) (s : State) : (putRemote r s).sw.unwritten = s.sw.unwritten := by simp [putRemote]
@[simp] theorem putRemote_sw_latches (r : Remote) (s : State) : (putRemote r s).sw.latches = s.sw.latches := by simp [putRemote]
@[simp] theorem putRemote_sw_irqPending (r : Remote) (s : State) : (putRemote r s).sw.irqPending = s.sw.irqPending := by simp [putRemote]
@[simp] theorem putRemote_sw_rdy (r : Remote) (s : State) : (putRemote r s).sw.rdy = s.sw.rdy := by simp [putRemote]
@[simp] theorem putRemote_sw_resultTag (r : Remote) (s : State) : (putRemote r s).sw.resultTag = s.sw.resultTag := by simp [putRemote]
@[simp] theorem putRemote_sw_resultCode (r : Remote) (s : State) : (putRemote r s).sw.resultCode = s.sw.resultCode := by simp [putRemote]
@[simp] theorem putRemote_sw_remaining (r : Remote) (s : State) : (putRemote r s).sw.remaining = s.sw.remaining := by simp [putRemote]
@[simp] theorem putRemote_sw_lastSlot (r : Remote) (s : State) : (putRemote r s).sw.lastSlot = s.sw.lastSlot := by simp [putRemote]
@[simp] theorem putRemote_sw_rejectTag (r : Remote) (s : State) : (putRemote r s).sw.rejectTag = s.sw.rejectTag := by simp [putRemote]
@[simp] theorem putRemote_sw_fail (r : Remote) (s : State) : (putRemote r s).sw.fail = s.sw.fail := by simp [putRemote]

/-! ### putShadow -/

@[simp] theorem putShadow_shadow (sh : Shadow) (s : State) : (putShadow sh s).shadow = sh := by simp [putShadow]
@[simp] theorem putShadow_mem (sh : Shadow) (s : State) : (putShadow sh s).mem = s.mem := by simp [putShadow]
@[simp] theorem putShadow_port (sh : Shadow) (s : State) : (putShadow sh s).port = s.port := by simp [putShadow]
@[simp] theorem putShadow_hdr (sh : Shadow) (s : State) : (putShadow sh s).hdr = s.hdr := by simp [putShadow]
@[simp] theorem putShadow_cx (sh : Shadow) (s : State) : (putShadow sh s).cx = s.cx := by simp [putShadow]
@[simp] theorem putShadow_tray (sh : Shadow) (s : State) : (putShadow sh s).tray = s.tray := by simp [putShadow]
@[simp] theorem putShadow_lamp (sh : Shadow) (s : State) : (putShadow sh s).lamp = s.lamp := by simp [putShadow]
@[simp] theorem putShadow_thermal (sh : Shadow) (s : State) : (putShadow sh s).thermal = s.thermal := by simp [putShadow]
@[simp] theorem putShadow_cue (sh : Shadow) (s : State) : (putShadow sh s).cue = s.cue := by simp [putShadow]
@[simp] theorem putShadow_log (sh : Shadow) (s : State) : (putShadow sh s).log = s.log := by simp [putShadow]
@[simp] theorem putShadow_deck (sh : Shadow) (s : State) : (putShadow sh s).deck = s.deck := by simp [putShadow]
@[simp] theorem putShadow_clip (sh : Shadow) (s : State) : (putShadow sh s).clip = s.clip := by simp [putShadow]
@[simp] theorem putShadow_remote (sh : Shadow) (s : State) : (putShadow sh s).remote = s.remote := by simp [putShadow]
@[simp] theorem putShadow_unit (sh : Shadow) (s : State) : (putShadow sh s).unit = s.unit := by simp [putShadow]
@[simp] theorem putShadow_resetHeld (sh : Shadow) (s : State) : (putShadow sh s).resetHeld = s.resetHeld := by simp [putShadow]
@[simp] theorem putShadow_now (sh : Shadow) (s : State) : (putShadow sh s).now = s.now := by simp [putShadow]
@[simp] theorem putShadow_pending (sh : Shadow) (s : State) : (putShadow sh s).pending = s.pending := by simp [putShadow]
@[simp] theorem putShadow_sw_copy (sh : Shadow) (s : State) : (putShadow sh s).sw.copy = s.sw.copy := by simp [putShadow]
@[simp] theorem putShadow_sw_unwritten (sh : Shadow) (s : State) : (putShadow sh s).sw.unwritten = s.sw.unwritten := by simp [putShadow]
@[simp] theorem putShadow_sw_latches (sh : Shadow) (s : State) : (putShadow sh s).sw.latches = s.sw.latches := by simp [putShadow]
@[simp] theorem putShadow_sw_irqPending (sh : Shadow) (s : State) : (putShadow sh s).sw.irqPending = s.sw.irqPending := by simp [putShadow]
@[simp] theorem putShadow_sw_rdy (sh : Shadow) (s : State) : (putShadow sh s).sw.rdy = s.sw.rdy := by simp [putShadow]
@[simp] theorem putShadow_sw_resultTag (sh : Shadow) (s : State) : (putShadow sh s).sw.resultTag = s.sw.resultTag := by simp [putShadow]
@[simp] theorem putShadow_sw_resultCode (sh : Shadow) (s : State) : (putShadow sh s).sw.resultCode = s.sw.resultCode := by simp [putShadow]
@[simp] theorem putShadow_sw_remaining (sh : Shadow) (s : State) : (putShadow sh s).sw.remaining = s.sw.remaining := by simp [putShadow]
@[simp] theorem putShadow_sw_lastSlot (sh : Shadow) (s : State) : (putShadow sh s).sw.lastSlot = s.sw.lastSlot := by simp [putShadow]
@[simp] theorem putShadow_sw_rejectTag (sh : Shadow) (s : State) : (putShadow sh s).sw.rejectTag = s.sw.rejectTag := by simp [putShadow]
@[simp] theorem putShadow_sw_fail (sh : Shadow) (s : State) : (putShadow sh s).sw.fail = s.sw.fail := by simp [putShadow]

/-! ### addCorrection, putRecord -/

@[simp] theorem addCorrection_mem (i : Nat) (s : State) : (addCorrection i s).mem = s.mem := by simp [addCorrection]
@[simp] theorem addCorrection_port (i : Nat) (s : State) : (addCorrection i s).port = s.port := by simp [addCorrection]
@[simp] theorem addCorrection_cx (i : Nat) (s : State) : (addCorrection i s).cx = s.cx := by simp [addCorrection]
@[simp] theorem addCorrection_tray (i : Nat) (s : State) : (addCorrection i s).tray = s.tray := by simp [addCorrection]
@[simp] theorem addCorrection_shadow (i : Nat) (s : State) : (addCorrection i s).shadow = s.shadow := by simp [addCorrection]
@[simp] theorem addCorrection_lamp (i : Nat) (s : State) : (addCorrection i s).lamp = s.lamp := by simp [addCorrection]
@[simp] theorem addCorrection_thermal (i : Nat) (s : State) : (addCorrection i s).thermal = s.thermal := by simp [addCorrection]
@[simp] theorem addCorrection_cue (i : Nat) (s : State) : (addCorrection i s).cue = s.cue := by simp [addCorrection]
@[simp] theorem addCorrection_log (i : Nat) (s : State) : (addCorrection i s).log = s.log := by simp [addCorrection]
@[simp] theorem addCorrection_deck (i : Nat) (s : State) : (addCorrection i s).deck = s.deck := by simp [addCorrection]
@[simp] theorem addCorrection_clip (i : Nat) (s : State) : (addCorrection i s).clip = s.clip := by simp [addCorrection]
@[simp] theorem addCorrection_remote (i : Nat) (s : State) : (addCorrection i s).remote = s.remote := by simp [addCorrection]
@[simp] theorem addCorrection_unit (i : Nat) (s : State) : (addCorrection i s).unit = s.unit := by simp [addCorrection]
@[simp] theorem addCorrection_resetHeld (i : Nat) (s : State) : (addCorrection i s).resetHeld = s.resetHeld := by simp [addCorrection]
@[simp] theorem addCorrection_now (i : Nat) (s : State) : (addCorrection i s).now = s.now := by simp [addCorrection]
@[simp] theorem addCorrection_pending (i : Nat) (s : State) : (addCorrection i s).pending = s.pending := by simp [addCorrection]
@[simp] theorem addCorrection_sw_copy (i : Nat) (s : State) : (addCorrection i s).sw.copy = s.sw.copy := by simp [addCorrection]
@[simp] theorem addCorrection_sw_unwritten (i : Nat) (s : State) : (addCorrection i s).sw.unwritten = s.sw.unwritten := by simp [addCorrection]
@[simp] theorem addCorrection_sw_latches (i : Nat) (s : State) : (addCorrection i s).sw.latches = s.sw.latches := by simp [addCorrection]
@[simp] theorem addCorrection_sw_irqPending (i : Nat) (s : State) : (addCorrection i s).sw.irqPending = s.sw.irqPending := by simp [addCorrection]
@[simp] theorem addCorrection_sw_rdy (i : Nat) (s : State) : (addCorrection i s).sw.rdy = s.sw.rdy := by simp [addCorrection]
@[simp] theorem addCorrection_sw_resultTag (i : Nat) (s : State) : (addCorrection i s).sw.resultTag = s.sw.resultTag := by simp [addCorrection]
@[simp] theorem addCorrection_sw_resultCode (i : Nat) (s : State) : (addCorrection i s).sw.resultCode = s.sw.resultCode := by simp [addCorrection]
@[simp] theorem addCorrection_sw_remaining (i : Nat) (s : State) : (addCorrection i s).sw.remaining = s.sw.remaining := by simp [addCorrection]
@[simp] theorem addCorrection_sw_lastSlot (i : Nat) (s : State) : (addCorrection i s).sw.lastSlot = s.sw.lastSlot := by simp [addCorrection]
@[simp] theorem addCorrection_sw_rejectTag (i : Nat) (s : State) : (addCorrection i s).sw.rejectTag = s.sw.rejectTag := by simp [addCorrection]
@[simp] theorem addCorrection_sw_fail (i : Nat) (s : State) : (addCorrection i s).sw.fail = s.sw.fail := by simp [addCorrection]

@[simp] theorem putRecord_mem (r : CommandRecord) (s : State) : (putRecord r s).mem = s.mem := by simp [putRecord]
@[simp] theorem putRecord_port (r : CommandRecord) (s : State) : (putRecord r s).port = s.port := by simp [putRecord]
@[simp] theorem putRecord_cx (r : CommandRecord) (s : State) : (putRecord r s).cx = s.cx := by simp [putRecord]
@[simp] theorem putRecord_tray (r : CommandRecord) (s : State) : (putRecord r s).tray = s.tray := by simp [putRecord]
@[simp] theorem putRecord_shadow (r : CommandRecord) (s : State) : (putRecord r s).shadow = s.shadow := by simp [putRecord]
@[simp] theorem putRecord_lamp (r : CommandRecord) (s : State) : (putRecord r s).lamp = s.lamp := by simp [putRecord]
@[simp] theorem putRecord_thermal (r : CommandRecord) (s : State) : (putRecord r s).thermal = s.thermal := by simp [putRecord]
@[simp] theorem putRecord_cue (r : CommandRecord) (s : State) : (putRecord r s).cue = s.cue := by simp [putRecord]
@[simp] theorem putRecord_log (r : CommandRecord) (s : State) : (putRecord r s).log = s.log := by simp [putRecord]
@[simp] theorem putRecord_deck (r : CommandRecord) (s : State) : (putRecord r s).deck = s.deck := by simp [putRecord]
@[simp] theorem putRecord_clip (r : CommandRecord) (s : State) : (putRecord r s).clip = s.clip := by simp [putRecord]
@[simp] theorem putRecord_remote (r : CommandRecord) (s : State) : (putRecord r s).remote = s.remote := by simp [putRecord]
@[simp] theorem putRecord_unit (r : CommandRecord) (s : State) : (putRecord r s).unit = s.unit := by simp [putRecord]
@[simp] theorem putRecord_resetHeld (r : CommandRecord) (s : State) : (putRecord r s).resetHeld = s.resetHeld := by simp [putRecord]
@[simp] theorem putRecord_now (r : CommandRecord) (s : State) : (putRecord r s).now = s.now := by simp [putRecord]
@[simp] theorem putRecord_pending (r : CommandRecord) (s : State) : (putRecord r s).pending = s.pending := by simp [putRecord]
@[simp] theorem putRecord_sw_copy (r : CommandRecord) (s : State) : (putRecord r s).sw.copy = s.sw.copy := by simp [putRecord]
@[simp] theorem putRecord_sw_unwritten (r : CommandRecord) (s : State) : (putRecord r s).sw.unwritten = s.sw.unwritten := by simp [putRecord]
@[simp] theorem putRecord_sw_latches (r : CommandRecord) (s : State) : (putRecord r s).sw.latches = s.sw.latches := by simp [putRecord]
@[simp] theorem putRecord_sw_irqPending (r : CommandRecord) (s : State) : (putRecord r s).sw.irqPending = s.sw.irqPending := by simp [putRecord]
@[simp] theorem putRecord_sw_rdy (r : CommandRecord) (s : State) : (putRecord r s).sw.rdy = s.sw.rdy := by simp [putRecord]
@[simp] theorem putRecord_sw_resultTag (r : CommandRecord) (s : State) : (putRecord r s).sw.resultTag = s.sw.resultTag := by simp [putRecord]
@[simp] theorem putRecord_sw_resultCode (r : CommandRecord) (s : State) : (putRecord r s).sw.resultCode = s.sw.resultCode := by simp [putRecord]
@[simp] theorem putRecord_sw_remaining (r : CommandRecord) (s : State) : (putRecord r s).sw.remaining = s.sw.remaining := by simp [putRecord]
@[simp] theorem putRecord_sw_lastSlot (r : CommandRecord) (s : State) : (putRecord r s).sw.lastSlot = s.sw.lastSlot := by simp [putRecord]
@[simp] theorem putRecord_sw_rejectTag (r : CommandRecord) (s : State) : (putRecord r s).sw.rejectTag = s.sw.rejectTag := by simp [putRecord]
@[simp] theorem putRecord_sw_fail (r : CommandRecord) (s : State) : (putRecord r s).sw.fail = s.sw.fail := by simp [putRecord]

@[simp] theorem addCorrection_hdr (i : Nat) (s : State) :
    (addCorrection i s).hdr = { s.hdr with corrections := insertIndex i s.hdr.corrections } := rfl
@[simp] theorem addCorrection_sw (i : Nat) (s : State) : (addCorrection i s).sw = s.sw := rfl
@[simp] theorem putSettings_hdr (st : Settings) (s : State) :
    (putSettings st s).hdr = { s.hdr with settings := st } := by simp [putSettings]
@[simp] theorem putRecord_hdr (r : CommandRecord) (s : State) :
    (putRecord r s).hdr = { s.hdr with record := r } := by simp [putRecord]

/-! ## The executor: a queue of another length reaches auto-hold (R145) -/

@[simp] theorem autoHold_mem (s : State) : (autoHold s).mem = s.mem := by
  unfold autoHold; split
  · split
    · simp
    · split <;> simp
  · rfl
@[simp] theorem autoHold_port (s : State) : (autoHold s).port = s.port := by
  unfold autoHold; split
  · split
    · simp
    · split <;> simp
  · rfl
@[simp] theorem autoHold_hdr (s : State) : (autoHold s).hdr = s.hdr := by
  unfold autoHold; split
  · split
    · simp
    · split <;> simp
  · rfl
@[simp] theorem autoHold_cx (s : State) : (autoHold s).cx = s.cx := by
  unfold autoHold; split
  · split
    · simp
    · split <;> simp
  · rfl
@[simp] theorem autoHold_tray (s : State) : (autoHold s).tray = s.tray := by
  unfold autoHold; split
  · split
    · simp
    · split <;> simp
  · rfl
@[simp] theorem autoHold_shadow (s : State) : (autoHold s).shadow = s.shadow := by
  unfold autoHold; split
  · split
    · simp
    · split <;> simp
  · rfl
@[simp] theorem autoHold_lamp (s : State) : (autoHold s).lamp = s.lamp := by
  unfold autoHold; split
  · split
    · simp
    · split <;> simp
  · rfl
@[simp] theorem autoHold_thermal (s : State) : (autoHold s).thermal = s.thermal := by
  unfold autoHold; split
  · split
    · simp
    · split <;> simp
  · rfl
@[simp] theorem autoHold_cue (s : State) : (autoHold s).cue = s.cue := by
  unfold autoHold; split
  · split
    · simp
    · split <;> simp
  · rfl
@[simp] theorem autoHold_log (s : State) : (autoHold s).log = s.log := by
  unfold autoHold; split
  · split
    · simp
    · split <;> simp
  · rfl
@[simp] theorem autoHold_clip (s : State) : (autoHold s).clip = s.clip := by
  unfold autoHold; split
  · split
    · simp
    · split <;> simp
  · rfl
@[simp] theorem autoHold_remote (s : State) : (autoHold s).remote = s.remote := by
  unfold autoHold; split
  · split
    · simp
    · split <;> simp
  · rfl
@[simp] theorem autoHold_unit (s : State) : (autoHold s).unit = s.unit := by
  unfold autoHold; split
  · split
    · simp
    · split <;> simp
  · rfl
@[simp] theorem autoHold_resetHeld (s : State) : (autoHold s).resetHeld = s.resetHeld := by
  unfold autoHold; split
  · split
    · simp
    · split <;> simp
  · rfl
@[simp] theorem autoHold_now (s : State) : (autoHold s).now = s.now := by
  unfold autoHold; split
  · split
    · simp
    · split <;> simp
  · rfl
@[simp] theorem autoHold_pending (s : State) : (autoHold s).pending = s.pending := by
  unfold autoHold; split
  · split
    · simp
    · split <;> simp
  · rfl
@[simp] theorem autoHold_sw_copy (s : State) : (autoHold s).sw.copy = s.sw.copy := by
  unfold autoHold; split
  · split
    · simp
    · split <;> simp
  · rfl
@[simp] theorem autoHold_sw_unwritten (s : State) : (autoHold s).sw.unwritten = s.sw.unwritten := by
  unfold autoHold; split
  · split
    · simp
    · split <;> simp
  · rfl
@[simp] theorem autoHold_sw_latches (s : State) : (autoHold s).sw.latches = s.sw.latches := by
  unfold autoHold; split
  · split
    · simp
    · split <;> simp
  · rfl
@[simp] theorem autoHold_sw_irqPending (s : State) : (autoHold s).sw.irqPending = s.sw.irqPending := by
  unfold autoHold; split
  · split
    · simp
    · split <;> simp
  · rfl
@[simp] theorem autoHold_sw_rdy (s : State) : (autoHold s).sw.rdy = s.sw.rdy := by
  unfold autoHold; split
  · split
    · simp
    · split <;> simp
  · rfl
@[simp] theorem autoHold_sw_resultTag (s : State) : (autoHold s).sw.resultTag = s.sw.resultTag := by
  unfold autoHold; split
  · split
    · simp
    · split <;> simp
  · rfl
@[simp] theorem autoHold_sw_resultCode (s : State) : (autoHold s).sw.resultCode = s.sw.resultCode := by
  unfold autoHold; split
  · split
    · simp
    · split <;> simp
  · rfl
@[simp] theorem autoHold_sw_remaining (s : State) : (autoHold s).sw.remaining = s.sw.remaining := by
  unfold autoHold; split
  · split
    · simp
    · split <;> simp
  · rfl
@[simp] theorem autoHold_sw_lastSlot (s : State) : (autoHold s).sw.lastSlot = s.sw.lastSlot := by
  unfold autoHold; split
  · split
    · simp
    · split <;> simp
  · rfl
@[simp] theorem autoHold_sw_rejectTag (s : State) : (autoHold s).sw.rejectTag = s.sw.rejectTag := by
  unfold autoHold; split
  · split
    · simp
    · split <;> simp
  · rfl
@[simp] theorem autoHold_sw_fail (s : State) : (autoHold s).sw.fail = s.sw.fail := by
  unfold autoHold; split
  · split
    · simp
    · split <;> simp
  · rfl

/-- What auto-hold leaves in the set of pause holders (R145). -/
def autoDeck (on : Bool) (depth : Nat) (d : Deck) : Deck :=
  if on then (if 6 ≤ depth then { d with auto := true } else if depth ≤ 2 then { d with auto := false } else d) else d

@[simp] theorem autoHold_deck (s : State) :
    (autoHold s).deck = autoDeck s.hdr.settings.autoHold s.cx.queue.length s.deck := by
  unfold autoHold autoDeck; split
  · split
    · simp
    · split <;> simp
  · rfl

@[simp] theorem putCx_cx (c : CueExecutor) (s : State) : (putCx c s).cx = c := by
  unfold putCx; dsimp only; split <;> simp
@[simp] theorem putCx_mem (c : CueExecutor) (s : State) : (putCx c s).mem = s.mem := by
  unfold putCx; dsimp only; split <;> simp
@[simp] theorem putCx_port (c : CueExecutor) (s : State) : (putCx c s).port = s.port := by
  unfold putCx; dsimp only; split <;> simp
@[simp] theorem putCx_hdr (c : CueExecutor) (s : State) : (putCx c s).hdr = s.hdr := by
  unfold putCx; dsimp only; split <;> simp
@[simp] theorem putCx_tray (c : CueExecutor) (s : State) : (putCx c s).tray = s.tray := by
  unfold putCx; dsimp only; split <;> simp
@[simp] theorem putCx_shadow (c : CueExecutor) (s : State) : (putCx c s).shadow = s.shadow := by
  unfold putCx; dsimp only; split <;> simp
@[simp] theorem putCx_lamp (c : CueExecutor) (s : State) : (putCx c s).lamp = s.lamp := by
  unfold putCx; dsimp only; split <;> simp
@[simp] theorem putCx_thermal (c : CueExecutor) (s : State) : (putCx c s).thermal = s.thermal := by
  unfold putCx; dsimp only; split <;> simp
@[simp] theorem putCx_cue (c : CueExecutor) (s : State) : (putCx c s).cue = s.cue := by
  unfold putCx; dsimp only; split <;> simp
@[simp] theorem putCx_log (c : CueExecutor) (s : State) : (putCx c s).log = s.log := by
  unfold putCx; dsimp only; split <;> simp
@[simp] theorem putCx_clip (c : CueExecutor) (s : State) : (putCx c s).clip = s.clip := by
  unfold putCx; dsimp only; split <;> simp
@[simp] theorem putCx_remote (c : CueExecutor) (s : State) : (putCx c s).remote = s.remote := by
  unfold putCx; dsimp only; split <;> simp
@[simp] theorem putCx_unit (c : CueExecutor) (s : State) : (putCx c s).unit = s.unit := by
  unfold putCx; dsimp only; split <;> simp
@[simp] theorem putCx_resetHeld (c : CueExecutor) (s : State) : (putCx c s).resetHeld = s.resetHeld := by
  unfold putCx; dsimp only; split <;> simp
@[simp] theorem putCx_now (c : CueExecutor) (s : State) : (putCx c s).now = s.now := by
  unfold putCx; dsimp only; split <;> simp
@[simp] theorem putCx_pending (c : CueExecutor) (s : State) : (putCx c s).pending = s.pending := by
  unfold putCx; dsimp only; split <;> simp
@[simp] theorem putCx_sw_copy (c : CueExecutor) (s : State) : (putCx c s).sw.copy = s.sw.copy := by
  unfold putCx; dsimp only; split <;> simp
@[simp] theorem putCx_sw_unwritten (c : CueExecutor) (s : State) : (putCx c s).sw.unwritten = s.sw.unwritten := by
  unfold putCx; dsimp only; split <;> simp
@[simp] theorem putCx_sw_latches (c : CueExecutor) (s : State) : (putCx c s).sw.latches = s.sw.latches := by
  unfold putCx; dsimp only; split <;> simp
@[simp] theorem putCx_sw_irqPending (c : CueExecutor) (s : State) : (putCx c s).sw.irqPending = s.sw.irqPending := by
  unfold putCx; dsimp only; split <;> simp
@[simp] theorem putCx_sw_rdy (c : CueExecutor) (s : State) : (putCx c s).sw.rdy = s.sw.rdy := by
  unfold putCx; dsimp only; split <;> simp
@[simp] theorem putCx_sw_resultTag (c : CueExecutor) (s : State) : (putCx c s).sw.resultTag = s.sw.resultTag := by
  unfold putCx; dsimp only; split <;> simp
@[simp] theorem putCx_sw_resultCode (c : CueExecutor) (s : State) : (putCx c s).sw.resultCode = s.sw.resultCode := by
  unfold putCx; dsimp only; split <;> simp
@[simp] theorem putCx_sw_remaining (c : CueExecutor) (s : State) : (putCx c s).sw.remaining = s.sw.remaining := by
  unfold putCx; dsimp only; split <;> simp
@[simp] theorem putCx_sw_lastSlot (c : CueExecutor) (s : State) : (putCx c s).sw.lastSlot = s.sw.lastSlot := by
  unfold putCx; dsimp only; split <;> simp
@[simp] theorem putCx_sw_rejectTag (c : CueExecutor) (s : State) : (putCx c s).sw.rejectTag = s.sw.rejectTag := by
  unfold putCx; dsimp only; split <;> simp
@[simp] theorem putCx_sw_fail (c : CueExecutor) (s : State) : (putCx c s).sw.fail = s.sw.fail := by
  unfold putCx; dsimp only; split <;> simp

/-- The set of pause holders changes only when the queue's length does. -/
@[simp] theorem putCx_deck (c : CueExecutor) (s : State) :
    (putCx c s).deck
      = if c.queue.length = s.cx.queue.length then s.deck
        else autoDeck s.hdr.settings.autoHold c.queue.length s.deck := by
  unfold putCx; dsimp only; split <;> simp

/-! ## The Memory Port's withdrawals (R195) -/

@[simp] theorem voidAccess_mem (w : Requester) (s : State) : (voidAccess w s).mem = s.mem := by
  unfold voidAccess; split
  · split <;> rfl
  · rfl
@[simp] theorem voidAccess_hdr (w : Requester) (s : State) : (voidAccess w s).hdr = s.hdr := by
  unfold voidAccess; split
  · split <;> rfl
  · rfl
@[simp] theorem voidAccess_sw (w : Requester) (s : State) : (voidAccess w s).sw = s.sw := by
  unfold voidAccess; split
  · split <;> rfl
  · rfl
@[simp] theorem voidAccess_cx (w : Requester) (s : State) : (voidAccess w s).cx = s.cx := by
  unfold voidAccess; split
  · split <;> rfl
  · rfl
@[simp] theorem voidAccess_tray (w : Requester) (s : State) : (voidAccess w s).tray = s.tray := by
  unfold voidAccess; split
  · split <;> rfl
  · rfl
@[simp] theorem voidAccess_shadow (w : Requester) (s : State) : (voidAccess w s).shadow = s.shadow := by
  unfold voidAccess; split
  · split <;> rfl
  · rfl
@[simp] theorem voidAccess_lamp (w : Requester) (s : State) : (voidAccess w s).lamp = s.lamp := by
  unfold voidAccess; split
  · split <;> rfl
  · rfl
@[simp] theorem voidAccess_thermal (w : Requester) (s : State) : (voidAccess w s).thermal = s.thermal := by
  unfold voidAccess; split
  · split <;> rfl
  · rfl
@[simp] theorem voidAccess_cue (w : Requester) (s : State) : (voidAccess w s).cue = s.cue := by
  unfold voidAccess; split
  · split <;> rfl
  · rfl
@[simp] theorem voidAccess_log (w : Requester) (s : State) : (voidAccess w s).log = s.log := by
  unfold voidAccess; split
  · split <;> rfl
  · rfl
@[simp] theorem voidAccess_deck (w : Requester) (s : State) : (voidAccess w s).deck = s.deck := by
  unfold voidAccess; split
  · split <;> rfl
  · rfl
@[simp] theorem voidAccess_clip (w : Requester) (s : State) : (voidAccess w s).clip = s.clip := by
  unfold voidAccess; split
  · split <;> rfl
  · rfl
@[simp] theorem voidAccess_remote (w : Requester) (s : State) : (voidAccess w s).remote = s.remote := by
  unfold voidAccess; split
  · split <;> rfl
  · rfl
@[simp] theorem voidAccess_unit (w : Requester) (s : State) : (voidAccess w s).unit = s.unit := by
  unfold voidAccess; split
  · split <;> rfl
  · rfl
@[simp] theorem voidAccess_resetHeld (w : Requester) (s : State) : (voidAccess w s).resetHeld = s.resetHeld := by
  unfold voidAccess; split
  · split <;> rfl
  · rfl
@[simp] theorem voidAccess_now (w : Requester) (s : State) : (voidAccess w s).now = s.now := by
  unfold voidAccess; split
  · split <;> rfl
  · rfl
@[simp] theorem voidAccess_pending (w : Requester) (s : State) : (voidAccess w s).pending = s.pending := by
  unfold voidAccess; split
  · split <;> rfl
  · rfl

@[simp] theorem withdrawShadow_mem  (s : State) : (withdrawShadow  s).mem = s.mem := by simp [withdrawShadow]
@[simp] theorem withdrawShadow_hdr  (s : State) : (withdrawShadow  s).hdr = s.hdr := by simp [withdrawShadow]
@[simp] theorem withdrawShadow_sw  (s : State) : (withdrawShadow  s).sw = s.sw := by simp [withdrawShadow]
@[simp] theorem withdrawShadow_cx  (s : State) : (withdrawShadow  s).cx = s.cx := by simp [withdrawShadow]
@[simp] theorem withdrawShadow_tray  (s : State) : (withdrawShadow  s).tray = s.tray := by simp [withdrawShadow]
@[simp] theorem withdrawShadow_shadow  (s : State) : (withdrawShadow  s).shadow = s.shadow := by simp [withdrawShadow]
@[simp] theorem withdrawShadow_lamp  (s : State) : (withdrawShadow  s).lamp = s.lamp := by simp [withdrawShadow]
@[simp] theorem withdrawShadow_thermal  (s : State) : (withdrawShadow  s).thermal = s.thermal := by simp [withdrawShadow]
@[simp] theorem withdrawShadow_cue  (s : State) : (withdrawShadow  s).cue = s.cue := by simp [withdrawShadow]
@[simp] theorem withdrawShadow_log  (s : State) : (withdrawShadow  s).log = s.log := by simp [withdrawShadow]
@[simp] theorem withdrawShadow_deck  (s : State) : (withdrawShadow  s).deck = s.deck := by simp [withdrawShadow]
@[simp] theorem withdrawShadow_clip  (s : State) : (withdrawShadow  s).clip = s.clip := by simp [withdrawShadow]
@[simp] theorem withdrawShadow_remote  (s : State) : (withdrawShadow  s).remote = s.remote := by simp [withdrawShadow]
@[simp] theorem withdrawShadow_unit  (s : State) : (withdrawShadow  s).unit = s.unit := by simp [withdrawShadow]
@[simp] theorem withdrawShadow_resetHeld  (s : State) : (withdrawShadow  s).resetHeld = s.resetHeld := by simp [withdrawShadow]
@[simp] theorem withdrawShadow_now  (s : State) : (withdrawShadow  s).now = s.now := by simp [withdrawShadow]
@[simp] theorem withdrawShadow_pending  (s : State) : (withdrawShadow  s).pending = s.pending := by simp [withdrawShadow]

@[simp] theorem withdrawCurve_mem  (s : State) : (withdrawCurve  s).mem = s.mem := by simp [withdrawCurve]
@[simp] theorem withdrawCurve_hdr  (s : State) : (withdrawCurve  s).hdr = s.hdr := by simp [withdrawCurve]
@[simp] theorem withdrawCurve_sw  (s : State) : (withdrawCurve  s).sw = s.sw := by simp [withdrawCurve]
@[simp] theorem withdrawCurve_cx  (s : State) : (withdrawCurve  s).cx = s.cx := by simp [withdrawCurve]
@[simp] theorem withdrawCurve_tray  (s : State) : (withdrawCurve  s).tray = s.tray := by simp [withdrawCurve]
@[simp] theorem withdrawCurve_shadow  (s : State) : (withdrawCurve  s).shadow = s.shadow := by simp [withdrawCurve]
@[simp] theorem withdrawCurve_lamp  (s : State) : (withdrawCurve  s).lamp = s.lamp := by simp [withdrawCurve]
@[simp] theorem withdrawCurve_thermal  (s : State) : (withdrawCurve  s).thermal = s.thermal := by simp [withdrawCurve]
@[simp] theorem withdrawCurve_cue  (s : State) : (withdrawCurve  s).cue = s.cue := by simp [withdrawCurve]
@[simp] theorem withdrawCurve_log  (s : State) : (withdrawCurve  s).log = s.log := by simp [withdrawCurve]
@[simp] theorem withdrawCurve_deck  (s : State) : (withdrawCurve  s).deck = s.deck := by simp [withdrawCurve]
@[simp] theorem withdrawCurve_clip  (s : State) : (withdrawCurve  s).clip = s.clip := by simp [withdrawCurve]
@[simp] theorem withdrawCurve_remote  (s : State) : (withdrawCurve  s).remote = s.remote := by simp [withdrawCurve]
@[simp] theorem withdrawCurve_unit  (s : State) : (withdrawCurve  s).unit = s.unit := by simp [withdrawCurve]
@[simp] theorem withdrawCurve_resetHeld  (s : State) : (withdrawCurve  s).resetHeld = s.resetHeld := by simp [withdrawCurve]
@[simp] theorem withdrawCurve_now  (s : State) : (withdrawCurve  s).now = s.now := by simp [withdrawCurve]
@[simp] theorem withdrawCurve_pending  (s : State) : (withdrawCurve  s).pending = s.pending := by simp [withdrawCurve]

@[simp] theorem withdrawLog_mem  (s : State) : (withdrawLog  s).mem = s.mem := by simp [withdrawLog]
@[simp] theorem withdrawLog_hdr  (s : State) : (withdrawLog  s).hdr = s.hdr := by simp [withdrawLog]
@[simp] theorem withdrawLog_sw  (s : State) : (withdrawLog  s).sw = s.sw := by simp [withdrawLog]
@[simp] theorem withdrawLog_cx  (s : State) : (withdrawLog  s).cx = s.cx := by simp [withdrawLog]
@[simp] theorem withdrawLog_tray  (s : State) : (withdrawLog  s).tray = s.tray := by simp [withdrawLog]
@[simp] theorem withdrawLog_shadow  (s : State) : (withdrawLog  s).shadow = s.shadow := by simp [withdrawLog]
@[simp] theorem withdrawLog_lamp  (s : State) : (withdrawLog  s).lamp = s.lamp := by simp [withdrawLog]
@[simp] theorem withdrawLog_thermal  (s : State) : (withdrawLog  s).thermal = s.thermal := by simp [withdrawLog]
@[simp] theorem withdrawLog_cue  (s : State) : (withdrawLog  s).cue = s.cue := by simp [withdrawLog]
@[simp] theorem withdrawLog_log  (s : State) : (withdrawLog  s).log = s.log := by simp [withdrawLog]
@[simp] theorem withdrawLog_deck  (s : State) : (withdrawLog  s).deck = s.deck := by simp [withdrawLog]
@[simp] theorem withdrawLog_clip  (s : State) : (withdrawLog  s).clip = s.clip := by simp [withdrawLog]
@[simp] theorem withdrawLog_remote  (s : State) : (withdrawLog  s).remote = s.remote := by simp [withdrawLog]
@[simp] theorem withdrawLog_unit  (s : State) : (withdrawLog  s).unit = s.unit := by simp [withdrawLog]
@[simp] theorem withdrawLog_resetHeld  (s : State) : (withdrawLog  s).resetHeld = s.resetHeld := by simp [withdrawLog]
@[simp] theorem withdrawLog_now  (s : State) : (withdrawLog  s).now = s.now := by simp [withdrawLog]
@[simp] theorem withdrawLog_pending  (s : State) : (withdrawLog  s).pending = s.pending := by simp [withdrawLog]

@[simp] theorem withdrawClip_mem  (s : State) : (withdrawClip  s).mem = s.mem := by simp [withdrawClip]
@[simp] theorem withdrawClip_hdr  (s : State) : (withdrawClip  s).hdr = s.hdr := by simp [withdrawClip]
@[simp] theorem withdrawClip_sw  (s : State) : (withdrawClip  s).sw = s.sw := by simp [withdrawClip]
@[simp] theorem withdrawClip_cx  (s : State) : (withdrawClip  s).cx = s.cx := by simp [withdrawClip]
@[simp] theorem withdrawClip_tray  (s : State) : (withdrawClip  s).tray = s.tray := by simp [withdrawClip]
@[simp] theorem withdrawClip_shadow  (s : State) : (withdrawClip  s).shadow = s.shadow := by simp [withdrawClip]
@[simp] theorem withdrawClip_lamp  (s : State) : (withdrawClip  s).lamp = s.lamp := by simp [withdrawClip]
@[simp] theorem withdrawClip_thermal  (s : State) : (withdrawClip  s).thermal = s.thermal := by simp [withdrawClip]
@[simp] theorem withdrawClip_cue  (s : State) : (withdrawClip  s).cue = s.cue := by simp [withdrawClip]
@[simp] theorem withdrawClip_log  (s : State) : (withdrawClip  s).log = s.log := by simp [withdrawClip]
@[simp] theorem withdrawClip_deck  (s : State) : (withdrawClip  s).deck = s.deck := by simp [withdrawClip]
@[simp] theorem withdrawClip_clip  (s : State) : (withdrawClip  s).clip = s.clip := by simp [withdrawClip]
@[simp] theorem withdrawClip_remote  (s : State) : (withdrawClip  s).remote = s.remote := by simp [withdrawClip]
@[simp] theorem withdrawClip_unit  (s : State) : (withdrawClip  s).unit = s.unit := by simp [withdrawClip]
@[simp] theorem withdrawClip_resetHeld  (s : State) : (withdrawClip  s).resetHeld = s.resetHeld := by simp [withdrawClip]
@[simp] theorem withdrawClip_now  (s : State) : (withdrawClip  s).now = s.now := by simp [withdrawClip]
@[simp] theorem withdrawClip_pending  (s : State) : (withdrawClip  s).pending = s.pending := by simp [withdrawClip]

@[simp] theorem withdrawHeader_mem (i : Nat) (s : State) : (withdrawHeader i s).mem = s.mem := by unfold withdrawHeader; split <;> rfl
@[simp] theorem withdrawHeader_hdr (i : Nat) (s : State) : (withdrawHeader i s).hdr = s.hdr := by unfold withdrawHeader; split <;> rfl
@[simp] theorem withdrawHeader_sw (i : Nat) (s : State) : (withdrawHeader i s).sw = s.sw := by unfold withdrawHeader; split <;> rfl
@[simp] theorem withdrawHeader_cx (i : Nat) (s : State) : (withdrawHeader i s).cx = s.cx := by unfold withdrawHeader; split <;> rfl
@[simp] theorem withdrawHeader_tray (i : Nat) (s : State) : (withdrawHeader i s).tray = s.tray := by unfold withdrawHeader; split <;> rfl
@[simp] theorem withdrawHeader_shadow (i : Nat) (s : State) : (withdrawHeader i s).shadow = s.shadow := by unfold withdrawHeader; split <;> rfl
@[simp] theorem withdrawHeader_lamp (i : Nat) (s : State) : (withdrawHeader i s).lamp = s.lamp := by unfold withdrawHeader; split <;> rfl
@[simp] theorem withdrawHeader_thermal (i : Nat) (s : State) : (withdrawHeader i s).thermal = s.thermal := by unfold withdrawHeader; split <;> rfl
@[simp] theorem withdrawHeader_cue (i : Nat) (s : State) : (withdrawHeader i s).cue = s.cue := by unfold withdrawHeader; split <;> rfl
@[simp] theorem withdrawHeader_log (i : Nat) (s : State) : (withdrawHeader i s).log = s.log := by unfold withdrawHeader; split <;> rfl
@[simp] theorem withdrawHeader_deck (i : Nat) (s : State) : (withdrawHeader i s).deck = s.deck := by unfold withdrawHeader; split <;> rfl
@[simp] theorem withdrawHeader_clip (i : Nat) (s : State) : (withdrawHeader i s).clip = s.clip := by unfold withdrawHeader; split <;> rfl
@[simp] theorem withdrawHeader_remote (i : Nat) (s : State) : (withdrawHeader i s).remote = s.remote := by unfold withdrawHeader; split <;> rfl
@[simp] theorem withdrawHeader_unit (i : Nat) (s : State) : (withdrawHeader i s).unit = s.unit := by unfold withdrawHeader; split <;> rfl
@[simp] theorem withdrawHeader_resetHeld (i : Nat) (s : State) : (withdrawHeader i s).resetHeld = s.resetHeld := by unfold withdrawHeader; split <;> rfl
@[simp] theorem withdrawHeader_now (i : Nat) (s : State) : (withdrawHeader i s).now = s.now := by unfold withdrawHeader; split <;> rfl
@[simp] theorem withdrawHeader_pending (i : Nat) (s : State) : (withdrawHeader i s).pending = s.pending := by unfold withdrawHeader; split <;> rfl

/-- A withdrawal leaves the RAM's access with its requester: at most its mark changes. -/
theorem voidAccess_port (w : Requester) (s : State) :
    (voidAccess w s).port
      = { s.port with ram := s.port.ram.map (fun a => if a.who = w then { a with void := true } else a) } := by
  cases hp : s.port with
  | mk access backlog reqs ram guard readData =>
    unfold voidAccess
    cases ram with
    | none => simp [hp]
    | some a => by_cases h : a.who = w <;> simp [hp, h]

/-! ## Bodies -/

theorem body_markDirty (i : Nat) (s : State) : (markDirty i s).body = s.body := rfl
theorem body_markIf (b : Bool) (i : Nat) (s : State) : (markIf b i s).body = s.body := by cases b <;> rfl
theorem body_markStatus (s : State) : (markStatus s).body = s.body := rfl
theorem body_markStatusIf (b : Bool) (s : State) : (markStatusIf b s).body = s.body := by cases b <;> rfl
theorem body_markAll (s : State) : (markAll s).body = s.body := rfl

theorem body_latch (e : Event) (s : State) :
    (latch e s).body = { s.body with sw := { s.body.sw with latches := s.sw.latches ||| BitVec.twoPow 16 e.bit } } := by
  simp [State.body]
theorem body_putTray (t : Tray) (s : State) : (putTray t s).body = { s.body with tray := t } := by
  simp [State.body]
theorem body_putLamp (l : Lamp) (s : State) : (putLamp l s).body = { s.body with lamp := l } := by
  simp [State.body]
theorem body_putThermal (t : Thermal) (s : State) : (putThermal t s).body = { s.body with thermal := t } := by
  simp [State.body]
theorem body_putCue (c : CueTrack) (s : State) : (putCue c s).body = { s.body with cue := c } := by
  simp [State.body]
theorem body_putLog (l : LogWriter) (s : State) : (putLog l s).body = { s.body with log := l } := by
  simp [State.body]
theorem body_putDeck (d : Deck) (s : State) : (putDeck d s).body = { s.body with deck := d } := by
  simp [State.body]
theorem body_putClip (c : ClipPlayer) (s : State) :
    (putClip c s).body = { s.body with clip := { c with inFlight := false } } := by
  simp [State.body]
theorem body_putRemote (r : Remote) (s : State) : (putRemote r s).body = { s.body with remote := r } := by
  simp [State.body]
theorem body_putShadow (sh : Shadow) (s : State) : (putShadow sh s).body = { s.body with shadow := sh } := by
  simp [State.body]
theorem body_putCx (c : CueExecutor) (s : State) :
    (putCx c s).body = { s.body with cx := c, deck := (putCx c s).deck } := by
  simp [State.body]
theorem body_putRecord (r : CommandRecord) (s : State) :
    (putRecord r s).body = { s.body with hdr := { s.hdr with record := r } } := by
  simp [State.body]
theorem body_putSettings (st : Settings) (s : State) :
    (putSettings st s).body = { s.body with hdr := { s.hdr with settings := st } } := by
  simp [State.body, putSettings]

end Sys2Proof.Machine
end

