-- ==== Sys2Proof/Laws/Finish.lean ====
section
/-! SUPPORT. What the end of a step does: with the executor and the Log Writer at rest it changes nothing but the traffic
on the RAM, unless it grants an access of the host. -/

namespace Sys2Proof.Machine

/-! ## Two states with one body -/

section body
variable {s t : State} (h : t.body = s.body)
include h
theorem body_mem : t.mem = s.mem := by simpa only [State.body] using congrArg State.mem h
theorem body_hdr : t.hdr = s.hdr := by simpa only [State.body] using congrArg State.hdr h
theorem body_cx : t.cx = s.cx := by simpa only [State.body] using congrArg State.cx h
theorem body_tray : t.tray = s.tray := by simpa only [State.body] using congrArg State.tray h
theorem body_shadow : t.shadow = s.shadow := by simpa only [State.body] using congrArg State.shadow h
theorem body_lamp : t.lamp = s.lamp := by simpa only [State.body] using congrArg State.lamp h
theorem body_thermal : t.thermal = s.thermal := by simpa only [State.body] using congrArg State.thermal h
theorem body_cue : t.cue = s.cue := by simpa only [State.body] using congrArg State.cue h
theorem body_log : t.log = s.log := by simpa only [State.body] using congrArg State.log h
theorem body_deck : t.deck = s.deck := by simpa only [State.body] using congrArg State.deck h
theorem body_remote : t.remote = s.remote := by simpa only [State.body] using congrArg State.remote h
theorem body_resetHeld : t.resetHeld = s.resetHeld := by simpa only [State.body] using congrArg State.resetHeld h
end body

/-- The executor's course depends on five fields of the state. -/
theorem executorStep_none_congr {s t : State} (h1 : t.tray.completion = s.tray.completion) (h2 : t.cx = s.cx)
    (h3 : t.lamp.state = s.lamp.state) (h4 : t.remote.netCount = s.remote.netCount)
    (h5 : t.remote.oneShot = s.remote.oneShot) (h6 : t.hdr.record = s.hdr.record) :
    executorStep t = none ↔ executorStep s = none := by
  unfold executorStep choiceIsLampOff sourceWaiting
  rw [h1, h2, h3, h4, h5, h6]
  cases s.tray.completion with
  | some c => simp
  | none =>
    cases s.cx.action with
    | none => dsimp only; split <;> simp
    | some a => dsimp only; repeat' split
                all_goals first
                  | rfl
                  | simp

/-- States with one body have their executors at rest together. -/
theorem executorStep_none_of_body {s t : State} (h : t.body = s.body) :
    executorStep t = none ↔ executorStep s = none :=
  executorStep_none_congr (by rw [body_tray h]) (body_cx h) (by rw [body_lamp h]) (by rw [body_remote h])
    (by rw [body_remote h]) (by rw [body_hdr h])

/-- States with one body have their Log Writers at rest together. -/
theorem logQuiet_of_body {s t : State} (h : t.body = s.body) : logQuiet t ↔ logQuiet s := by
  unfold logQuiet; rw [body_hdr h, body_log h]

/-! ## settle and logPump at rest -/

theorem settle_of_none {s : State} (n : Nat) (h : executorStep s = none) : settle n s = s := by
  cases n with
  | zero => rfl
  | succ n => simp [settle, h]

theorem logPump_of_quiet {s : State} (n : Nat) (h : logQuiet s) : logPump n s = s := by
  cases n with
  | zero => rfl
  | succ n =>
    unfold logPump
    rcases h with h | h | h
    · simp [h]
    · simp [h]
    · split
      · rfl
      · simp [h]

/-! ## present -/

/-- A relation: t is s but for the requests, the dirty set and the sample word on its way. -/
structure OnlyAsked (s t : State) : Prop where
  body : t.body = s.body
  access : t.port.access = s.port.access
  backlog : t.port.backlog = s.port.backlog
  ram : t.port.ram = s.port.ram
  guard : t.port.guard = s.port.guard
  readData : t.port.readData = s.port.readData

theorem OnlyAsked.refl (s : State) : OnlyAsked s s := ⟨rfl, rfl, rfl, rfl, rfl, rfl⟩

theorem OnlyAsked.trans {s t u : State} (h : OnlyAsked s t) (k : OnlyAsked t u) : OnlyAsked s u :=
  ⟨k.body.trans h.body, k.access.trans h.access, k.backlog.trans h.backlog, k.ram.trans h.ram,
    k.guard.trans h.guard, k.readData.trans h.readData⟩

theorem onlyAsked_putReqs (r : Requests) (s : State) : OnlyAsked s (putReqs r s) := ⟨rfl, rfl, rfl, rfl, rfl, rfl⟩

theorem onlyAsked_presentClip (s : State) : OnlyAsked s (presentClip s) := by
  unfold presentClip
  split
  · refine ⟨?_, ?_, ?_, ?_, ?_, ?_⟩ <;> simp [putReqs, putClip]
    unfold State.body markIf markDirty
    dsimp only
    split <;> split <;> rfl
  · exact .refl s

theorem onlyAsked_presentStatus (s : State) : OnlyAsked s (presentStatus s) := by
  unfold presentStatus
  split
  · split
    · exact ⟨rfl, rfl, rfl, rfl, rfl, rfl⟩
    · exact .refl s
  · exact .refl s

theorem onlyAsked_presentHeader (s : State) : OnlyAsked s (presentHeader s) := by
  unfold presentHeader
  split
  · split
    · exact onlyAsked_putReqs _ _
    · exact .refl s
  · exact .refl s

theorem onlyAsked_presentLog (s : State) : OnlyAsked s (presentLog s) := by
  unfold presentLog
  split
  · exact onlyAsked_putReqs _ _
  · exact .refl s

theorem onlyAsked_presentShadow (s : State) : OnlyAsked s (presentShadow s) := by
  unfold presentShadow
  split
  · exact onlyAsked_putReqs _ _
  · exact .refl s

theorem onlyAsked_presentCurve (s : State) : OnlyAsked s (presentCurve s) := by
  unfold presentCurve
  split
  · exact onlyAsked_putReqs _ _
  · exact .refl s

theorem onlyAsked_present (s : State) : OnlyAsked s (present s) :=
  (((((onlyAsked_presentClip s).trans (onlyAsked_presentStatus _)).trans (onlyAsked_presentHeader _)).trans
    (onlyAsked_presentLog _)).trans (onlyAsked_presentShadow _)).trans (onlyAsked_presentCurve _)

/-- With the executor and the Log Writer at rest, `after` only presents requests. -/
theorem onlyAsked_after {s : State} (h : executorStep s = none) (k : logQuiet s) : OnlyAsked s (after s) := by
  unfold after
  rw [settle_of_none 40 h, logPump_of_quiet 5 k]
  exact onlyAsked_present s

/-! ## grant -/

/-- No grant but one of the host's access changes the body. -/
theorem body_grantTo {who : Requester} (s : State) (h : who ≠ .host) : (grantTo who s).body = s.body := by
  cases who <;> simp only [grantTo, grantStatus, grantHeader, grantLog, grantRead] <;>
    first
    | exact absurd rfl h
    | (split <;> rfl)

/-- The arbiter does not choose the host when none of its accesses waits. -/
theorem choose_ne_host {p : Port} {u : Bool} (h : p.hostWaits = false) : choose p u ≠ some .host := by
  have hL : p.reqs.firstL ≠ some .host := by
    unfold Requests.firstL; repeat' split
    all_goals simp
  have hF : p.reqs.firstF ≠ some .host := by
    unfold Requests.firstF; repeat' split
    all_goals simp
  have hG : p.reqs.guarded ≠ some .host := by
    unfold Requests.guarded; split
    · rename_i w hw; intro hh; apply hL; rw [hw, hh]
    · exact hF
  unfold choose
  rw [h]
  repeat' split
  all_goals first
    | assumption
    | (intro hh; simp_all)

/-- A grant leaves the body, unless it is the host's. -/
theorem body_grant {s : State} (h : s.port.ram.isSome = true ∨ s.port.hostWaits = false) :
    (grant s).body = s.body := by
  unfold grant
  split
  · rfl
  · rename_i hr
    have hw : s.port.hostWaits = false := by simpa [hr] using h
    split
    · rename_i who hc
      refine body_grantTo s ?_
      rintro rfl
      exact choose_ne_host hw hc
    · rfl

theorem hostWaits_congr {p q : Port} (h : p.access = q.access) : p.hostWaits = q.hostWaits := by
  unfold Port.hostWaits; rw [h]

/-- **The end of a step at rest.** With the executor and the Log Writer at rest and no access of the host to grant, the
end of a step changes only the traffic on the RAM. -/
theorem body_finish {s : State} (h : executorStep s = none) (k : logQuiet s)
    (w : s.port.ram.isSome = true ∨ s.port.hostWaits = false) : (finish s).body = s.body := by
  have h1 := onlyAsked_after h k
  have w1 : (after s).port.ram.isSome = true ∨ (after s).port.hostWaits = false := by
    rw [h1.ram, hostWaits_congr h1.access]; exact w
  have h2 : (grant (after s)).body = s.body := (body_grant w1).trans h1.body
  have h3 := onlyAsked_after ((executorStep_none_of_body h2).2 h) ((logQuiet_of_body h2).2 k)
  exact h3.body.trans h2

/-- A command at rest: what is left is the body of what the command does. -/
theorem live_next {f : State → State} {s : State} (r : s.resetHeld = false) (h : executorStep (f s) = none)
    (k : logQuiet (f s)) (w : (f s).port.ram.isSome = true ∨ (f s).port.hostWaits = false) :
    (live f s).body = (f s).body := by
  unfold live; simp [r, body_finish h k w]

/-! ## An access of the host granted at once -/

/-- Where the host's access waits and nothing goes before it, it is granted (R192). -/
theorem choose_host {p : Port} {u : Bool} (hw : p.hostWaits = true) (hc : p.reqs.clipPlayer = none)
    (hg : p.guard < 8) : choose p u = some .host := by
  unfold choose
  have : p.guard ≠ 8 := by omega
  simp [hw, hc, this]

/-- With no sample word wanted, no class S request appears. -/
theorem presentClip_of_not_wants {s : State} (h : s.clip.wantsWord = false) : presentClip s = s := by
  simp [presentClip, h]

theorem present_clipPlayer {s : State} (h : s.clip.wantsWord = false) :
    (present s).port.reqs.clipPlayer = s.port.reqs.clipPlayer := by
  have e1 : ∀ u : State, (presentStatus u).port.reqs.clipPlayer = u.port.reqs.clipPlayer := by
    intro u; unfold presentStatus; repeat' split
    all_goals rfl
  have e2 : ∀ u : State, (presentHeader u).port.reqs.clipPlayer = u.port.reqs.clipPlayer := by
    intro u; unfold presentHeader; repeat' split
    all_goals rfl
  have e3 : ∀ u : State, (presentLog u).port.reqs.clipPlayer = u.port.reqs.clipPlayer := by
    intro u; unfold presentLog; repeat' split
    all_goals rfl
  have e4 : ∀ u : State, (presentShadow u).port.reqs.clipPlayer = u.port.reqs.clipPlayer := by
    intro u; unfold presentShadow; repeat' split
    all_goals rfl
  have e5 : ∀ u : State, (presentCurve u).port.reqs.clipPlayer = u.port.reqs.clipPlayer := by
    intro u; unfold presentCurve; repeat' split
    all_goals rfl
  unfold present
  rw [e5, e4, e3, e2, e1, presentClip_of_not_wants h]

/-- **A host access of a ready part** is taken, granted in the same step, and followed by what comes about at once. The
state it is granted in is the old one but for the traffic on the RAM. -/
theorem hostAccess_ready {a : WordAddr} {k : HostKind} {c : AccessClass} {s : State} (h : HostReady s)
    (hk : takeAccess a k s
      = { s with port := { s.port with access := some { addr := a, kind := k, cls := c, inRam := false } } }) :
    ∃ u, OnlyAsked { s with port := { s.port with access := some { addr := a, kind := k, cls := c, inRam := false } } } u
      ∧ portFinish (hostAccess a k s) = after (grantHost u) := by
  obtain ⟨hr, he, hl, ha, hm, hc, hw, hg⟩ := h
  have hx : hostAccess a k s
      = { s with port := { s.port with access := some { addr := a, kind := k, cls := c, inRam := false } } } := by
    unfold hostAccess; simp [ha, hk]
  let v : State :=
    { s with port := { s.port with access := some { addr := a, kind := k, cls := c, inRam := false } } }
  have e : executorStep v = none := (executorStep_none_congr (s := s) (t := v) rfl rfl rfl rfl rfl rfl).2 he
  have l : logQuiet v := hl
  have q := onlyAsked_after e l
  refine ⟨after v, q, ?_⟩
  rw [hx]
  unfold portFinish finish
  have hv : v.resetHeld = false := hr
  have hram : (after v).port.ram = none := q.ram.trans hm
  have hcl : (after v).port.reqs.clipPlayer = none := by
    unfold after
    rw [settle_of_none 40 e, logPump_of_quiet 5 l]
    exact (present_clipPlayer (s := v) hw).trans hc
  have hho : (after v).port.hostWaits = true := by
    rw [hostWaits_congr q.access]; rfl
  have hgu : (after v).port.guard < 8 := by rw [q.guard]; exact hg
  have hgr : grant (after v) = grantHost (after v) := by
    unfold grant
    rw [hram]
    simp only [choose_host hho hcl hgu, grantTo]
  show (if v.resetHeld = true then grant v else after (grant (after v))) = _
  rw [hv, hgr]
  simp

/-! ## The chip period -/

/-- An interval is valid against P when it lies within a quarter of P of 1 to 6 chips (R125). -/
theorem chipsValid_iff (n i p : Nat) : chipsValid n i p = true ↔
    1 ≤ n ∧ n ≤ 6 ∧ 4 * i ≤ 4 * n * p + p ∧ 4 * n * p ≤ 4 * i + p := by
  simp only [chipsValid, Bool.and_eq_true, decide_eq_true_iff, Nat.mul_assoc]
  generalize n * p = m
  omega

/-- P after the transitions of a frame is the one R125 gives, interval by interval. -/
theorem trackPeriods_eq (intervals : List Nat) (p : Nat) : trackPeriods intervals p = periodAfter intervals p := by
  induction intervals generalizing p with
  | nil => rfl
  | cons i rest ih =>
    have hc : ∀ n, trackPeriod p n i = max 1282 (min 2381 ((7 * p * n + i) / (8 * n))) := by
      intro n
      unfold trackPeriod clampTo Config.chipMin Config.chipMax
      repeat' split
      all_goals omega
    simp only [periodAfter, ← ih, trackPeriods, List.foldl_cons]
    congr 1
    rw [show (2 * i + p) / (2 * p) = roundDiv i p from rfl]
    by_cases k : chipsValid (roundDiv i p) i p = true
    · rw [if_pos k, if_pos ((chipsValid_iff _ i p).mp k), hc]
    · rw [if_neg k, if_neg (fun x => k ((chipsValid_iff _ i p).mpr x))]

end Sys2Proof.Machine
end

