-- ==== Sys2Proof/Laws/Frame.lean ====
section
/-! SUPPORT. The blocks that each shared operation leaves alone: one lemma per operation, whose parts rewrite. -/

namespace Sys2Proof.Machine

/-- A fold of operations leaves alone what each of them does. -/
theorem foldl_frame {α β : Type} (g : State → β) (f : State → α → State) (hf : ∀ s x, g (f s x) = g s) (l : List α)
    (s : State) : g (l.foldl f s) = g s := by
  induction l generalizing s with
  | nil => rfl
  | cons x l ih => simp only [List.foldl_cons]; rw [ih, hf]

/-! ## Ops -/

@[simp] theorem endCommand_frame (code : ResultCode) (remaining : Nat) (lastSlot : Nat) (s : State) :
    (endCommand code remaining lastSlot s).mem = s.mem ∧ (endCommand code remaining lastSlot s).port =
    s.port ∧ (endCommand code remaining lastSlot s).cx = s.cx ∧ (endCommand code remaining lastSlot s).tray
    = s.tray ∧ (endCommand code remaining lastSlot s).shadow = s.shadow ∧ (endCommand code remaining
    lastSlot s).lamp = s.lamp ∧ (endCommand code remaining lastSlot s).thermal = s.thermal ∧ (endCommand
    code remaining lastSlot s).cue = s.cue ∧ (endCommand code remaining lastSlot s).log = s.log ∧
    (endCommand code remaining lastSlot s).deck = s.deck ∧ (endCommand code remaining lastSlot s).clip =
    s.clip ∧ (endCommand code remaining lastSlot s).remote = s.remote ∧ (endCommand code remaining lastSlot
    s).unit = s.unit ∧ (endCommand code remaining lastSlot s).resetHeld = s.resetHeld ∧ (endCommand code
    remaining lastSlot s).now = s.now ∧ (endCommand code remaining lastSlot s).pending = s.pending := by
  unfold endCommand
  dsimp only
  repeat' split
  all_goals simp

@[simp] theorem endPlain_frame (code : ResultCode) (s : State) :
    (endPlain code s).mem = s.mem ∧ (endPlain code s).port = s.port ∧ (endPlain code s).cx = s.cx ∧
    (endPlain code s).tray = s.tray ∧ (endPlain code s).shadow = s.shadow ∧ (endPlain code s).lamp = s.lamp
    ∧ (endPlain code s).thermal = s.thermal ∧ (endPlain code s).cue = s.cue ∧ (endPlain code s).log = s.log
    ∧ (endPlain code s).deck = s.deck ∧ (endPlain code s).clip = s.clip ∧ (endPlain code s).remote =
    s.remote ∧ (endPlain code s).unit = s.unit ∧ (endPlain code s).resetHeld = s.resetHeld ∧ (endPlain code
    s).now = s.now ∧ (endPlain code s).pending = s.pending := by
  unfold endPlain
  simp

@[simp] theorem handLog_frame (r : LogRecord) (s : State) :
    (handLog r s).mem = s.mem ∧ (handLog r s).port = s.port ∧ (handLog r s).hdr = s.hdr ∧ (handLog r s).cx =
    s.cx ∧ (handLog r s).tray = s.tray ∧ (handLog r s).shadow = s.shadow ∧ (handLog r s).lamp = s.lamp ∧
    (handLog r s).thermal = s.thermal ∧ (handLog r s).cue = s.cue ∧ (handLog r s).deck = s.deck ∧ (handLog r
    s).clip = s.clip ∧ (handLog r s).remote = s.remote ∧ (handLog r s).unit = s.unit ∧ (handLog r
    s).resetHeld = s.resetHeld ∧ (handLog r s).now = s.now ∧ (handLog r s).pending = s.pending := by
  unfold handLog
  repeat' split
  all_goals simp

/-! ## Shadow -/

@[simp] theorem lookup_frame (kind : RecKind) (key : Nat) (pin : Bool) (s : State) :
    (lookup kind key pin s).1.mem = s.mem ∧ (lookup kind key pin s).1.port = s.port ∧ (lookup kind key pin
    s).1.hdr = s.hdr ∧ (lookup kind key pin s).1.cx = s.cx ∧ (lookup kind key pin s).1.tray = s.tray ∧
    (lookup kind key pin s).1.lamp = s.lamp ∧ (lookup kind key pin s).1.thermal = s.thermal ∧ (lookup kind
    key pin s).1.cue = s.cue ∧ (lookup kind key pin s).1.log = s.log ∧ (lookup kind key pin s).1.deck =
    s.deck ∧ (lookup kind key pin s).1.clip = s.clip ∧ (lookup kind key pin s).1.remote = s.remote ∧ (lookup
    kind key pin s).1.unit = s.unit ∧ (lookup kind key pin s).1.resetHeld = s.resetHeld ∧ (lookup kind key
    pin s).1.now = s.now ∧ (lookup kind key pin s).1.pending = s.pending := by
  unfold lookup
  dsimp only
  repeat' split
  all_goals simp

@[simp] theorem serveWaiting_frame (s : State) :
    (serveWaiting s).mem = s.mem ∧ (serveWaiting s).port = s.port ∧ (serveWaiting s).hdr = s.hdr ∧ (serveWaiting
    s).cx = s.cx ∧ (serveWaiting s).tray = s.tray ∧ (serveWaiting s).lamp = s.lamp ∧ (serveWaiting s).thermal =
    s.thermal ∧ (serveWaiting s).cue = s.cue ∧ (serveWaiting s).log = s.log ∧ (serveWaiting s).deck = s.deck ∧
    (serveWaiting s).clip = s.clip ∧ (serveWaiting s).remote = s.remote ∧ (serveWaiting s).unit = s.unit ∧
    (serveWaiting s).resetHeld = s.resetHeld ∧ (serveWaiting s).now = s.now ∧ (serveWaiting s).pending =
    s.pending := by
  unfold serveWaiting
  and_intros <;> first
    | exact foldl_frame State.mem _ (fun s l => by simp) _ s
    | exact foldl_frame State.port _ (fun s l => by simp) _ s
    | exact foldl_frame State.hdr _ (fun s l => by simp) _ s
    | exact foldl_frame State.cx _ (fun s l => by simp) _ s
    | exact foldl_frame State.tray _ (fun s l => by simp) _ s
    | exact foldl_frame State.lamp _ (fun s l => by simp) _ s
    | exact foldl_frame State.thermal _ (fun s l => by simp) _ s
    | exact foldl_frame State.cue _ (fun s l => by simp) _ s
    | exact foldl_frame State.log _ (fun s l => by simp) _ s
    | exact foldl_frame State.deck _ (fun s l => by simp) _ s
    | exact foldl_frame State.clip _ (fun s l => by simp) _ s
    | exact foldl_frame State.remote _ (fun s l => by simp) _ s
    | exact foldl_frame State.unit _ (fun s l => by simp) _ s
    | exact foldl_frame State.resetHeld _ (fun s l => by simp) _ s
    | exact foldl_frame State.now _ (fun s l => by simp) _ s
    | exact foldl_frame State.pending _ (fun s l => by simp) _ s

theorem recordWord_frame (v : Word) (s : State) :
    (recordWord v s).1.mem = s.mem ∧ (recordWord v s).1.port = s.port ∧ (recordWord v s).1.hdr = s.hdr ∧
    (recordWord v s).1.cx = s.cx ∧ (recordWord v s).1.tray = s.tray ∧ (recordWord v s).1.lamp = s.lamp ∧
    (recordWord v s).1.thermal = s.thermal ∧ (recordWord v s).1.cue = s.cue ∧ (recordWord v s).1.log = s.log
    ∧ (recordWord v s).1.deck = s.deck ∧ (recordWord v s).1.clip = s.clip ∧ (recordWord v s).1.remote =
    s.remote ∧ (recordWord v s).1.unit = s.unit ∧ (recordWord v s).1.resetHeld = s.resetHeld ∧ (recordWord v
    s).1.now = s.now ∧ (recordWord v s).1.pending = s.pending := by
  unfold recordWord
  dsimp only
  repeat' split
  all_goals simp

@[simp] theorem lowerPin_frame (kind : RecKind) (key : Nat) (s : State) :
    (lowerPin kind key s).mem = s.mem ∧ (lowerPin kind key s).port = s.port ∧ (lowerPin kind key s).hdr = s.hdr
    ∧ (lowerPin kind key s).cx = s.cx ∧ (lowerPin kind key s).tray = s.tray ∧ (lowerPin kind key s).lamp =
    s.lamp ∧ (lowerPin kind key s).thermal = s.thermal ∧ (lowerPin kind key s).cue = s.cue ∧ (lowerPin kind key
    s).log = s.log ∧ (lowerPin kind key s).deck = s.deck ∧ (lowerPin kind key s).clip = s.clip ∧ (lowerPin kind
    key s).remote = s.remote ∧ (lowerPin kind key s).unit = s.unit ∧ (lowerPin kind key s).resetHeld =
    s.resetHeld ∧ (lowerPin kind key s).now = s.now ∧ (lowerPin kind key s).pending = s.pending := by
  unfold lowerPin
  dsimp only
  repeat' split
  all_goals simp

@[simp] theorem releasePin_frame (kind : RecKind) (key : Nat) (s : State) :
    (releasePin kind key s).mem = s.mem ∧ (releasePin kind key s).port = s.port ∧ (releasePin kind key
    s).hdr = s.hdr ∧ (releasePin kind key s).cx = s.cx ∧ (releasePin kind key s).tray = s.tray ∧ (releasePin
    kind key s).lamp = s.lamp ∧ (releasePin kind key s).thermal = s.thermal ∧ (releasePin kind key s).cue =
    s.cue ∧ (releasePin kind key s).log = s.log ∧ (releasePin kind key s).deck = s.deck ∧ (releasePin kind
    key s).clip = s.clip ∧ (releasePin kind key s).remote = s.remote ∧ (releasePin kind key s).unit = s.unit
    ∧ (releasePin kind key s).resetHeld = s.resetHeld ∧ (releasePin kind key s).now = s.now ∧ (releasePin
    kind key s).pending = s.pending := by
  unfold releasePin
  split <;> simp

@[simp] theorem shadowCompare_frame (start : Nat) (len : Nat) (s : State) :
    (shadowCompare start len s).mem = s.mem ∧ (shadowCompare start len s).hdr = s.hdr ∧ (shadowCompare start
    len s).cx = s.cx ∧ (shadowCompare start len s).tray = s.tray ∧ (shadowCompare start len s).lamp = s.lamp
    ∧ (shadowCompare start len s).thermal = s.thermal ∧ (shadowCompare start len s).cue = s.cue ∧
    (shadowCompare start len s).log = s.log ∧ (shadowCompare start len s).deck = s.deck ∧ (shadowCompare
    start len s).clip = s.clip ∧ (shadowCompare start len s).remote = s.remote ∧ (shadowCompare start len
    s).unit = s.unit ∧ (shadowCompare start len s).resetHeld = s.resetHeld ∧ (shadowCompare start len s).now
    = s.now ∧ (shadowCompare start len s).pending = s.pending := by
  unfold shadowCompare
  dsimp only
  repeat' split
  all_goals simp

@[simp] theorem shadowBaseChange_frame (kind : RecKind) (base : Nat) (s : State) :
    (shadowBaseChange kind base s).mem = s.mem ∧ (shadowBaseChange kind base s).hdr = s.hdr ∧
    (shadowBaseChange kind base s).cx = s.cx ∧ (shadowBaseChange kind base s).tray = s.tray ∧
    (shadowBaseChange kind base s).lamp = s.lamp ∧ (shadowBaseChange kind base s).thermal = s.thermal ∧
    (shadowBaseChange kind base s).cue = s.cue ∧ (shadowBaseChange kind base s).log = s.log ∧
    (shadowBaseChange kind base s).deck = s.deck ∧ (shadowBaseChange kind base s).clip = s.clip ∧
    (shadowBaseChange kind base s).remote = s.remote ∧ (shadowBaseChange kind base s).unit = s.unit ∧
    (shadowBaseChange kind base s).resetHeld = s.resetHeld ∧ (shadowBaseChange kind base s).now = s.now ∧
    (shadowBaseChange kind base s).pending = s.pending := by
  unfold shadowBaseChange
  dsimp only
  repeat' split
  all_goals simp

@[simp] theorem shadowReset_frame (s : State) :
    (shadowReset s).mem = s.mem ∧ (shadowReset s).hdr = s.hdr ∧ (shadowReset s).cx = s.cx ∧ (shadowReset
    s).tray = s.tray ∧ (shadowReset s).lamp = s.lamp ∧ (shadowReset s).thermal = s.thermal ∧ (shadowReset
    s).cue = s.cue ∧ (shadowReset s).log = s.log ∧ (shadowReset s).deck = s.deck ∧ (shadowReset s).clip =
    s.clip ∧ (shadowReset s).remote = s.remote ∧ (shadowReset s).unit = s.unit ∧ (shadowReset s).resetHeld =
    s.resetHeld ∧ (shadowReset s).now = s.now ∧ (shadowReset s).pending = s.pending := by
  unfold shadowReset
  simp

--# serveAll: clip hdr log shadow sw
--# serve: clip hdr log shadow sw
--# clearEvents: sw port
--# freshRing: hdr log port sw
--# transportCompleted: clip cx deck hdr lamp log shadow sw tray

/-! ## Thermal -/

@[simp] theorem updateCeiling_frame (s : State) :
    (updateCeiling s).mem = s.mem ∧ (updateCeiling s).port = s.port ∧ (updateCeiling s).hdr = s.hdr ∧
    (updateCeiling s).cx = s.cx ∧ (updateCeiling s).tray = s.tray ∧ (updateCeiling s).shadow = s.shadow ∧
    (updateCeiling s).lamp = s.lamp ∧ (updateCeiling s).cue = s.cue ∧ (updateCeiling s).log = s.log ∧
    (updateCeiling s).deck = s.deck ∧ (updateCeiling s).clip = s.clip ∧ (updateCeiling s).remote = s.remote
    ∧ (updateCeiling s).unit = s.unit ∧ (updateCeiling s).resetHeld = s.resetHeld ∧ (updateCeiling s).now =
    s.now ∧ (updateCeiling s).pending = s.pending := by
  unfold updateCeiling
  dsimp only
  simp

@[simp] theorem slewCeiling_frame (s : State) :
    (slewCeiling s).mem = s.mem ∧ (slewCeiling s).port = s.port ∧ (slewCeiling s).hdr = s.hdr ∧ (slewCeiling
    s).cx = s.cx ∧ (slewCeiling s).tray = s.tray ∧ (slewCeiling s).shadow = s.shadow ∧ (slewCeiling s).lamp
    = s.lamp ∧ (slewCeiling s).cue = s.cue ∧ (slewCeiling s).log = s.log ∧ (slewCeiling s).deck = s.deck ∧
    (slewCeiling s).clip = s.clip ∧ (slewCeiling s).remote = s.remote ∧ (slewCeiling s).unit = s.unit ∧
    (slewCeiling s).resetHeld = s.resetHeld ∧ (slewCeiling s).now = s.now ∧ (slewCeiling s).pending =
    s.pending := by
  unfold slewCeiling
  repeat' split
  all_goals simp

@[simp] theorem handFloor_frame (s : State) :
    (handFloor s).mem = s.mem ∧ (handFloor s).port = s.port ∧ (handFloor s).hdr = s.hdr ∧ (handFloor s).cx =
    s.cx ∧ (handFloor s).tray = s.tray ∧ (handFloor s).shadow = s.shadow ∧ (handFloor s).lamp = s.lamp ∧
    (handFloor s).cue = s.cue ∧ (handFloor s).log = s.log ∧ (handFloor s).deck = s.deck ∧ (handFloor s).clip
    = s.clip ∧ (handFloor s).remote = s.remote ∧ (handFloor s).unit = s.unit ∧ (handFloor s).resetHeld =
    s.resetHeld ∧ (handFloor s).now = s.now ∧ (handFloor s).pending = s.pending := by
  unfold handFloor
  dsimp only
  repeat' split
  all_goals simp

@[simp] theorem decideDuty_frame (s : State) :
    (decideDuty s).mem = s.mem ∧ (decideDuty s).port = s.port ∧ (decideDuty s).hdr = s.hdr ∧ (decideDuty
    s).cx = s.cx ∧ (decideDuty s).tray = s.tray ∧ (decideDuty s).shadow = s.shadow ∧ (decideDuty s).lamp =
    s.lamp ∧ (decideDuty s).cue = s.cue ∧ (decideDuty s).log = s.log ∧ (decideDuty s).deck = s.deck ∧
    (decideDuty s).clip = s.clip ∧ (decideDuty s).remote = s.remote ∧ (decideDuty s).unit = s.unit ∧
    (decideDuty s).resetHeld = s.resetHeld ∧ (decideDuty s).now = s.now ∧ (decideDuty s).pending = s.pending := by
  unfold decideDuty
  dsimp only
  repeat' split
  all_goals simp

@[simp] theorem evalStandby_frame (s : State) :
    (evalStandby s).mem = s.mem ∧ (evalStandby s).port = s.port ∧ (evalStandby s).hdr = s.hdr ∧ (evalStandby
    s).cx = s.cx ∧ (evalStandby s).tray = s.tray ∧ (evalStandby s).shadow = s.shadow ∧ (evalStandby s).lamp
    = s.lamp ∧ (evalStandby s).cue = s.cue ∧ (evalStandby s).log = s.log ∧ (evalStandby s).deck = s.deck ∧
    (evalStandby s).clip = s.clip ∧ (evalStandby s).remote = s.remote ∧ (evalStandby s).unit = s.unit ∧
    (evalStandby s).resetHeld = s.resetHeld ∧ (evalStandby s).now = s.now ∧ (evalStandby s).pending =
    s.pending := by
  unfold evalStandby
  repeat' split
  all_goals simp

@[simp] theorem startRunOn_frame (s : State) :
    (startRunOn s).mem = s.mem ∧ (startRunOn s).port = s.port ∧ (startRunOn s).hdr = s.hdr ∧ (startRunOn
    s).cx = s.cx ∧ (startRunOn s).tray = s.tray ∧ (startRunOn s).shadow = s.shadow ∧ (startRunOn s).lamp =
    s.lamp ∧ (startRunOn s).cue = s.cue ∧ (startRunOn s).log = s.log ∧ (startRunOn s).deck = s.deck ∧
    (startRunOn s).clip = s.clip ∧ (startRunOn s).remote = s.remote ∧ (startRunOn s).unit = s.unit ∧
    (startRunOn s).resetHeld = s.resetHeld ∧ (startRunOn s).now = s.now ∧ (startRunOn s).pending = s.pending := by
  unfold startRunOn
  simp

@[simp] theorem endRunOn_frame (s : State) :
    (endRunOn s).mem = s.mem ∧ (endRunOn s).port = s.port ∧ (endRunOn s).hdr = s.hdr ∧ (endRunOn s).cx =
    s.cx ∧ (endRunOn s).tray = s.tray ∧ (endRunOn s).shadow = s.shadow ∧ (endRunOn s).lamp = s.lamp ∧
    (endRunOn s).cue = s.cue ∧ (endRunOn s).log = s.log ∧ (endRunOn s).deck = s.deck ∧ (endRunOn s).clip =
    s.clip ∧ (endRunOn s).remote = s.remote ∧ (endRunOn s).unit = s.unit ∧ (endRunOn s).resetHeld =
    s.resetHeld ∧ (endRunOn s).now = s.now ∧ (endRunOn s).pending = s.pending := by
  unfold endRunOn
  simp

@[simp] theorem tryEndRunOn_frame (s : State) :
    (tryEndRunOn s).mem = s.mem ∧ (tryEndRunOn s).port = s.port ∧ (tryEndRunOn s).hdr = s.hdr ∧ (tryEndRunOn
    s).cx = s.cx ∧ (tryEndRunOn s).tray = s.tray ∧ (tryEndRunOn s).shadow = s.shadow ∧ (tryEndRunOn s).lamp
    = s.lamp ∧ (tryEndRunOn s).cue = s.cue ∧ (tryEndRunOn s).log = s.log ∧ (tryEndRunOn s).deck = s.deck ∧
    (tryEndRunOn s).clip = s.clip ∧ (tryEndRunOn s).remote = s.remote ∧ (tryEndRunOn s).unit = s.unit ∧
    (tryEndRunOn s).resetHeld = s.resetHeld ∧ (tryEndRunOn s).now = s.now ∧ (tryEndRunOn s).pending =
    s.pending := by
  unfold tryEndRunOn
  repeat' split
  all_goals simp

@[simp] theorem lampReport_frame (old : LampState) (s : State) :
    (lampReport old s).mem = s.mem ∧ (lampReport old s).port = s.port ∧ (lampReport old s).hdr = s.hdr ∧
    (lampReport old s).cx = s.cx ∧ (lampReport old s).tray = s.tray ∧ (lampReport old s).shadow = s.shadow ∧
    (lampReport old s).lamp = s.lamp ∧ (lampReport old s).cue = s.cue ∧ (lampReport old s).log = s.log ∧
    (lampReport old s).deck = s.deck ∧ (lampReport old s).clip = s.clip ∧ (lampReport old s).remote =
    s.remote ∧ (lampReport old s).unit = s.unit ∧ (lampReport old s).resetHeld = s.resetHeld ∧ (lampReport
    old s).now = s.now ∧ (lampReport old s).pending = s.pending := by
  unfold lampReport
  dsimp only
  repeat' split
  all_goals simp

@[simp] theorem updateGateFlag_frame (s : State) :
    (updateGateFlag s).mem = s.mem ∧ (updateGateFlag s).port = s.port ∧ (updateGateFlag s).hdr = s.hdr ∧
    (updateGateFlag s).cx = s.cx ∧ (updateGateFlag s).tray = s.tray ∧ (updateGateFlag s).shadow = s.shadow ∧
    (updateGateFlag s).lamp = s.lamp ∧ (updateGateFlag s).cue = s.cue ∧ (updateGateFlag s).log = s.log ∧
    (updateGateFlag s).deck = s.deck ∧ (updateGateFlag s).clip = s.clip ∧ (updateGateFlag s).remote =
    s.remote ∧ (updateGateFlag s).unit = s.unit ∧ (updateGateFlag s).resetHeld = s.resetHeld ∧
    (updateGateFlag s).now = s.now ∧ (updateGateFlag s).pending = s.pending := by
  unfold updateGateFlag
  dsimp only
  repeat' split
  all_goals simp

@[simp] theorem dropReported_frame (s : State) :
    (dropReported s).mem = s.mem ∧ (dropReported s).port = s.port ∧ (dropReported s).hdr = s.hdr ∧
    (dropReported s).cx = s.cx ∧ (dropReported s).tray = s.tray ∧ (dropReported s).shadow = s.shadow ∧
    (dropReported s).lamp = s.lamp ∧ (dropReported s).cue = s.cue ∧ (dropReported s).log = s.log ∧
    (dropReported s).deck = s.deck ∧ (dropReported s).clip = s.clip ∧ (dropReported s).remote = s.remote ∧
    (dropReported s).unit = s.unit ∧ (dropReported s).resetHeld = s.resetHeld ∧ (dropReported s).now = s.now
    ∧ (dropReported s).pending = s.pending := by
  unfold dropReported
  simp

@[simp] theorem setDwellFlag_frame (s : State) :
    (setDwellFlag s).mem = s.mem ∧ (setDwellFlag s).port = s.port ∧ (setDwellFlag s).hdr = s.hdr ∧
    (setDwellFlag s).cx = s.cx ∧ (setDwellFlag s).tray = s.tray ∧ (setDwellFlag s).shadow = s.shadow ∧
    (setDwellFlag s).lamp = s.lamp ∧ (setDwellFlag s).cue = s.cue ∧ (setDwellFlag s).log = s.log ∧
    (setDwellFlag s).deck = s.deck ∧ (setDwellFlag s).clip = s.clip ∧ (setDwellFlag s).remote = s.remote ∧
    (setDwellFlag s).unit = s.unit ∧ (setDwellFlag s).resetHeld = s.resetHeld ∧ (setDwellFlag s).now = s.now
    ∧ (setDwellFlag s).pending = s.pending := by
  unfold setDwellFlag
  simp

@[simp] theorem dwellLimitChanged_frame (s : State) :
    (dwellLimitChanged s).mem = s.mem ∧ (dwellLimitChanged s).port = s.port ∧ (dwellLimitChanged s).hdr =
    s.hdr ∧ (dwellLimitChanged s).cx = s.cx ∧ (dwellLimitChanged s).tray = s.tray ∧ (dwellLimitChanged
    s).shadow = s.shadow ∧ (dwellLimitChanged s).lamp = s.lamp ∧ (dwellLimitChanged s).cue = s.cue ∧
    (dwellLimitChanged s).log = s.log ∧ (dwellLimitChanged s).deck = s.deck ∧ (dwellLimitChanged s).clip =
    s.clip ∧ (dwellLimitChanged s).remote = s.remote ∧ (dwellLimitChanged s).unit = s.unit ∧
    (dwellLimitChanged s).resetHeld = s.resetHeld ∧ (dwellLimitChanged s).now = s.now ∧ (dwellLimitChanged
    s).pending = s.pending := by
  unfold dwellLimitChanged
  repeat' split
  all_goals simp

/-! ## Audio -/

@[simp] theorem handAudio_frame (volume : Nat) (duck : Nat) (s : State) :
    (handAudio volume duck s).mem = s.mem ∧ (handAudio volume duck s).port = s.port ∧ (handAudio volume duck
    s).hdr = s.hdr ∧ (handAudio volume duck s).cx = s.cx ∧ (handAudio volume duck s).tray = s.tray ∧
    (handAudio volume duck s).shadow = s.shadow ∧ (handAudio volume duck s).lamp = s.lamp ∧ (handAudio
    volume duck s).thermal = s.thermal ∧ (handAudio volume duck s).cue = s.cue ∧ (handAudio volume duck
    s).log = s.log ∧ (handAudio volume duck s).deck = s.deck ∧ (handAudio volume duck s).remote = s.remote ∧
    (handAudio volume duck s).unit = s.unit ∧ (handAudio volume duck s).resetHeld = s.resetHeld ∧ (handAudio
    volume duck s).now = s.now ∧ (handAudio volume duck s).pending = s.pending := by
  unfold handAudio
  simp

/-! ## Lamp -/

@[simp] theorem setLampState_frame (st : LampState) (s : State) :
    (setLampState st s).mem = s.mem ∧ (setLampState st s).port = s.port ∧ (setLampState st s).hdr = s.hdr ∧
    (setLampState st s).cx = s.cx ∧ (setLampState st s).tray = s.tray ∧ (setLampState st s).shadow =
    s.shadow ∧ (setLampState st s).cue = s.cue ∧ (setLampState st s).log = s.log ∧ (setLampState st s).deck
    = s.deck ∧ (setLampState st s).clip = s.clip ∧ (setLampState st s).remote = s.remote ∧ (setLampState st
    s).unit = s.unit ∧ (setLampState st s).resetHeld = s.resetHeld ∧ (setLampState st s).now = s.now ∧
    (setLampState st s).pending = s.pending := by
  unfold setLampState
  dsimp only
  repeat' split
  all_goals simp

@[simp] theorem tripLamp_frame (s : State) :
    (tripLamp s).mem = s.mem ∧ (tripLamp s).port = s.port ∧ (tripLamp s).hdr = s.hdr ∧ (tripLamp s).cx =
    s.cx ∧ (tripLamp s).tray = s.tray ∧ (tripLamp s).shadow = s.shadow ∧ (tripLamp s).cue = s.cue ∧
    (tripLamp s).log = s.log ∧ (tripLamp s).deck = s.deck ∧ (tripLamp s).clip = s.clip ∧ (tripLamp s).remote
    = s.remote ∧ (tripLamp s).unit = s.unit ∧ (tripLamp s).resetHeld = s.resetHeld ∧ (tripLamp s).now =
    s.now ∧ (tripLamp s).pending = s.pending := by
  unfold tripLamp
  simp

@[simp] theorem enterWarming_frame (s : State) :
    (enterWarming s).mem = s.mem ∧ (enterWarming s).port = s.port ∧ (enterWarming s).hdr = s.hdr ∧
    (enterWarming s).cx = s.cx ∧ (enterWarming s).tray = s.tray ∧ (enterWarming s).shadow = s.shadow ∧
    (enterWarming s).cue = s.cue ∧ (enterWarming s).log = s.log ∧ (enterWarming s).deck = s.deck ∧
    (enterWarming s).clip = s.clip ∧ (enterWarming s).remote = s.remote ∧ (enterWarming s).unit = s.unit ∧
    (enterWarming s).resetHeld = s.resetHeld ∧ (enterWarming s).now = s.now ∧ (enterWarming s).pending =
    s.pending := by
  unfold enterWarming
  dsimp only
  repeat' split
  all_goals simp

@[simp] theorem warmRequest_frame (s : State) :
    (warmRequest s).mem = s.mem ∧ (warmRequest s).port = s.port ∧ (warmRequest s).hdr = s.hdr ∧ (warmRequest
    s).cx = s.cx ∧ (warmRequest s).tray = s.tray ∧ (warmRequest s).shadow = s.shadow ∧ (warmRequest s).cue =
    s.cue ∧ (warmRequest s).log = s.log ∧ (warmRequest s).deck = s.deck ∧ (warmRequest s).clip = s.clip ∧
    (warmRequest s).remote = s.remote ∧ (warmRequest s).unit = s.unit ∧ (warmRequest s).resetHeld =
    s.resetHeld ∧ (warmRequest s).now = s.now ∧ (warmRequest s).pending = s.pending := by
  unfold warmRequest
  repeat' split
  all_goals simp

@[simp] theorem offRequest_frame (s : State) :
    (offRequest s).mem = s.mem ∧ (offRequest s).port = s.port ∧ (offRequest s).hdr = s.hdr ∧ (offRequest
    s).cx = s.cx ∧ (offRequest s).tray = s.tray ∧ (offRequest s).shadow = s.shadow ∧ (offRequest s).cue =
    s.cue ∧ (offRequest s).log = s.log ∧ (offRequest s).deck = s.deck ∧ (offRequest s).clip = s.clip ∧
    (offRequest s).remote = s.remote ∧ (offRequest s).unit = s.unit ∧ (offRequest s).resetHeld = s.resetHeld
    ∧ (offRequest s).now = s.now ∧ (offRequest s).pending = s.pending := by
  unfold offRequest
  repeat' split
  all_goals simp

@[simp] theorem offMarkActs_frame (s : State) :
    (offMarkActs s).mem = s.mem ∧ (offMarkActs s).port = s.port ∧ (offMarkActs s).hdr = s.hdr ∧ (offMarkActs
    s).cx = s.cx ∧ (offMarkActs s).tray = s.tray ∧ (offMarkActs s).shadow = s.shadow ∧ (offMarkActs s).cue =
    s.cue ∧ (offMarkActs s).log = s.log ∧ (offMarkActs s).deck = s.deck ∧ (offMarkActs s).clip = s.clip ∧
    (offMarkActs s).remote = s.remote ∧ (offMarkActs s).unit = s.unit ∧ (offMarkActs s).resetHeld =
    s.resetHeld ∧ (offMarkActs s).now = s.now ∧ (offMarkActs s).pending = s.pending := by
  unfold offMarkActs
  repeat' split
  all_goals simp

@[simp] theorem takeRamp_frame (level : Nat) (tenths : Nat) (byAction : Bool) (offMark : Bool) (s : State) :
    (takeRamp level tenths byAction offMark s).mem = s.mem ∧ (takeRamp level tenths byAction offMark s).port
    = s.port ∧ (takeRamp level tenths byAction offMark s).hdr = s.hdr ∧ (takeRamp level tenths byAction
    offMark s).cx = s.cx ∧ (takeRamp level tenths byAction offMark s).tray = s.tray ∧ (takeRamp level tenths
    byAction offMark s).shadow = s.shadow ∧ (takeRamp level tenths byAction offMark s).thermal = s.thermal ∧
    (takeRamp level tenths byAction offMark s).cue = s.cue ∧ (takeRamp level tenths byAction offMark s).log
    = s.log ∧ (takeRamp level tenths byAction offMark s).deck = s.deck ∧ (takeRamp level tenths byAction
    offMark s).clip = s.clip ∧ (takeRamp level tenths byAction offMark s).remote = s.remote ∧ (takeRamp
    level tenths byAction offMark s).unit = s.unit ∧ (takeRamp level tenths byAction offMark s).resetHeld =
    s.resetHeld ∧ (takeRamp level tenths byAction offMark s).now = s.now ∧ (takeRamp level tenths byAction
    offMark s).pending = s.pending := by
  unfold takeRamp
  dsimp only
  simp

@[simp] theorem renewOffRamp_frame (s : State) :
    (renewOffRamp s).mem = s.mem ∧ (renewOffRamp s).port = s.port ∧ (renewOffRamp s).hdr = s.hdr ∧
    (renewOffRamp s).cx = s.cx ∧ (renewOffRamp s).tray = s.tray ∧ (renewOffRamp s).shadow = s.shadow ∧
    (renewOffRamp s).thermal = s.thermal ∧ (renewOffRamp s).cue = s.cue ∧ (renewOffRamp s).log = s.log ∧
    (renewOffRamp s).deck = s.deck ∧ (renewOffRamp s).clip = s.clip ∧ (renewOffRamp s).remote = s.remote ∧
    (renewOffRamp s).unit = s.unit ∧ (renewOffRamp s).resetHeld = s.resetHeld ∧ (renewOffRamp s).now = s.now
    ∧ (renewOffRamp s).pending = s.pending := by
  unfold renewOffRamp
  repeat' split
  all_goals simp

@[simp] theorem requestRamp_frame (level : Nat) (tenths : Nat) (byAction : Bool) (offMark : Bool) (s : State) :
    (requestRamp level tenths byAction offMark s).mem = s.mem ∧ (requestRamp level tenths byAction offMark
    s).port = s.port ∧ (requestRamp level tenths byAction offMark s).hdr = s.hdr ∧ (requestRamp level tenths
    byAction offMark s).cx = s.cx ∧ (requestRamp level tenths byAction offMark s).tray = s.tray ∧
    (requestRamp level tenths byAction offMark s).shadow = s.shadow ∧ (requestRamp level tenths byAction
    offMark s).thermal = s.thermal ∧ (requestRamp level tenths byAction offMark s).cue = s.cue ∧
    (requestRamp level tenths byAction offMark s).log = s.log ∧ (requestRamp level tenths byAction offMark
    s).deck = s.deck ∧ (requestRamp level tenths byAction offMark s).clip = s.clip ∧ (requestRamp level
    tenths byAction offMark s).remote = s.remote ∧ (requestRamp level tenths byAction offMark s).unit =
    s.unit ∧ (requestRamp level tenths byAction offMark s).resetHeld = s.resetHeld ∧ (requestRamp level
    tenths byAction offMark s).now = s.now ∧ (requestRamp level tenths byAction offMark s).pending =
    s.pending := by
  unfold requestRamp
  dsimp only
  repeat' split
  all_goals simp

@[simp] theorem freezeRamp_frame (s : State) :
    (freezeRamp s).mem = s.mem ∧ (freezeRamp s).port = s.port ∧ (freezeRamp s).hdr = s.hdr ∧ (freezeRamp
    s).cx = s.cx ∧ (freezeRamp s).tray = s.tray ∧ (freezeRamp s).shadow = s.shadow ∧ (freezeRamp s).thermal
    = s.thermal ∧ (freezeRamp s).cue = s.cue ∧ (freezeRamp s).log = s.log ∧ (freezeRamp s).deck = s.deck ∧
    (freezeRamp s).clip = s.clip ∧ (freezeRamp s).remote = s.remote ∧ (freezeRamp s).unit = s.unit ∧
    (freezeRamp s).resetHeld = s.resetHeld ∧ (freezeRamp s).now = s.now ∧ (freezeRamp s).pending = s.pending := by
  unfold freezeRamp
  dsimp only
  repeat' split
  all_goals simp

@[simp] theorem rampStep_frame (s : State) :
    (rampStep s).mem = s.mem ∧ (rampStep s).port = s.port ∧ (rampStep s).hdr = s.hdr ∧ (rampStep s).cx =
    s.cx ∧ (rampStep s).tray = s.tray ∧ (rampStep s).shadow = s.shadow ∧ (rampStep s).thermal = s.thermal ∧
    (rampStep s).cue = s.cue ∧ (rampStep s).log = s.log ∧ (rampStep s).deck = s.deck ∧ (rampStep s).clip =
    s.clip ∧ (rampStep s).remote = s.remote ∧ (rampStep s).unit = s.unit ∧ (rampStep s).resetHeld =
    s.resetHeld ∧ (rampStep s).now = s.now ∧ (rampStep s).pending = s.pending := by
  unfold rampStep
  dsimp only
  repeat' split
  all_goals simp

@[simp] theorem openWindow_frame (s : State) :
    (openWindow s).mem = s.mem ∧ (openWindow s).port = s.port ∧ (openWindow s).hdr = s.hdr ∧ (openWindow
    s).cx = s.cx ∧ (openWindow s).tray = s.tray ∧ (openWindow s).shadow = s.shadow ∧ (openWindow s).thermal
    = s.thermal ∧ (openWindow s).cue = s.cue ∧ (openWindow s).log = s.log ∧ (openWindow s).deck = s.deck ∧
    (openWindow s).clip = s.clip ∧ (openWindow s).remote = s.remote ∧ (openWindow s).unit = s.unit ∧
    (openWindow s).resetHeld = s.resetHeld ∧ (openWindow s).now = s.now ∧ (openWindow s).pending = s.pending := by
  unfold openWindow
  repeat' split
  all_goals simp

@[simp] theorem closeWindow_frame (s : State) :
    (closeWindow s).mem = s.mem ∧ (closeWindow s).port = s.port ∧ (closeWindow s).hdr = s.hdr ∧ (closeWindow
    s).cx = s.cx ∧ (closeWindow s).tray = s.tray ∧ (closeWindow s).shadow = s.shadow ∧ (closeWindow
    s).thermal = s.thermal ∧ (closeWindow s).cue = s.cue ∧ (closeWindow s).log = s.log ∧ (closeWindow
    s).deck = s.deck ∧ (closeWindow s).clip = s.clip ∧ (closeWindow s).remote = s.remote ∧ (closeWindow
    s).unit = s.unit ∧ (closeWindow s).resetHeld = s.resetHeld ∧ (closeWindow s).now = s.now ∧ (closeWindow
    s).pending = s.pending := by
  unfold closeWindow
  repeat' split
  all_goals simp

@[simp] theorem startLoad_frame (c : CurveSel) (s : State) :
    (startLoad c s).mem = s.mem ∧ (startLoad c s).hdr = s.hdr ∧ (startLoad c s).cx = s.cx ∧ (startLoad c
    s).tray = s.tray ∧ (startLoad c s).shadow = s.shadow ∧ (startLoad c s).thermal = s.thermal ∧ (startLoad
    c s).cue = s.cue ∧ (startLoad c s).log = s.log ∧ (startLoad c s).deck = s.deck ∧ (startLoad c s).clip =
    s.clip ∧ (startLoad c s).remote = s.remote ∧ (startLoad c s).unit = s.unit ∧ (startLoad c s).resetHeld =
    s.resetHeld ∧ (startLoad c s).now = s.now ∧ (startLoad c s).pending = s.pending := by
  unfold startLoad
  simp

@[simp] theorem abandonLoad_frame (s : State) :
    (abandonLoad s).mem = s.mem ∧ (abandonLoad s).hdr = s.hdr ∧ (abandonLoad s).cx = s.cx ∧ (abandonLoad
    s).tray = s.tray ∧ (abandonLoad s).shadow = s.shadow ∧ (abandonLoad s).thermal = s.thermal ∧
    (abandonLoad s).cue = s.cue ∧ (abandonLoad s).log = s.log ∧ (abandonLoad s).deck = s.deck ∧ (abandonLoad
    s).clip = s.clip ∧ (abandonLoad s).remote = s.remote ∧ (abandonLoad s).unit = s.unit ∧ (abandonLoad
    s).resetHeld = s.resetHeld ∧ (abandonLoad s).now = s.now ∧ (abandonLoad s).pending = s.pending := by
  unfold abandonLoad
  simp

@[simp] theorem takeApply_frame (s : State) :
    (takeApply s).mem = s.mem ∧ (takeApply s).hdr = s.hdr ∧ (takeApply s).cx = s.cx ∧ (takeApply s).tray =
    s.tray ∧ (takeApply s).shadow = s.shadow ∧ (takeApply s).thermal = s.thermal ∧ (takeApply s).cue = s.cue
    ∧ (takeApply s).log = s.log ∧ (takeApply s).deck = s.deck ∧ (takeApply s).clip = s.clip ∧ (takeApply
    s).remote = s.remote ∧ (takeApply s).unit = s.unit ∧ (takeApply s).resetHeld = s.resetHeld ∧ (takeApply
    s).now = s.now ∧ (takeApply s).pending = s.pending := by
  unfold takeApply
  dsimp only
  repeat' split
  all_goals simp

@[simp] theorem applyEffect_frame (rec0 : PendingSettings) (s : State) :
    (applyEffect rec0 s).mem = s.mem ∧ (applyEffect rec0 s).port = s.port ∧ (applyEffect rec0 s).cx = s.cx ∧
    (applyEffect rec0 s).tray = s.tray ∧ (applyEffect rec0 s).shadow = s.shadow ∧ (applyEffect rec0 s).cue =
    s.cue ∧ (applyEffect rec0 s).log = s.log ∧ (applyEffect rec0 s).deck = s.deck ∧ (applyEffect rec0
    s).remote = s.remote ∧ (applyEffect rec0 s).unit = s.unit ∧ (applyEffect rec0 s).resetHeld = s.resetHeld
    ∧ (applyEffect rec0 s).now = s.now ∧ (applyEffect rec0 s).pending = s.pending := by
  unfold applyEffect
  dsimp only
  repeat' split
  all_goals simp

@[simp] theorem applyWithoutLoad_frame (s : State) :
    (applyWithoutLoad s).mem = s.mem ∧ (applyWithoutLoad s).port = s.port ∧ (applyWithoutLoad s).cx = s.cx ∧
    (applyWithoutLoad s).tray = s.tray ∧ (applyWithoutLoad s).shadow = s.shadow ∧ (applyWithoutLoad s).cue =
    s.cue ∧ (applyWithoutLoad s).log = s.log ∧ (applyWithoutLoad s).deck = s.deck ∧ (applyWithoutLoad
    s).remote = s.remote ∧ (applyWithoutLoad s).unit = s.unit ∧ (applyWithoutLoad s).resetHeld = s.resetHeld
    ∧ (applyWithoutLoad s).now = s.now ∧ (applyWithoutLoad s).pending = s.pending := by
  unfold applyWithoutLoad
  repeat' split
  all_goals simp

@[simp] theorem curveSwapNow_frame (s : State) :
    (curveSwapNow s).mem = s.mem ∧ (curveSwapNow s).port = s.port ∧ (curveSwapNow s).cx = s.cx ∧
    (curveSwapNow s).tray = s.tray ∧ (curveSwapNow s).shadow = s.shadow ∧ (curveSwapNow s).cue = s.cue ∧
    (curveSwapNow s).log = s.log ∧ (curveSwapNow s).deck = s.deck ∧ (curveSwapNow s).remote = s.remote ∧
    (curveSwapNow s).unit = s.unit ∧ (curveSwapNow s).resetHeld = s.resetHeld ∧ (curveSwapNow s).now = s.now
    ∧ (curveSwapNow s).pending = s.pending := by
  unfold curveSwapNow
  dsimp only
  repeat' split
  all_goals simp

@[simp] theorem takeUpSettings_frame (s : State) :
    (takeUpSettings s).mem = s.mem ∧ (takeUpSettings s).port = s.port ∧ (takeUpSettings s).cx = s.cx ∧
    (takeUpSettings s).tray = s.tray ∧ (takeUpSettings s).shadow = s.shadow ∧ (takeUpSettings s).cue = s.cue
    ∧ (takeUpSettings s).log = s.log ∧ (takeUpSettings s).deck = s.deck ∧ (takeUpSettings s).remote =
    s.remote ∧ (takeUpSettings s).unit = s.unit ∧ (takeUpSettings s).resetHeld = s.resetHeld ∧
    (takeUpSettings s).now = s.now ∧ (takeUpSettings s).pending = s.pending := by
  unfold takeUpSettings
  repeat' split
  all_goals simp

@[simp] theorem curveWord_frame (w : Word) (s : State) :
    (curveWord w s).mem = s.mem ∧ (curveWord w s).port = s.port ∧ (curveWord w s).hdr = s.hdr ∧ (curveWord w
    s).cx = s.cx ∧ (curveWord w s).tray = s.tray ∧ (curveWord w s).shadow = s.shadow ∧ (curveWord w
    s).thermal = s.thermal ∧ (curveWord w s).cue = s.cue ∧ (curveWord w s).log = s.log ∧ (curveWord w
    s).deck = s.deck ∧ (curveWord w s).clip = s.clip ∧ (curveWord w s).remote = s.remote ∧ (curveWord w
    s).unit = s.unit ∧ (curveWord w s).resetHeld = s.resetHeld ∧ (curveWord w s).now = s.now ∧ (curveWord w
    s).pending = s.pending := by
  unfold curveWord
  dsimp only
  repeat' split
  all_goals simp

@[simp] theorem compareCurve_frame (c : CurveSel) (start : Nat) (len : Nat) (s : State) :
    (compareCurve c start len s).mem = s.mem ∧ (compareCurve c start len s).hdr = s.hdr ∧ (compareCurve c
    start len s).cx = s.cx ∧ (compareCurve c start len s).tray = s.tray ∧ (compareCurve c start len
    s).shadow = s.shadow ∧ (compareCurve c start len s).thermal = s.thermal ∧ (compareCurve c start len
    s).cue = s.cue ∧ (compareCurve c start len s).log = s.log ∧ (compareCurve c start len s).deck = s.deck ∧
    (compareCurve c start len s).clip = s.clip ∧ (compareCurve c start len s).remote = s.remote ∧
    (compareCurve c start len s).unit = s.unit ∧ (compareCurve c start len s).resetHeld = s.resetHeld ∧
    (compareCurve c start len s).now = s.now ∧ (compareCurve c start len s).pending = s.pending := by
  unfold compareCurve
  repeat' split
  all_goals simp

@[simp] theorem curveCompare_frame (start : Nat) (len : Nat) (s : State) :
    (curveCompare start len s).mem = s.mem ∧ (curveCompare start len s).hdr = s.hdr ∧ (curveCompare start
    len s).cx = s.cx ∧ (curveCompare start len s).tray = s.tray ∧ (curveCompare start len s).shadow =
    s.shadow ∧ (curveCompare start len s).thermal = s.thermal ∧ (curveCompare start len s).cue = s.cue ∧
    (curveCompare start len s).log = s.log ∧ (curveCompare start len s).deck = s.deck ∧ (curveCompare start
    len s).clip = s.clip ∧ (curveCompare start len s).remote = s.remote ∧ (curveCompare start len s).unit =
    s.unit ∧ (curveCompare start len s).resetHeld = s.resetHeld ∧ (curveCompare start len s).now = s.now ∧
    (curveCompare start len s).pending = s.pending := by
  unfold curveCompare
  repeat' split
  all_goals simp

@[simp] theorem curveBaseChanged_frame (s : State) :
    (curveBaseChanged s).mem = s.mem ∧ (curveBaseChanged s).hdr = s.hdr ∧ (curveBaseChanged s).cx = s.cx ∧
    (curveBaseChanged s).tray = s.tray ∧ (curveBaseChanged s).shadow = s.shadow ∧ (curveBaseChanged
    s).thermal = s.thermal ∧ (curveBaseChanged s).cue = s.cue ∧ (curveBaseChanged s).log = s.log ∧
    (curveBaseChanged s).deck = s.deck ∧ (curveBaseChanged s).clip = s.clip ∧ (curveBaseChanged s).remote =
    s.remote ∧ (curveBaseChanged s).unit = s.unit ∧ (curveBaseChanged s).resetHeld = s.resetHeld ∧
    (curveBaseChanged s).now = s.now ∧ (curveBaseChanged s).pending = s.pending := by
  unfold curveBaseChanged
  dsimp only
  repeat' split
  all_goals simp

@[simp] theorem computeLight_frame (crossing : Bool) (s : State) :
    (computeLight crossing s).mem = s.mem ∧ (computeLight crossing s).port = s.port ∧ (computeLight crossing
    s).hdr = s.hdr ∧ (computeLight crossing s).cx = s.cx ∧ (computeLight crossing s).tray = s.tray ∧
    (computeLight crossing s).shadow = s.shadow ∧ (computeLight crossing s).thermal = s.thermal ∧
    (computeLight crossing s).cue = s.cue ∧ (computeLight crossing s).log = s.log ∧ (computeLight crossing
    s).deck = s.deck ∧ (computeLight crossing s).clip = s.clip ∧ (computeLight crossing s).remote = s.remote
    ∧ (computeLight crossing s).unit = s.unit ∧ (computeLight crossing s).resetHeld = s.resetHeld ∧
    (computeLight crossing s).now = s.now ∧ (computeLight crossing s).pending = s.pending := by
  unfold computeLight
  dsimp only
  repeat' split
  all_goals simp

@[simp] theorem judgeUnlit_frame (s : State) :
    (judgeUnlit s).mem = s.mem ∧ (judgeUnlit s).port = s.port ∧ (judgeUnlit s).hdr = s.hdr ∧ (judgeUnlit
    s).cx = s.cx ∧ (judgeUnlit s).tray = s.tray ∧ (judgeUnlit s).shadow = s.shadow ∧ (judgeUnlit s).cue =
    s.cue ∧ (judgeUnlit s).log = s.log ∧ (judgeUnlit s).deck = s.deck ∧ (judgeUnlit s).clip = s.clip ∧
    (judgeUnlit s).remote = s.remote ∧ (judgeUnlit s).unit = s.unit ∧ (judgeUnlit s).resetHeld = s.resetHeld
    ∧ (judgeUnlit s).now = s.now ∧ (judgeUnlit s).pending = s.pending := by
  unfold judgeUnlit
  dsimp only
  repeat' split
  all_goals simp

@[simp] theorem warmedUp_frame (s : State) :
    (warmedUp s).mem = s.mem ∧ (warmedUp s).port = s.port ∧ (warmedUp s).hdr = s.hdr ∧ (warmedUp s).cx =
    s.cx ∧ (warmedUp s).tray = s.tray ∧ (warmedUp s).shadow = s.shadow ∧ (warmedUp s).cue = s.cue ∧
    (warmedUp s).log = s.log ∧ (warmedUp s).deck = s.deck ∧ (warmedUp s).clip = s.clip ∧ (warmedUp s).remote
    = s.remote ∧ (warmedUp s).unit = s.unit ∧ (warmedUp s).resetHeld = s.resetHeld ∧ (warmedUp s).now =
    s.now ∧ (warmedUp s).pending = s.pending := by
  unfold warmedUp
  repeat' split
  all_goals simp

@[simp] theorem warmStep_frame (s : State) :
    (warmStep s).mem = s.mem ∧ (warmStep s).port = s.port ∧ (warmStep s).hdr = s.hdr ∧ (warmStep s).cx =
    s.cx ∧ (warmStep s).tray = s.tray ∧ (warmStep s).shadow = s.shadow ∧ (warmStep s).cue = s.cue ∧
    (warmStep s).log = s.log ∧ (warmStep s).deck = s.deck ∧ (warmStep s).clip = s.clip ∧ (warmStep s).remote
    = s.remote ∧ (warmStep s).unit = s.unit ∧ (warmStep s).resetHeld = s.resetHeld ∧ (warmStep s).now =
    s.now ∧ (warmStep s).pending = s.pending := by
  unfold warmStep
  repeat' split
  all_goals simp

@[simp] theorem sendDark_frame (s : State) :
    (sendDark s).mem = s.mem ∧ (sendDark s).port = s.port ∧ (sendDark s).hdr = s.hdr ∧ (sendDark s).cx =
    s.cx ∧ (sendDark s).tray = s.tray ∧ (sendDark s).shadow = s.shadow ∧ (sendDark s).thermal = s.thermal ∧
    (sendDark s).cue = s.cue ∧ (sendDark s).log = s.log ∧ (sendDark s).deck = s.deck ∧ (sendDark s).clip =
    s.clip ∧ (sendDark s).remote = s.remote ∧ (sendDark s).unit = s.unit ∧ (sendDark s).resetHeld =
    s.resetHeld ∧ (sendDark s).now = s.now ∧ (sendDark s).pending = s.pending := by
  unfold sendDark
  repeat' split
  all_goals simp

@[simp] theorem halfCycle_frame (crossing : Bool) (s : State) :
    (halfCycle crossing s).mem = s.mem ∧ (halfCycle crossing s).port = s.port ∧ (halfCycle crossing s).cx =
    s.cx ∧ (halfCycle crossing s).tray = s.tray ∧ (halfCycle crossing s).shadow = s.shadow ∧ (halfCycle
    crossing s).cue = s.cue ∧ (halfCycle crossing s).log = s.log ∧ (halfCycle crossing s).deck = s.deck ∧
    (halfCycle crossing s).remote = s.remote ∧ (halfCycle crossing s).unit = s.unit ∧ (halfCycle crossing
    s).resetHeld = s.resetHeld ∧ (halfCycle crossing s).now = s.now ∧ (halfCycle crossing s).pending =
    s.pending := by
  unfold halfCycle
  simp

@[simp] theorem crossing_frame (s : State) :
    (crossing s).mem = s.mem ∧ (crossing s).port = s.port ∧ (crossing s).cx = s.cx ∧ (crossing s).tray =
    s.tray ∧ (crossing s).shadow = s.shadow ∧ (crossing s).cue = s.cue ∧ (crossing s).log = s.log ∧
    (crossing s).deck = s.deck ∧ (crossing s).remote = s.remote ∧ (crossing s).unit = s.unit ∧ (crossing
    s).resetHeld = s.resetHeld ∧ (crossing s).now = s.now ∧ (crossing s).pending = s.pending := by
  unfold crossing
  dsimp only
  repeat' split
  all_goals simp

@[simp] theorem loseMains_frame (s : State) :
    (loseMains s).mem = s.mem ∧ (loseMains s).port = s.port ∧ (loseMains s).cx = s.cx ∧ (loseMains s).tray =
    s.tray ∧ (loseMains s).shadow = s.shadow ∧ (loseMains s).cue = s.cue ∧ (loseMains s).log = s.log ∧
    (loseMains s).deck = s.deck ∧ (loseMains s).remote = s.remote ∧ (loseMains s).unit = s.unit ∧ (loseMains
    s).resetHeld = s.resetHeld ∧ (loseMains s).now = s.now ∧ (loseMains s).pending = s.pending := by
  unfold loseMains
  repeat' split
  all_goals simp

@[simp] theorem substitute_frame (s : State) :
    (substitute s).mem = s.mem ∧ (substitute s).port = s.port ∧ (substitute s).cx = s.cx ∧ (substitute
    s).tray = s.tray ∧ (substitute s).shadow = s.shadow ∧ (substitute s).cue = s.cue ∧ (substitute s).log =
    s.log ∧ (substitute s).deck = s.deck ∧ (substitute s).remote = s.remote ∧ (substitute s).unit = s.unit ∧
    (substitute s).resetHeld = s.resetHeld ∧ (substitute s).now = s.now ∧ (substitute s).pending = s.pending := by
  unfold substitute
  repeat' split
  all_goals simp

@[simp] theorem fireLamp_frame (s : State) :
    (fireLamp s).mem = s.mem ∧ (fireLamp s).port = s.port ∧ (fireLamp s).hdr = s.hdr ∧ (fireLamp s).cx =
    s.cx ∧ (fireLamp s).tray = s.tray ∧ (fireLamp s).shadow = s.shadow ∧ (fireLamp s).thermal = s.thermal ∧
    (fireLamp s).cue = s.cue ∧ (fireLamp s).log = s.log ∧ (fireLamp s).deck = s.deck ∧ (fireLamp s).clip =
    s.clip ∧ (fireLamp s).remote = s.remote ∧ (fireLamp s).unit = s.unit ∧ (fireLamp s).resetHeld =
    s.resetHeld ∧ (fireLamp s).now = s.now ∧ (fireLamp s).pending = s.pending := by
  unfold fireLamp
  repeat' split
  all_goals simp

@[simp] theorem lampCurrentSeen_frame (s : State) :
    (lampCurrentSeen s).mem = s.mem ∧ (lampCurrentSeen s).port = s.port ∧ (lampCurrentSeen s).hdr = s.hdr ∧
    (lampCurrentSeen s).cx = s.cx ∧ (lampCurrentSeen s).tray = s.tray ∧ (lampCurrentSeen s).shadow =
    s.shadow ∧ (lampCurrentSeen s).thermal = s.thermal ∧ (lampCurrentSeen s).cue = s.cue ∧ (lampCurrentSeen
    s).log = s.log ∧ (lampCurrentSeen s).deck = s.deck ∧ (lampCurrentSeen s).clip = s.clip ∧
    (lampCurrentSeen s).remote = s.remote ∧ (lampCurrentSeen s).unit = s.unit ∧ (lampCurrentSeen
    s).resetHeld = s.resetHeld ∧ (lampCurrentSeen s).now = s.now ∧ (lampCurrentSeen s).pending = s.pending := by
  unfold lampCurrentSeen
  repeat' split
  all_goals simp

@[simp] theorem checkLife_frame (s : State) :
    (checkLife s).mem = s.mem ∧ (checkLife s).port = s.port ∧ (checkLife s).hdr = s.hdr ∧ (checkLife s).cx =
    s.cx ∧ (checkLife s).tray = s.tray ∧ (checkLife s).shadow = s.shadow ∧ (checkLife s).thermal = s.thermal
    ∧ (checkLife s).cue = s.cue ∧ (checkLife s).log = s.log ∧ (checkLife s).deck = s.deck ∧ (checkLife
    s).clip = s.clip ∧ (checkLife s).remote = s.remote ∧ (checkLife s).unit = s.unit ∧ (checkLife
    s).resetHeld = s.resetHeld ∧ (checkLife s).now = s.now ∧ (checkLife s).pending = s.pending := by
  unfold checkLife
  repeat' split
  all_goals simp

@[simp] theorem reviewLife_frame (s : State) :
    (reviewLife s).mem = s.mem ∧ (reviewLife s).port = s.port ∧ (reviewLife s).hdr = s.hdr ∧ (reviewLife
    s).cx = s.cx ∧ (reviewLife s).tray = s.tray ∧ (reviewLife s).shadow = s.shadow ∧ (reviewLife s).thermal
    = s.thermal ∧ (reviewLife s).cue = s.cue ∧ (reviewLife s).log = s.log ∧ (reviewLife s).deck = s.deck ∧
    (reviewLife s).clip = s.clip ∧ (reviewLife s).remote = s.remote ∧ (reviewLife s).unit = s.unit ∧
    (reviewLife s).resetHeld = s.resetHeld ∧ (reviewLife s).now = s.now ∧ (reviewLife s).pending = s.pending := by
  unfold reviewLife
  repeat' split
  all_goals simp

@[simp] theorem minuteTick_frame (s : State) :
    (minuteTick s).mem = s.mem ∧ (minuteTick s).port = s.port ∧ (minuteTick s).hdr = s.hdr ∧ (minuteTick
    s).cx = s.cx ∧ (minuteTick s).tray = s.tray ∧ (minuteTick s).shadow = s.shadow ∧ (minuteTick s).thermal
    = s.thermal ∧ (minuteTick s).cue = s.cue ∧ (minuteTick s).log = s.log ∧ (minuteTick s).deck = s.deck ∧
    (minuteTick s).clip = s.clip ∧ (minuteTick s).remote = s.remote ∧ (minuteTick s).unit = s.unit ∧
    (minuteTick s).resetHeld = s.resetHeld ∧ (minuteTick s).now = s.now ∧ (minuteTick s).pending = s.pending := by
  unfold minuteTick
  repeat' split
  all_goals simp

@[simp] theorem setLampMinutes_frame (p1 : Word) (p2 : Word) (s : State) :
    (setLampMinutes p1 p2 s).mem = s.mem ∧ (setLampMinutes p1 p2 s).port = s.port ∧ (setLampMinutes p1 p2
    s).hdr = s.hdr ∧ (setLampMinutes p1 p2 s).cx = s.cx ∧ (setLampMinutes p1 p2 s).tray = s.tray ∧
    (setLampMinutes p1 p2 s).shadow = s.shadow ∧ (setLampMinutes p1 p2 s).thermal = s.thermal ∧
    (setLampMinutes p1 p2 s).cue = s.cue ∧ (setLampMinutes p1 p2 s).log = s.log ∧ (setLampMinutes p1 p2
    s).deck = s.deck ∧ (setLampMinutes p1 p2 s).clip = s.clip ∧ (setLampMinutes p1 p2 s).remote = s.remote ∧
    (setLampMinutes p1 p2 s).unit = s.unit ∧ (setLampMinutes p1 p2 s).resetHeld = s.resetHeld ∧
    (setLampMinutes p1 p2 s).now = s.now ∧ (setLampMinutes p1 p2 s).pending = s.pending := by
  unfold setLampMinutes
  dsimp only
  repeat' split
  all_goals simp

/-! ## Cooling -/

@[simp] theorem coolingFault_frame (s : State) :
    (coolingFault s).mem = s.mem ∧ (coolingFault s).port = s.port ∧ (coolingFault s).hdr = s.hdr ∧
    (coolingFault s).cx = s.cx ∧ (coolingFault s).tray = s.tray ∧ (coolingFault s).shadow = s.shadow ∧
    (coolingFault s).cue = s.cue ∧ (coolingFault s).log = s.log ∧ (coolingFault s).deck = s.deck ∧
    (coolingFault s).clip = s.clip ∧ (coolingFault s).remote = s.remote ∧ (coolingFault s).unit = s.unit ∧
    (coolingFault s).resetHeld = s.resetHeld ∧ (coolingFault s).now = s.now ∧ (coolingFault s).pending =
    s.pending := by
  unfold coolingFault
  simp

@[simp] theorem startReadCycle_frame (s : State) :
    (startReadCycle s).mem = s.mem ∧ (startReadCycle s).port = s.port ∧ (startReadCycle s).hdr = s.hdr ∧
    (startReadCycle s).cx = s.cx ∧ (startReadCycle s).tray = s.tray ∧ (startReadCycle s).shadow = s.shadow ∧
    (startReadCycle s).lamp = s.lamp ∧ (startReadCycle s).cue = s.cue ∧ (startReadCycle s).log = s.log ∧
    (startReadCycle s).deck = s.deck ∧ (startReadCycle s).clip = s.clip ∧ (startReadCycle s).remote =
    s.remote ∧ (startReadCycle s).unit = s.unit ∧ (startReadCycle s).resetHeld = s.resetHeld ∧
    (startReadCycle s).now = s.now ∧ (startReadCycle s).pending = s.pending := by
  unfold startReadCycle
  repeat' split
  all_goals simp

@[simp] theorem judgeOverTemp_frame (s : State) :
    (judgeOverTemp s).mem = s.mem ∧ (judgeOverTemp s).port = s.port ∧ (judgeOverTemp s).hdr = s.hdr ∧
    (judgeOverTemp s).cx = s.cx ∧ (judgeOverTemp s).tray = s.tray ∧ (judgeOverTemp s).shadow = s.shadow ∧
    (judgeOverTemp s).cue = s.cue ∧ (judgeOverTemp s).log = s.log ∧ (judgeOverTemp s).deck = s.deck ∧
    (judgeOverTemp s).clip = s.clip ∧ (judgeOverTemp s).remote = s.remote ∧ (judgeOverTemp s).unit = s.unit
    ∧ (judgeOverTemp s).resetHeld = s.resetHeld ∧ (judgeOverTemp s).now = s.now ∧ (judgeOverTemp s).pending
    = s.pending := by
  unfold judgeOverTemp
  repeat' split
  all_goals simp

@[simp] theorem hotRestart_frame (s : State) :
    (hotRestart s).mem = s.mem ∧ (hotRestart s).port = s.port ∧ (hotRestart s).hdr = s.hdr ∧ (hotRestart
    s).cx = s.cx ∧ (hotRestart s).tray = s.tray ∧ (hotRestart s).shadow = s.shadow ∧ (hotRestart s).lamp =
    s.lamp ∧ (hotRestart s).cue = s.cue ∧ (hotRestart s).log = s.log ∧ (hotRestart s).deck = s.deck ∧
    (hotRestart s).clip = s.clip ∧ (hotRestart s).remote = s.remote ∧ (hotRestart s).unit = s.unit ∧
    (hotRestart s).resetHeld = s.resetHeld ∧ (hotRestart s).now = s.now ∧ (hotRestart s).pending = s.pending := by
  unfold hotRestart
  dsimp only
  repeat' split
  all_goals simp

@[simp] theorem acceptTh_frame (v : Nat) (s : State) :
    (acceptTh v s).mem = s.mem ∧ (acceptTh v s).port = s.port ∧ (acceptTh v s).hdr = s.hdr ∧ (acceptTh v
    s).cx = s.cx ∧ (acceptTh v s).tray = s.tray ∧ (acceptTh v s).shadow = s.shadow ∧ (acceptTh v s).cue =
    s.cue ∧ (acceptTh v s).log = s.log ∧ (acceptTh v s).deck = s.deck ∧ (acceptTh v s).clip = s.clip ∧
    (acceptTh v s).remote = s.remote ∧ (acceptTh v s).unit = s.unit ∧ (acceptTh v s).resetHeld = s.resetHeld
    ∧ (acceptTh v s).now = s.now ∧ (acceptTh v s).pending = s.pending := by
  unfold acceptTh
  dsimp only
  simp

@[simp] theorem acceptTg_frame (v : Nat) (s : State) :
    (acceptTg v s).mem = s.mem ∧ (acceptTg v s).port = s.port ∧ (acceptTg v s).hdr = s.hdr ∧ (acceptTg v
    s).cx = s.cx ∧ (acceptTg v s).tray = s.tray ∧ (acceptTg v s).shadow = s.shadow ∧ (acceptTg v s).lamp =
    s.lamp ∧ (acceptTg v s).cue = s.cue ∧ (acceptTg v s).log = s.log ∧ (acceptTg v s).deck = s.deck ∧
    (acceptTg v s).clip = s.clip ∧ (acceptTg v s).remote = s.remote ∧ (acceptTg v s).unit = s.unit ∧
    (acceptTg v s).resetHeld = s.resetHeld ∧ (acceptTg v s).now = s.now ∧ (acceptTg v s).pending = s.pending := by
  unfold acceptTg
  simp

@[simp] theorem failTh_frame (s : State) :
    (failTh s).mem = s.mem ∧ (failTh s).port = s.port ∧ (failTh s).hdr = s.hdr ∧ (failTh s).cx = s.cx ∧
    (failTh s).tray = s.tray ∧ (failTh s).shadow = s.shadow ∧ (failTh s).cue = s.cue ∧ (failTh s).log =
    s.log ∧ (failTh s).deck = s.deck ∧ (failTh s).clip = s.clip ∧ (failTh s).remote = s.remote ∧ (failTh
    s).unit = s.unit ∧ (failTh s).resetHeld = s.resetHeld ∧ (failTh s).now = s.now ∧ (failTh s).pending =
    s.pending := by
  unfold failTh
  dsimp only
  repeat' split
  all_goals simp

@[simp] theorem failTg_frame (s : State) :
    (failTg s).mem = s.mem ∧ (failTg s).port = s.port ∧ (failTg s).hdr = s.hdr ∧ (failTg s).cx = s.cx ∧
    (failTg s).tray = s.tray ∧ (failTg s).shadow = s.shadow ∧ (failTg s).cue = s.cue ∧ (failTg s).log =
    s.log ∧ (failTg s).deck = s.deck ∧ (failTg s).clip = s.clip ∧ (failTg s).remote = s.remote ∧ (failTg
    s).unit = s.unit ∧ (failTg s).resetHeld = s.resetHeld ∧ (failTg s).now = s.now ∧ (failTg s).pending =
    s.pending := by
  unfold failTg
  dsimp only
  repeat' split
  all_goals simp

@[simp] theorem sensorDone_frame (sensor : Sensor) (read : SensorRead) (s : State) :
    (sensorDone sensor read s).mem = s.mem ∧ (sensorDone sensor read s).port = s.port ∧ (sensorDone sensor
    read s).hdr = s.hdr ∧ (sensorDone sensor read s).cx = s.cx ∧ (sensorDone sensor read s).tray = s.tray ∧
    (sensorDone sensor read s).shadow = s.shadow ∧ (sensorDone sensor read s).cue = s.cue ∧ (sensorDone
    sensor read s).log = s.log ∧ (sensorDone sensor read s).deck = s.deck ∧ (sensorDone sensor read s).clip
    = s.clip ∧ (sensorDone sensor read s).remote = s.remote ∧ (sensorDone sensor read s).unit = s.unit ∧
    (sensorDone sensor read s).resetHeld = s.resetHeld ∧ (sensorDone sensor read s).now = s.now ∧
    (sensorDone sensor read s).pending = s.pending := by
  unfold sensorDone
  repeat' split
  all_goals simp

@[simp] theorem tachPulse_frame (s : State) :
    (tachPulse s).mem = s.mem ∧ (tachPulse s).port = s.port ∧ (tachPulse s).hdr = s.hdr ∧ (tachPulse s).cx =
    s.cx ∧ (tachPulse s).tray = s.tray ∧ (tachPulse s).shadow = s.shadow ∧ (tachPulse s).lamp = s.lamp ∧
    (tachPulse s).cue = s.cue ∧ (tachPulse s).log = s.log ∧ (tachPulse s).deck = s.deck ∧ (tachPulse s).clip
    = s.clip ∧ (tachPulse s).remote = s.remote ∧ (tachPulse s).unit = s.unit ∧ (tachPulse s).resetHeld =
    s.resetHeld ∧ (tachPulse s).now = s.now ∧ (tachPulse s).pending = s.pending := by
  unfold tachPulse
  repeat' split
  all_goals simp

@[simp] theorem tachExpiry_frame (s : State) :
    (tachExpiry s).mem = s.mem ∧ (tachExpiry s).port = s.port ∧ (tachExpiry s).hdr = s.hdr ∧ (tachExpiry
    s).cx = s.cx ∧ (tachExpiry s).tray = s.tray ∧ (tachExpiry s).shadow = s.shadow ∧ (tachExpiry s).cue =
    s.cue ∧ (tachExpiry s).log = s.log ∧ (tachExpiry s).deck = s.deck ∧ (tachExpiry s).clip = s.clip ∧
    (tachExpiry s).remote = s.remote ∧ (tachExpiry s).unit = s.unit ∧ (tachExpiry s).resetHeld = s.resetHeld
    ∧ (tachExpiry s).now = s.now ∧ (tachExpiry s).pending = s.pending := by
  unfold tachExpiry
  dsimp only
  repeat' split
  all_goals simp

@[simp] theorem dwellReached_frame (s : State) :
    (dwellReached s).mem = s.mem ∧ (dwellReached s).port = s.port ∧ (dwellReached s).hdr = s.hdr ∧
    (dwellReached s).cx = s.cx ∧ (dwellReached s).tray = s.tray ∧ (dwellReached s).shadow = s.shadow ∧
    (dwellReached s).lamp = s.lamp ∧ (dwellReached s).cue = s.cue ∧ (dwellReached s).log = s.log ∧
    (dwellReached s).deck = s.deck ∧ (dwellReached s).clip = s.clip ∧ (dwellReached s).remote = s.remote ∧
    (dwellReached s).unit = s.unit ∧ (dwellReached s).resetHeld = s.resetHeld ∧ (dwellReached s).now = s.now
    ∧ (dwellReached s).pending = s.pending := by
  unfold dwellReached
  repeat' split
  all_goals simp

/-! ## Transport -/

@[simp] theorem sendCompletion_frame (o : TrayOutcome) (remaining : Nat) (lastSlot : Nat) (s : State) :
    (sendCompletion o remaining lastSlot s).mem = s.mem ∧ (sendCompletion o remaining lastSlot s).port =
    s.port ∧ (sendCompletion o remaining lastSlot s).hdr = s.hdr ∧ (sendCompletion o remaining lastSlot
    s).cx = s.cx ∧ (sendCompletion o remaining lastSlot s).shadow = s.shadow ∧ (sendCompletion o remaining
    lastSlot s).lamp = s.lamp ∧ (sendCompletion o remaining lastSlot s).thermal = s.thermal ∧
    (sendCompletion o remaining lastSlot s).cue = s.cue ∧ (sendCompletion o remaining lastSlot s).log =
    s.log ∧ (sendCompletion o remaining lastSlot s).deck = s.deck ∧ (sendCompletion o remaining lastSlot
    s).clip = s.clip ∧ (sendCompletion o remaining lastSlot s).remote = s.remote ∧ (sendCompletion o
    remaining lastSlot s).unit = s.unit ∧ (sendCompletion o remaining lastSlot s).resetHeld = s.resetHeld ∧
    (sendCompletion o remaining lastSlot s).now = s.now ∧ (sendCompletion o remaining lastSlot s).pending =
    s.pending := by
  unfold sendCompletion
  simp

@[simp] theorem answerAtOnce_frame (o : TrayOutcome) (kind : TrayKind) (s : State) :
    (answerAtOnce o kind s).mem = s.mem ∧ (answerAtOnce o kind s).port = s.port ∧ (answerAtOnce o kind
    s).hdr = s.hdr ∧ (answerAtOnce o kind s).cx = s.cx ∧ (answerAtOnce o kind s).shadow = s.shadow ∧
    (answerAtOnce o kind s).lamp = s.lamp ∧ (answerAtOnce o kind s).thermal = s.thermal ∧ (answerAtOnce o
    kind s).cue = s.cue ∧ (answerAtOnce o kind s).log = s.log ∧ (answerAtOnce o kind s).deck = s.deck ∧
    (answerAtOnce o kind s).clip = s.clip ∧ (answerAtOnce o kind s).remote = s.remote ∧ (answerAtOnce o kind
    s).unit = s.unit ∧ (answerAtOnce o kind s).resetHeld = s.resetHeld ∧ (answerAtOnce o kind s).now = s.now
    ∧ (answerAtOnce o kind s).pending = s.pending := by
  unfold answerAtOnce
  simp

@[simp] theorem endRequest_frame (o : TrayOutcome) (s : State) :
    (endRequest o s).mem = s.mem ∧ (endRequest o s).port = s.port ∧ (endRequest o s).hdr = s.hdr ∧
    (endRequest o s).cx = s.cx ∧ (endRequest o s).shadow = s.shadow ∧ (endRequest o s).lamp = s.lamp ∧
    (endRequest o s).thermal = s.thermal ∧ (endRequest o s).cue = s.cue ∧ (endRequest o s).log = s.log ∧
    (endRequest o s).deck = s.deck ∧ (endRequest o s).clip = s.clip ∧ (endRequest o s).remote = s.remote ∧
    (endRequest o s).unit = s.unit ∧ (endRequest o s).resetHeld = s.resetHeld ∧ (endRequest o s).now = s.now
    ∧ (endRequest o s).pending = s.pending := by
  unfold endRequest
  dsimp only
  repeat' split
  all_goals simp

@[simp] theorem releaseDest_frame (s : State) :
    (releaseDest s).mem = s.mem ∧ (releaseDest s).port = s.port ∧ (releaseDest s).hdr = s.hdr ∧ (releaseDest
    s).cx = s.cx ∧ (releaseDest s).lamp = s.lamp ∧ (releaseDest s).thermal = s.thermal ∧ (releaseDest s).cue
    = s.cue ∧ (releaseDest s).log = s.log ∧ (releaseDest s).deck = s.deck ∧ (releaseDest s).clip = s.clip ∧
    (releaseDest s).remote = s.remote ∧ (releaseDest s).unit = s.unit ∧ (releaseDest s).resetHeld =
    s.resetHeld ∧ (releaseDest s).now = s.now ∧ (releaseDest s).pending = s.pending := by
  unfold releaseDest
  repeat' split
  all_goals simp

@[simp] theorem releaseShown_frame (s : State) :
    (releaseShown s).mem = s.mem ∧ (releaseShown s).port = s.port ∧ (releaseShown s).hdr = s.hdr ∧
    (releaseShown s).cx = s.cx ∧ (releaseShown s).lamp = s.lamp ∧ (releaseShown s).thermal = s.thermal ∧
    (releaseShown s).cue = s.cue ∧ (releaseShown s).log = s.log ∧ (releaseShown s).deck = s.deck ∧
    (releaseShown s).clip = s.clip ∧ (releaseShown s).remote = s.remote ∧ (releaseShown s).unit = s.unit ∧
    (releaseShown s).resetHeld = s.resetHeld ∧ (releaseShown s).now = s.now ∧ (releaseShown s).pending =
    s.pending := by
  unfold releaseShown
  repeat' split
  all_goals simp

@[simp] theorem pinShown_frame (slot : Nat) (s : State) :
    (pinShown slot s).mem = s.mem ∧ (pinShown slot s).port = s.port ∧ (pinShown slot s).hdr = s.hdr ∧
    (pinShown slot s).cx = s.cx ∧ (pinShown slot s).lamp = s.lamp ∧ (pinShown slot s).thermal = s.thermal ∧
    (pinShown slot s).cue = s.cue ∧ (pinShown slot s).log = s.log ∧ (pinShown slot s).deck = s.deck ∧
    (pinShown slot s).clip = s.clip ∧ (pinShown slot s).remote = s.remote ∧ (pinShown slot s).unit = s.unit
    ∧ (pinShown slot s).resetHeld = s.resetHeld ∧ (pinShown slot s).now = s.now ∧ (pinShown slot s).pending
    = s.pending := by
  have h := lookup_frame .slot slot true s
  unfold pinShown
  split
  · rename_i e; simp only [e] at h; simp [h]
  · rename_i e; simp only [e] at h; simp [h]

@[simp] theorem seatPin_frame (s : State) :
    (seatPin s).mem = s.mem ∧ (seatPin s).port = s.port ∧ (seatPin s).hdr = s.hdr ∧ (seatPin s).cx = s.cx ∧
    (seatPin s).lamp = s.lamp ∧ (seatPin s).thermal = s.thermal ∧ (seatPin s).cue = s.cue ∧ (seatPin s).log
    = s.log ∧ (seatPin s).deck = s.deck ∧ (seatPin s).clip = s.clip ∧ (seatPin s).remote = s.remote ∧
    (seatPin s).unit = s.unit ∧ (seatPin s).resetHeld = s.resetHeld ∧ (seatPin s).now = s.now ∧ (seatPin
    s).pending = s.pending := by
  unfold seatPin
  dsimp only
  repeat' split
  all_goals simp

@[simp] theorem enterJam_frame (known : Bool) (s : State) :
    (enterJam known s).mem = s.mem ∧ (enterJam known s).port = s.port ∧ (enterJam known s).hdr = s.hdr ∧
    (enterJam known s).cx = s.cx ∧ (enterJam known s).lamp = s.lamp ∧ (enterJam known s).thermal = s.thermal
    ∧ (enterJam known s).cue = s.cue ∧ (enterJam known s).log = s.log ∧ (enterJam known s).deck = s.deck ∧
    (enterJam known s).clip = s.clip ∧ (enterJam known s).remote = s.remote ∧ (enterJam known s).unit =
    s.unit ∧ (enterJam known s).resetHeld = s.resetHeld ∧ (enterJam known s).now = s.now ∧ (enterJam known
    s).pending = s.pending := by
  unfold enterJam
  dsimp only
  simp

@[simp] theorem enterDrop_frame (s : State) :
    (enterDrop s).mem = s.mem ∧ (enterDrop s).port = s.port ∧ (enterDrop s).hdr = s.hdr ∧ (enterDrop s).cx =
    s.cx ∧ (enterDrop s).shadow = s.shadow ∧ (enterDrop s).lamp = s.lamp ∧ (enterDrop s).thermal = s.thermal
    ∧ (enterDrop s).cue = s.cue ∧ (enterDrop s).log = s.log ∧ (enterDrop s).deck = s.deck ∧ (enterDrop
    s).clip = s.clip ∧ (enterDrop s).remote = s.remote ∧ (enterDrop s).unit = s.unit ∧ (enterDrop
    s).resetHeld = s.resetHeld ∧ (enterDrop s).now = s.now ∧ (enterDrop s).pending = s.pending := by
  unfold enterDrop
  simp

@[simp] theorem liftReached_frame (s : State) :
    (liftReached s).mem = s.mem ∧ (liftReached s).port = s.port ∧ (liftReached s).hdr = s.hdr ∧ (liftReached
    s).cx = s.cx ∧ (liftReached s).shadow = s.shadow ∧ (liftReached s).lamp = s.lamp ∧ (liftReached
    s).thermal = s.thermal ∧ (liftReached s).cue = s.cue ∧ (liftReached s).log = s.log ∧ (liftReached
    s).deck = s.deck ∧ (liftReached s).clip = s.clip ∧ (liftReached s).remote = s.remote ∧ (liftReached
    s).unit = s.unit ∧ (liftReached s).resetHeld = s.resetHeld ∧ (liftReached s).now = s.now ∧ (liftReached
    s).pending = s.pending := by
  unfold liftReached
  dsimp only
  repeat' split
  all_goals simp

@[simp] theorem startLift_frame (s : State) :
    (startLift s).mem = s.mem ∧ (startLift s).port = s.port ∧ (startLift s).hdr = s.hdr ∧ (startLift s).cx =
    s.cx ∧ (startLift s).lamp = s.lamp ∧ (startLift s).thermal = s.thermal ∧ (startLift s).cue = s.cue ∧
    (startLift s).log = s.log ∧ (startLift s).deck = s.deck ∧ (startLift s).clip = s.clip ∧ (startLift
    s).remote = s.remote ∧ (startLift s).unit = s.unit ∧ (startLift s).resetHeld = s.resetHeld ∧ (startLift
    s).now = s.now ∧ (startLift s).pending = s.pending := by
  unfold startLift
  dsimp only
  repeat' split
  all_goals simp

@[simp] theorem destinationReady_frame (s : State) :
    (destinationReady s).mem = s.mem ∧ (destinationReady s).port = s.port ∧ (destinationReady s).hdr = s.hdr
    ∧ (destinationReady s).cx = s.cx ∧ (destinationReady s).lamp = s.lamp ∧ (destinationReady s).thermal =
    s.thermal ∧ (destinationReady s).cue = s.cue ∧ (destinationReady s).log = s.log ∧ (destinationReady
    s).deck = s.deck ∧ (destinationReady s).clip = s.clip ∧ (destinationReady s).remote = s.remote ∧
    (destinationReady s).unit = s.unit ∧ (destinationReady s).resetHeld = s.resetHeld ∧ (destinationReady
    s).now = s.now ∧ (destinationReady s).pending = s.pending := by
  unfold destinationReady
  dsimp only
  repeat' split
  all_goals simp

@[simp] theorem fixDestination_frame (p : Plan) (s : State) :
    (fixDestination p s).mem = s.mem ∧ (fixDestination p s).port = s.port ∧ (fixDestination p s).hdr = s.hdr
    ∧ (fixDestination p s).cx = s.cx ∧ (fixDestination p s).lamp = s.lamp ∧ (fixDestination p s).thermal =
    s.thermal ∧ (fixDestination p s).cue = s.cue ∧ (fixDestination p s).log = s.log ∧ (fixDestination p
    s).deck = s.deck ∧ (fixDestination p s).clip = s.clip ∧ (fixDestination p s).remote = s.remote ∧
    (fixDestination p s).unit = s.unit ∧ (fixDestination p s).resetHeld = s.resetHeld ∧ (fixDestination p
    s).now = s.now ∧ (fixDestination p s).pending = s.pending := by
  have h := lookup_frame .slot p.dest true (putTray (s.tray.setPlan p) s)
  unfold fixDestination
  dsimp only
  split
  all_goals (rename_i e; simp only [e] at h; simp [h])

@[simp] theorem replan_frame (p : Plan) (s : State) :
    (replan p s).mem = s.mem ∧ (replan p s).port = s.port ∧ (replan p s).hdr = s.hdr ∧ (replan p s).cx = s.cx ∧
    (replan p s).lamp = s.lamp ∧ (replan p s).thermal = s.thermal ∧ (replan p s).cue = s.cue ∧ (replan p s).log =
    s.log ∧ (replan p s).deck = s.deck ∧ (replan p s).clip = s.clip ∧ (replan p s).remote = s.remote ∧ (replan p
    s).unit = s.unit ∧ (replan p s).resetHeld = s.resetHeld ∧ (replan p s).now = s.now ∧ (replan p s).pending =
    s.pending := by
  unfold replan
  split
  all_goals simp

@[simp] theorem searchDone_frame (dir : Dir) (dest : Nat) (found : List Nat) (find : Nat) (s : State) :
    (searchDone dir dest found find s).mem = s.mem ∧ (searchDone dir dest found find s).port = s.port ∧
    (searchDone dir dest found find s).hdr = s.hdr ∧ (searchDone dir dest found find s).cx = s.cx ∧
    (searchDone dir dest found find s).lamp = s.lamp ∧ (searchDone dir dest found find s).thermal =
    s.thermal ∧ (searchDone dir dest found find s).cue = s.cue ∧ (searchDone dir dest found find s).log =
    s.log ∧ (searchDone dir dest found find s).deck = s.deck ∧ (searchDone dir dest found find s).clip =
    s.clip ∧ (searchDone dir dest found find s).remote = s.remote ∧ (searchDone dir dest found find s).unit
    = s.unit ∧ (searchDone dir dest found find s).resetHeld = s.resetHeld ∧ (searchDone dir dest found find
    s).now = s.now ∧ (searchDone dir dest found find s).pending = s.pending := by
  unfold searchDone
  dsimp only
  repeat' split
  all_goals simp

theorem searchLook_frame (se : Search) (skip : Bool) (s : State) :
    (searchLook se skip s).1.mem = s.mem ∧ (searchLook se skip s).1.port = s.port ∧ (searchLook se skip
    s).1.hdr = s.hdr ∧ (searchLook se skip s).1.cx = s.cx ∧ (searchLook se skip s).1.lamp = s.lamp ∧
    (searchLook se skip s).1.thermal = s.thermal ∧ (searchLook se skip s).1.cue = s.cue ∧ (searchLook se
    skip s).1.log = s.log ∧ (searchLook se skip s).1.deck = s.deck ∧ (searchLook se skip s).1.clip = s.clip
    ∧ (searchLook se skip s).1.remote = s.remote ∧ (searchLook se skip s).1.unit = s.unit ∧ (searchLook se
    skip s).1.resetHeld = s.resetHeld ∧ (searchLook se skip s).1.now = s.now ∧ (searchLook se skip
    s).1.pending = s.pending := by
  unfold searchLook
  dsimp only
  repeat' split
  all_goals simp

@[simp] theorem searchRun_frame (k : Nat) (se : Search) (s : State) :
    (searchRun k se s).mem = s.mem ∧ (searchRun k se s).port = s.port ∧ (searchRun k se s).hdr = s.hdr ∧
    (searchRun k se s).cx = s.cx ∧ (searchRun k se s).lamp = s.lamp ∧ (searchRun k se s).thermal = s.thermal
    ∧ (searchRun k se s).cue = s.cue ∧ (searchRun k se s).log = s.log ∧ (searchRun k se s).deck = s.deck ∧
    (searchRun k se s).clip = s.clip ∧ (searchRun k se s).remote = s.remote ∧ (searchRun k se s).unit =
    s.unit ∧ (searchRun k se s).resetHeld = s.resetHeld ∧ (searchRun k se s).now = s.now ∧ (searchRun k se
    s).pending = s.pending := by
  induction k generalizing se s with
  | zero => simp [searchRun]
  | succ k ih =>
    have h := lookup_frame .slot se.pos false s
    unfold searchRun
    split
    · rename_i e; simp only [e] at h; simp [h]
    · rename_i t c e
      simp only [e] at h
      have h2 := searchLook_frame se (slotSkip c) t
      split
      · rename_i e2; simp only [e2] at h2; simp [ih, h2, h]
      · rename_i e2; simp only [e2] at h2; simp [h2, h]
    · rename_i t e
      simp only [e] at h
      have h2 := searchLook_frame se false t
      split
      · rename_i e2; simp only [e2] at h2; simp [ih, h2, h]
      · rename_i e2; simp only [e2] at h2; simp [h2, h]

@[simp] theorem startSearch_frame (find : Nat) (s : State) :
    (startSearch find s).mem = s.mem ∧ (startSearch find s).port = s.port ∧ (startSearch find s).hdr = s.hdr
    ∧ (startSearch find s).cx = s.cx ∧ (startSearch find s).lamp = s.lamp ∧ (startSearch find s).thermal =
    s.thermal ∧ (startSearch find s).cue = s.cue ∧ (startSearch find s).log = s.log ∧ (startSearch find
    s).deck = s.deck ∧ (startSearch find s).clip = s.clip ∧ (startSearch find s).remote = s.remote ∧
    (startSearch find s).unit = s.unit ∧ (startSearch find s).resetHeld = s.resetHeld ∧ (startSearch find
    s).now = s.now ∧ (startSearch find s).pending = s.pending := by
  unfold startSearch
  split
  · dsimp only
    split
    · exact searchDone_frame _ _ _ _ s
    · exact searchRun_frame _ _ s
  · simp

@[simp] theorem planSearch_frame (k : Nat) (s : State) :
    (planSearch k s).mem = s.mem ∧ (planSearch k s).port = s.port ∧ (planSearch k s).hdr = s.hdr ∧
    (planSearch k s).cx = s.cx ∧ (planSearch k s).lamp = s.lamp ∧ (planSearch k s).thermal = s.thermal ∧
    (planSearch k s).cue = s.cue ∧ (planSearch k s).log = s.log ∧ (planSearch k s).deck = s.deck ∧
    (planSearch k s).clip = s.clip ∧ (planSearch k s).remote = s.remote ∧ (planSearch k s).unit = s.unit ∧
    (planSearch k s).resetHeld = s.resetHeld ∧ (planSearch k s).now = s.now ∧ (planSearch k s).pending =
    s.pending := by
  unfold planSearch
  repeat' split
  all_goals simp

@[simp] theorem planRequest_frame (s : State) :
    (planRequest s).mem = s.mem ∧ (planRequest s).port = s.port ∧ (planRequest s).hdr = s.hdr ∧ (planRequest
    s).cx = s.cx ∧ (planRequest s).lamp = s.lamp ∧ (planRequest s).thermal = s.thermal ∧ (planRequest s).cue
    = s.cue ∧ (planRequest s).log = s.log ∧ (planRequest s).deck = s.deck ∧ (planRequest s).clip = s.clip ∧
    (planRequest s).remote = s.remote ∧ (planRequest s).unit = s.unit ∧ (planRequest s).resetHeld =
    s.resetHeld ∧ (planRequest s).now = s.now ∧ (planRequest s).pending = s.pending := by
  unfold planRequest
  dsimp only
  repeat' split
  all_goals simp

@[simp] theorem homingRotate_frame (s : State) :
    (homingRotate s).mem = s.mem ∧ (homingRotate s).port = s.port ∧ (homingRotate s).hdr = s.hdr ∧
    (homingRotate s).cx = s.cx ∧ (homingRotate s).shadow = s.shadow ∧ (homingRotate s).lamp = s.lamp ∧
    (homingRotate s).thermal = s.thermal ∧ (homingRotate s).cue = s.cue ∧ (homingRotate s).log = s.log ∧
    (homingRotate s).deck = s.deck ∧ (homingRotate s).clip = s.clip ∧ (homingRotate s).remote = s.remote ∧
    (homingRotate s).unit = s.unit ∧ (homingRotate s).resetHeld = s.resetHeld ∧ (homingRotate s).now = s.now
    ∧ (homingRotate s).pending = s.pending := by
  unfold homingRotate
  simp

@[simp] theorem homingUp_frame (s : State) :
    (homingUp s).mem = s.mem ∧ (homingUp s).port = s.port ∧ (homingUp s).hdr = s.hdr ∧ (homingUp s).cx =
    s.cx ∧ (homingUp s).shadow = s.shadow ∧ (homingUp s).lamp = s.lamp ∧ (homingUp s).thermal = s.thermal ∧
    (homingUp s).cue = s.cue ∧ (homingUp s).log = s.log ∧ (homingUp s).deck = s.deck ∧ (homingUp s).clip =
    s.clip ∧ (homingUp s).remote = s.remote ∧ (homingUp s).unit = s.unit ∧ (homingUp s).resetHeld =
    s.resetHeld ∧ (homingUp s).now = s.now ∧ (homingUp s).pending = s.pending := by
  unfold homingUp
  dsimp only
  repeat' split
  all_goals simp

@[simp] theorem homingLift_frame (s : State) :
    (homingLift s).mem = s.mem ∧ (homingLift s).port = s.port ∧ (homingLift s).hdr = s.hdr ∧ (homingLift
    s).cx = s.cx ∧ (homingLift s).lamp = s.lamp ∧ (homingLift s).thermal = s.thermal ∧ (homingLift s).cue =
    s.cue ∧ (homingLift s).log = s.log ∧ (homingLift s).deck = s.deck ∧ (homingLift s).clip = s.clip ∧
    (homingLift s).remote = s.remote ∧ (homingLift s).unit = s.unit ∧ (homingLift s).resetHeld = s.resetHeld
    ∧ (homingLift s).now = s.now ∧ (homingLift s).pending = s.pending := by
  unfold homingLift
  dsimp only
  simp

@[simp] theorem startHoming_frame (s : State) :
    (startHoming s).mem = s.mem ∧ (startHoming s).port = s.port ∧ (startHoming s).hdr = s.hdr ∧ (startHoming
    s).cx = s.cx ∧ (startHoming s).lamp = s.lamp ∧ (startHoming s).thermal = s.thermal ∧ (startHoming s).cue
    = s.cue ∧ (startHoming s).log = s.log ∧ (startHoming s).deck = s.deck ∧ (startHoming s).clip = s.clip ∧
    (startHoming s).remote = s.remote ∧ (startHoming s).unit = s.unit ∧ (startHoming s).resetHeld =
    s.resetHeld ∧ (startHoming s).now = s.now ∧ (startHoming s).pending = s.pending := by
  unfold startHoming
  dsimp only
  repeat' split
  all_goals simp

@[simp] theorem recoverDone_frame (s : State) :
    (recoverDone s).mem = s.mem ∧ (recoverDone s).port = s.port ∧ (recoverDone s).hdr = s.hdr ∧ (recoverDone
    s).cx = s.cx ∧ (recoverDone s).shadow = s.shadow ∧ (recoverDone s).lamp = s.lamp ∧ (recoverDone
    s).thermal = s.thermal ∧ (recoverDone s).cue = s.cue ∧ (recoverDone s).log = s.log ∧ (recoverDone
    s).deck = s.deck ∧ (recoverDone s).clip = s.clip ∧ (recoverDone s).remote = s.remote ∧ (recoverDone
    s).unit = s.unit ∧ (recoverDone s).resetHeld = s.resetHeld ∧ (recoverDone s).now = s.now ∧ (recoverDone
    s).pending = s.pending := by
  unfold recoverDone
  dsimp only
  repeat' split
  all_goals simp

@[simp] theorem holdRequest_frame (kind : TrayKind) (dark : Bool) (s : State) :
    (holdRequest kind dark s).mem = s.mem ∧ (holdRequest kind dark s).port = s.port ∧ (holdRequest kind dark
    s).hdr = s.hdr ∧ (holdRequest kind dark s).cx = s.cx ∧ (holdRequest kind dark s).shadow = s.shadow ∧
    (holdRequest kind dark s).lamp = s.lamp ∧ (holdRequest kind dark s).thermal = s.thermal ∧ (holdRequest
    kind dark s).cue = s.cue ∧ (holdRequest kind dark s).log = s.log ∧ (holdRequest kind dark s).deck =
    s.deck ∧ (holdRequest kind dark s).clip = s.clip ∧ (holdRequest kind dark s).remote = s.remote ∧
    (holdRequest kind dark s).unit = s.unit ∧ (holdRequest kind dark s).resetHeld = s.resetHeld ∧
    (holdRequest kind dark s).now = s.now ∧ (holdRequest kind dark s).pending = s.pending := by
  unfold holdRequest
  simp

@[simp] theorem requestTransport_frame (kind : TrayKind) (dark : Bool) (s : State) :
    (requestTransport kind dark s).mem = s.mem ∧ (requestTransport kind dark s).port = s.port ∧
    (requestTransport kind dark s).hdr = s.hdr ∧ (requestTransport kind dark s).cx = s.cx ∧
    (requestTransport kind dark s).lamp = s.lamp ∧ (requestTransport kind dark s).thermal = s.thermal ∧
    (requestTransport kind dark s).cue = s.cue ∧ (requestTransport kind dark s).log = s.log ∧
    (requestTransport kind dark s).deck = s.deck ∧ (requestTransport kind dark s).clip = s.clip ∧
    (requestTransport kind dark s).remote = s.remote ∧ (requestTransport kind dark s).unit = s.unit ∧
    (requestTransport kind dark s).resetHeld = s.resetHeld ∧ (requestTransport kind dark s).now = s.now ∧
    (requestTransport kind dark s).pending = s.pending := by
  unfold requestTransport
  dsimp only
  repeat' split
  all_goals simp

@[simp] theorem stopTransport_frame (s : State) :
    (stopTransport s).mem = s.mem ∧ (stopTransport s).port = s.port ∧ (stopTransport s).hdr = s.hdr ∧
    (stopTransport s).cx = s.cx ∧ (stopTransport s).lamp = s.lamp ∧ (stopTransport s).thermal = s.thermal ∧
    (stopTransport s).cue = s.cue ∧ (stopTransport s).log = s.log ∧ (stopTransport s).deck = s.deck ∧
    (stopTransport s).clip = s.clip ∧ (stopTransport s).remote = s.remote ∧ (stopTransport s).unit = s.unit
    ∧ (stopTransport s).resetHeld = s.resetHeld ∧ (stopTransport s).now = s.now ∧ (stopTransport s).pending
    = s.pending := by
  unfold stopTransport
  dsimp only
  repeat' split
  all_goals simp

@[simp] theorem relift_frame (s : State) :
    (relift s).mem = s.mem ∧ (relift s).port = s.port ∧ (relift s).hdr = s.hdr ∧ (relift s).cx = s.cx ∧
    (relift s).shadow = s.shadow ∧ (relift s).lamp = s.lamp ∧ (relift s).thermal = s.thermal ∧ (relift
    s).cue = s.cue ∧ (relift s).log = s.log ∧ (relift s).deck = s.deck ∧ (relift s).clip = s.clip ∧ (relift
    s).remote = s.remote ∧ (relift s).unit = s.unit ∧ (relift s).resetHeld = s.resetHeld ∧ (relift s).now =
    s.now ∧ (relift s).pending = s.pending := by
  unfold relift
  dsimp only
  repeat' split
  all_goals simp

@[simp] theorem dropDone_frame (slideSeen : Bool) (s : State) :
    (dropDone slideSeen s).mem = s.mem ∧ (dropDone slideSeen s).port = s.port ∧ (dropDone slideSeen s).hdr =
    s.hdr ∧ (dropDone slideSeen s).cx = s.cx ∧ (dropDone slideSeen s).shadow = s.shadow ∧ (dropDone
    slideSeen s).lamp = s.lamp ∧ (dropDone slideSeen s).cue = s.cue ∧ (dropDone slideSeen s).log = s.log ∧
    (dropDone slideSeen s).deck = s.deck ∧ (dropDone slideSeen s).clip = s.clip ∧ (dropDone slideSeen
    s).remote = s.remote ∧ (dropDone slideSeen s).unit = s.unit ∧ (dropDone slideSeen s).resetHeld =
    s.resetHeld ∧ (dropDone slideSeen s).now = s.now ∧ (dropDone slideSeen s).pending = s.pending := by
  unfold dropDone
  dsimp only
  repeat' split
  all_goals simp

@[simp] theorem armTopChange_frame (active : Bool) (s : State) :
    (armTopChange active s).mem = s.mem ∧ (armTopChange active s).port = s.port ∧ (armTopChange active
    s).hdr = s.hdr ∧ (armTopChange active s).cx = s.cx ∧ (armTopChange active s).shadow = s.shadow ∧
    (armTopChange active s).lamp = s.lamp ∧ (armTopChange active s).thermal = s.thermal ∧ (armTopChange
    active s).cue = s.cue ∧ (armTopChange active s).log = s.log ∧ (armTopChange active s).deck = s.deck ∧
    (armTopChange active s).clip = s.clip ∧ (armTopChange active s).remote = s.remote ∧ (armTopChange active
    s).unit = s.unit ∧ (armTopChange active s).resetHeld = s.resetHeld ∧ (armTopChange active s).now = s.now
    ∧ (armTopChange active s).pending = s.pending := by
  unfold armTopChange
  dsimp only
  repeat' split
  all_goals simp

@[simp] theorem armBottomChange_frame (active : Bool) (slideSeen : Bool) (s : State) :
    (armBottomChange active slideSeen s).mem = s.mem ∧ (armBottomChange active slideSeen s).port = s.port ∧
    (armBottomChange active slideSeen s).hdr = s.hdr ∧ (armBottomChange active slideSeen s).cx = s.cx ∧
    (armBottomChange active slideSeen s).lamp = s.lamp ∧ (armBottomChange active slideSeen s).cue = s.cue ∧
    (armBottomChange active slideSeen s).log = s.log ∧ (armBottomChange active slideSeen s).deck = s.deck ∧
    (armBottomChange active slideSeen s).clip = s.clip ∧ (armBottomChange active slideSeen s).remote =
    s.remote ∧ (armBottomChange active slideSeen s).unit = s.unit ∧ (armBottomChange active slideSeen
    s).resetHeld = s.resetHeld ∧ (armBottomChange active slideSeen s).now = s.now ∧ (armBottomChange active
    slideSeen s).pending = s.pending := by
  unfold armBottomChange
  dsimp only
  repeat' split
  all_goals simp

@[simp] theorem liftExpiry_frame (s : State) :
    (liftExpiry s).mem = s.mem ∧ (liftExpiry s).port = s.port ∧ (liftExpiry s).hdr = s.hdr ∧ (liftExpiry
    s).cx = s.cx ∧ (liftExpiry s).lamp = s.lamp ∧ (liftExpiry s).thermal = s.thermal ∧ (liftExpiry s).cue =
    s.cue ∧ (liftExpiry s).log = s.log ∧ (liftExpiry s).deck = s.deck ∧ (liftExpiry s).clip = s.clip ∧
    (liftExpiry s).remote = s.remote ∧ (liftExpiry s).unit = s.unit ∧ (liftExpiry s).resetHeld = s.resetHeld
    ∧ (liftExpiry s).now = s.now ∧ (liftExpiry s).pending = s.pending := by
  unfold liftExpiry
  dsimp only
  repeat' split
  all_goals simp

@[simp] theorem lowerExpiry_frame (s : State) :
    (lowerExpiry s).mem = s.mem ∧ (lowerExpiry s).port = s.port ∧ (lowerExpiry s).hdr = s.hdr ∧ (lowerExpiry
    s).cx = s.cx ∧ (lowerExpiry s).lamp = s.lamp ∧ (lowerExpiry s).thermal = s.thermal ∧ (lowerExpiry s).cue
    = s.cue ∧ (lowerExpiry s).log = s.log ∧ (lowerExpiry s).deck = s.deck ∧ (lowerExpiry s).clip = s.clip ∧
    (lowerExpiry s).remote = s.remote ∧ (lowerExpiry s).unit = s.unit ∧ (lowerExpiry s).resetHeld =
    s.resetHeld ∧ (lowerExpiry s).now = s.now ∧ (lowerExpiry s).pending = s.pending := by
  unfold lowerExpiry
  repeat' split
  all_goals simp

@[simp] theorem rotateExpiry_frame (s : State) :
    (rotateExpiry s).mem = s.mem ∧ (rotateExpiry s).port = s.port ∧ (rotateExpiry s).hdr = s.hdr ∧
    (rotateExpiry s).cx = s.cx ∧ (rotateExpiry s).lamp = s.lamp ∧ (rotateExpiry s).thermal = s.thermal ∧
    (rotateExpiry s).cue = s.cue ∧ (rotateExpiry s).log = s.log ∧ (rotateExpiry s).deck = s.deck ∧
    (rotateExpiry s).clip = s.clip ∧ (rotateExpiry s).remote = s.remote ∧ (rotateExpiry s).unit = s.unit ∧
    (rotateExpiry s).resetHeld = s.resetHeld ∧ (rotateExpiry s).now = s.now ∧ (rotateExpiry s).pending =
    s.pending := by
  unfold rotateExpiry
  repeat' split
  all_goals simp

@[simp] theorem dropExpiry_frame (s : State) :
    (dropExpiry s).mem = s.mem ∧ (dropExpiry s).port = s.port ∧ (dropExpiry s).hdr = s.hdr ∧ (dropExpiry
    s).cx = s.cx ∧ (dropExpiry s).lamp = s.lamp ∧ (dropExpiry s).thermal = s.thermal ∧ (dropExpiry s).cue =
    s.cue ∧ (dropExpiry s).log = s.log ∧ (dropExpiry s).deck = s.deck ∧ (dropExpiry s).clip = s.clip ∧
    (dropExpiry s).remote = s.remote ∧ (dropExpiry s).unit = s.unit ∧ (dropExpiry s).resetHeld = s.resetHeld
    ∧ (dropExpiry s).now = s.now ∧ (dropExpiry s).pending = s.pending := by
  unfold dropExpiry
  repeat' split
  all_goals simp

@[simp] theorem recoverExpiry_frame (s : State) :
    (recoverExpiry s).mem = s.mem ∧ (recoverExpiry s).port = s.port ∧ (recoverExpiry s).hdr = s.hdr ∧
    (recoverExpiry s).cx = s.cx ∧ (recoverExpiry s).lamp = s.lamp ∧ (recoverExpiry s).thermal = s.thermal ∧
    (recoverExpiry s).cue = s.cue ∧ (recoverExpiry s).log = s.log ∧ (recoverExpiry s).deck = s.deck ∧
    (recoverExpiry s).clip = s.clip ∧ (recoverExpiry s).remote = s.remote ∧ (recoverExpiry s).unit = s.unit
    ∧ (recoverExpiry s).resetHeld = s.resetHeld ∧ (recoverExpiry s).now = s.now ∧ (recoverExpiry s).pending
    = s.pending := by
  unfold recoverExpiry
  repeat' split
  all_goals simp

@[simp] theorem slipHome_frame (r : TrayRequest) (p : Plan) (toGo : Nat) (s : State) :
    (slipHome r p toGo s).mem = s.mem ∧ (slipHome r p toGo s).port = s.port ∧ (slipHome r p toGo s).hdr =
    s.hdr ∧ (slipHome r p toGo s).cx = s.cx ∧ (slipHome r p toGo s).lamp = s.lamp ∧ (slipHome r p toGo
    s).thermal = s.thermal ∧ (slipHome r p toGo s).cue = s.cue ∧ (slipHome r p toGo s).log = s.log ∧
    (slipHome r p toGo s).deck = s.deck ∧ (slipHome r p toGo s).clip = s.clip ∧ (slipHome r p toGo s).remote
    = s.remote ∧ (slipHome r p toGo s).unit = s.unit ∧ (slipHome r p toGo s).resetHeld = s.resetHeld ∧
    (slipHome r p toGo s).now = s.now ∧ (slipHome r p toGo s).pending = s.pending := by
  unfold slipHome
  dsimp only
  repeat' split
  all_goals simp

@[simp] theorem rotatePulse_frame (home : Bool) (s : State) :
    (rotatePulse home s).mem = s.mem ∧ (rotatePulse home s).port = s.port ∧ (rotatePulse home s).hdr = s.hdr
    ∧ (rotatePulse home s).cx = s.cx ∧ (rotatePulse home s).lamp = s.lamp ∧ (rotatePulse home s).thermal =
    s.thermal ∧ (rotatePulse home s).cue = s.cue ∧ (rotatePulse home s).log = s.log ∧ (rotatePulse home
    s).deck = s.deck ∧ (rotatePulse home s).clip = s.clip ∧ (rotatePulse home s).remote = s.remote ∧
    (rotatePulse home s).unit = s.unit ∧ (rotatePulse home s).resetHeld = s.resetHeld ∧ (rotatePulse home
    s).now = s.now ∧ (rotatePulse home s).pending = s.pending := by
  unfold rotatePulse
  dsimp only
  repeat' split
  all_goals simp

@[simp] theorem homingPulse_frame (home : Bool) (s : State) :
    (homingPulse home s).mem = s.mem ∧ (homingPulse home s).port = s.port ∧ (homingPulse home s).hdr = s.hdr
    ∧ (homingPulse home s).cx = s.cx ∧ (homingPulse home s).lamp = s.lamp ∧ (homingPulse home s).thermal =
    s.thermal ∧ (homingPulse home s).cue = s.cue ∧ (homingPulse home s).log = s.log ∧ (homingPulse home
    s).deck = s.deck ∧ (homingPulse home s).clip = s.clip ∧ (homingPulse home s).remote = s.remote ∧
    (homingPulse home s).unit = s.unit ∧ (homingPulse home s).resetHeld = s.resetHeld ∧ (homingPulse home
    s).now = s.now ∧ (homingPulse home s).pending = s.pending := by
  unfold homingPulse
  dsimp only
  repeat' split
  all_goals simp

@[simp] theorem indexPulseSeen_frame (home : Bool) (s : State) :
    (indexPulseSeen home s).mem = s.mem ∧ (indexPulseSeen home s).port = s.port ∧ (indexPulseSeen home
    s).hdr = s.hdr ∧ (indexPulseSeen home s).cx = s.cx ∧ (indexPulseSeen home s).lamp = s.lamp ∧
    (indexPulseSeen home s).thermal = s.thermal ∧ (indexPulseSeen home s).cue = s.cue ∧ (indexPulseSeen home
    s).log = s.log ∧ (indexPulseSeen home s).deck = s.deck ∧ (indexPulseSeen home s).clip = s.clip ∧
    (indexPulseSeen home s).remote = s.remote ∧ (indexPulseSeen home s).unit = s.unit ∧ (indexPulseSeen home
    s).resetHeld = s.resetHeld ∧ (indexPulseSeen home s).now = s.now ∧ (indexPulseSeen home s).pending =
    s.pending := by
  unfold indexPulseSeen
  repeat' split
  all_goals simp

@[simp] theorem settleChange_frame (s : State) :
    (settleChange s).mem = s.mem ∧ (settleChange s).port = s.port ∧ (settleChange s).hdr = s.hdr ∧
    (settleChange s).cx = s.cx ∧ (settleChange s).lamp = s.lamp ∧ (settleChange s).thermal = s.thermal ∧
    (settleChange s).cue = s.cue ∧ (settleChange s).log = s.log ∧ (settleChange s).deck = s.deck ∧
    (settleChange s).clip = s.clip ∧ (settleChange s).remote = s.remote ∧ (settleChange s).unit = s.unit ∧
    (settleChange s).resetHeld = s.resetHeld ∧ (settleChange s).now = s.now ∧ (settleChange s).pending =
    s.pending := by
  unfold settleChange
  dsimp only
  repeat' split
  all_goals simp

@[simp] theorem settleHoming_frame (s : State) :
    (settleHoming s).mem = s.mem ∧ (settleHoming s).port = s.port ∧ (settleHoming s).hdr = s.hdr ∧
    (settleHoming s).cx = s.cx ∧ (settleHoming s).lamp = s.lamp ∧ (settleHoming s).thermal = s.thermal ∧
    (settleHoming s).cue = s.cue ∧ (settleHoming s).log = s.log ∧ (settleHoming s).deck = s.deck ∧
    (settleHoming s).clip = s.clip ∧ (settleHoming s).remote = s.remote ∧ (settleHoming s).unit = s.unit ∧
    (settleHoming s).resetHeld = s.resetHeld ∧ (settleHoming s).now = s.now ∧ (settleHoming s).pending =
    s.pending := by
  unfold settleHoming
  dsimp only
  repeat' split
  all_goals simp

@[simp] theorem settleExpiry_frame (s : State) :
    (settleExpiry s).mem = s.mem ∧ (settleExpiry s).port = s.port ∧ (settleExpiry s).hdr = s.hdr ∧
    (settleExpiry s).cx = s.cx ∧ (settleExpiry s).lamp = s.lamp ∧ (settleExpiry s).thermal = s.thermal ∧
    (settleExpiry s).cue = s.cue ∧ (settleExpiry s).log = s.log ∧ (settleExpiry s).deck = s.deck ∧
    (settleExpiry s).clip = s.clip ∧ (settleExpiry s).remote = s.remote ∧ (settleExpiry s).unit = s.unit ∧
    (settleExpiry s).resetHeld = s.resetHeld ∧ (settleExpiry s).now = s.now ∧ (settleExpiry s).pending =
    s.pending := by
  unfold settleExpiry
  repeat' split
  all_goals simp

@[simp] theorem trayRecord_frame (slot : Nat) (copy : List Word) (s : State) :
    (trayRecord slot copy s).mem = s.mem ∧ (trayRecord slot copy s).port = s.port ∧ (trayRecord slot copy
    s).hdr = s.hdr ∧ (trayRecord slot copy s).cx = s.cx ∧ (trayRecord slot copy s).lamp = s.lamp ∧
    (trayRecord slot copy s).thermal = s.thermal ∧ (trayRecord slot copy s).cue = s.cue ∧ (trayRecord slot
    copy s).log = s.log ∧ (trayRecord slot copy s).deck = s.deck ∧ (trayRecord slot copy s).clip = s.clip ∧
    (trayRecord slot copy s).remote = s.remote ∧ (trayRecord slot copy s).unit = s.unit ∧ (trayRecord slot
    copy s).resetHeld = s.resetHeld ∧ (trayRecord slot copy s).now = s.now ∧ (trayRecord slot copy
    s).pending = s.pending := by
  unfold trayRecord
  split
  · rename_i se _
    split
    · have h2 := searchLook_frame se (slotSkip copy) (putTray { s.tray with wait := .none } s)
      split
      · rename_i e; simp only [e] at h2; simp [h2]
      · rename_i e; simp only [e] at h2; simp [h2]
    · simp
  · repeat' split
    all_goals simp
  · simp

@[simp] theorem trayDropPins_frame (keys : List Nat) (s : State) :
    (trayDropPins keys s).mem = s.mem ∧ (trayDropPins keys s).port = s.port ∧ (trayDropPins keys s).hdr =
    s.hdr ∧ (trayDropPins keys s).cx = s.cx ∧ (trayDropPins keys s).shadow = s.shadow ∧ (trayDropPins keys
    s).lamp = s.lamp ∧ (trayDropPins keys s).thermal = s.thermal ∧ (trayDropPins keys s).cue = s.cue ∧
    (trayDropPins keys s).log = s.log ∧ (trayDropPins keys s).deck = s.deck ∧ (trayDropPins keys s).clip =
    s.clip ∧ (trayDropPins keys s).remote = s.remote ∧ (trayDropPins keys s).unit = s.unit ∧ (trayDropPins
    keys s).resetHeld = s.resetHeld ∧ (trayDropPins keys s).now = s.now ∧ (trayDropPins keys s).pending =
    s.pending := by
  unfold trayDropPins
  repeat' split
  all_goals simp

@[simp] theorem removeTray_frame (s : State) :
    (removeTray s).mem = s.mem ∧ (removeTray s).port = s.port ∧ (removeTray s).hdr = s.hdr ∧ (removeTray
    s).cx = s.cx ∧ (removeTray s).lamp = s.lamp ∧ (removeTray s).thermal = s.thermal ∧ (removeTray s).cue =
    s.cue ∧ (removeTray s).log = s.log ∧ (removeTray s).deck = s.deck ∧ (removeTray s).clip = s.clip ∧
    (removeTray s).remote = s.remote ∧ (removeTray s).unit = s.unit ∧ (removeTray s).resetHeld = s.resetHeld
    ∧ (removeTray s).now = s.now ∧ (removeTray s).pending = s.pending := by
  unfold removeTray
  dsimp only
  repeat' split
  all_goals simp

@[simp] theorem seatTray_frame (tray96 : Bool) (s : State) :
    (seatTray tray96 s).mem = s.mem ∧ (seatTray tray96 s).port = s.port ∧ (seatTray tray96 s).hdr = s.hdr ∧
    (seatTray tray96 s).cx = s.cx ∧ (seatTray tray96 s).shadow = s.shadow ∧ (seatTray tray96 s).lamp =
    s.lamp ∧ (seatTray tray96 s).thermal = s.thermal ∧ (seatTray tray96 s).cue = s.cue ∧ (seatTray tray96
    s).log = s.log ∧ (seatTray tray96 s).deck = s.deck ∧ (seatTray tray96 s).clip = s.clip ∧ (seatTray
    tray96 s).remote = s.remote ∧ (seatTray tray96 s).unit = s.unit ∧ (seatTray tray96 s).resetHeld =
    s.resetHeld ∧ (seatTray tray96 s).now = s.now ∧ (seatTray tray96 s).pending = s.pending := by
  unfold seatTray
  repeat' split
  all_goals simp

@[simp] theorem lookAfresh_frame (s : State) :
    (lookAfresh s).mem = s.mem ∧ (lookAfresh s).port = s.port ∧ (lookAfresh s).hdr = s.hdr ∧
    (lookAfresh s).cx = s.cx ∧ (lookAfresh s).lamp = s.lamp ∧ (lookAfresh s).thermal = s.thermal
    ∧ (lookAfresh s).cue = s.cue ∧ (lookAfresh s).log = s.log ∧ (lookAfresh s).deck = s.deck ∧
    (lookAfresh s).clip = s.clip ∧ (lookAfresh s).remote = s.remote ∧ (lookAfresh s).unit =
    s.unit ∧ (lookAfresh s).resetHeld = s.resetHeld ∧ (lookAfresh s).now = s.now ∧ (lookAfresh
    s).pending = s.pending := by
  unfold lookAfresh
  repeat' split
  all_goals simp

@[simp] theorem trayAfterReset_frame (s : State) :
    (trayAfterReset s).mem = s.mem ∧ (trayAfterReset s).port = s.port ∧ (trayAfterReset s).hdr = s.hdr ∧
    (trayAfterReset s).cx = s.cx ∧ (trayAfterReset s).lamp = s.lamp ∧ (trayAfterReset s).thermal = s.thermal
    ∧ (trayAfterReset s).cue = s.cue ∧ (trayAfterReset s).log = s.log ∧ (trayAfterReset s).deck = s.deck ∧
    (trayAfterReset s).clip = s.clip ∧ (trayAfterReset s).remote = s.remote ∧ (trayAfterReset s).unit =
    s.unit ∧ (trayAfterReset s).resetHeld = s.resetHeld ∧ (trayAfterReset s).now = s.now ∧ (trayAfterReset
    s).pending = s.pending := by
  unfold trayAfterReset
  dsimp only
  repeat' split
  all_goals simp

/-! ## ClipOps -/

@[simp] theorem setPlayer_frame (st : PlayerState) (s : State) :
    (setPlayer st s).mem = s.mem ∧ (setPlayer st s).port = s.port ∧ (setPlayer st s).hdr = s.hdr ∧
    (setPlayer st s).cx = s.cx ∧ (setPlayer st s).tray = s.tray ∧ (setPlayer st s).shadow = s.shadow ∧
    (setPlayer st s).lamp = s.lamp ∧ (setPlayer st s).thermal = s.thermal ∧ (setPlayer st s).cue = s.cue ∧
    (setPlayer st s).log = s.log ∧ (setPlayer st s).deck = s.deck ∧ (setPlayer st s).remote = s.remote ∧
    (setPlayer st s).unit = s.unit ∧ (setPlayer st s).resetHeld = s.resetHeld ∧ (setPlayer st s).now = s.now
    ∧ (setPlayer st s).pending = s.pending := by
  unfold setPlayer
  dsimp only
  repeat' split
  all_goals simp

@[simp] theorem answerStart_frame (source : ClipSource) (code : ResultCode) (s : State) :
    (answerStart source code s).mem = s.mem ∧ (answerStart source code s).port = s.port ∧ (answerStart
    source code s).cx = s.cx ∧ (answerStart source code s).tray = s.tray ∧ (answerStart source code
    s).shadow = s.shadow ∧ (answerStart source code s).lamp = s.lamp ∧ (answerStart source code s).thermal =
    s.thermal ∧ (answerStart source code s).cue = s.cue ∧ (answerStart source code s).deck = s.deck ∧
    (answerStart source code s).clip = s.clip ∧ (answerStart source code s).remote = s.remote ∧ (answerStart
    source code s).unit = s.unit ∧ (answerStart source code s).resetHeld = s.resetHeld ∧ (answerStart source
    code s).now = s.now ∧ (answerStart source code s).pending = s.pending := by
  unfold answerStart
  repeat' split
  all_goals simp

@[simp] theorem beginPlay_frame (clip : Nat) (source : ClipSource) (copy : List Word) (s : State) :
    (beginPlay clip source copy s).mem = s.mem ∧ (beginPlay clip source copy s).port = s.port ∧ (beginPlay
    clip source copy s).hdr = s.hdr ∧ (beginPlay clip source copy s).cx = s.cx ∧ (beginPlay clip source copy
    s).tray = s.tray ∧ (beginPlay clip source copy s).shadow = s.shadow ∧ (beginPlay clip source copy
    s).lamp = s.lamp ∧ (beginPlay clip source copy s).thermal = s.thermal ∧ (beginPlay clip source copy
    s).cue = s.cue ∧ (beginPlay clip source copy s).log = s.log ∧ (beginPlay clip source copy s).deck =
    s.deck ∧ (beginPlay clip source copy s).remote = s.remote ∧ (beginPlay clip source copy s).unit = s.unit
    ∧ (beginPlay clip source copy s).resetHeld = s.resetHeld ∧ (beginPlay clip source copy s).now = s.now ∧
    (beginPlay clip source copy s).pending = s.pending := by
  unfold beginPlay
  dsimp only
  simp

@[simp] theorem playNext_frame (s : State) :
    (playNext s).mem = s.mem ∧ (playNext s).port = s.port ∧ (playNext s).hdr = s.hdr ∧ (playNext s).cx =
    s.cx ∧ (playNext s).tray = s.tray ∧ (playNext s).lamp = s.lamp ∧ (playNext s).thermal = s.thermal ∧
    (playNext s).cue = s.cue ∧ (playNext s).log = s.log ∧ (playNext s).deck = s.deck ∧ (playNext s).remote =
    s.remote ∧ (playNext s).unit = s.unit ∧ (playNext s).resetHeld = s.resetHeld ∧ (playNext s).now = s.now
    ∧ (playNext s).pending = s.pending := by
  unfold playNext
  dsimp only
  repeat' split
  all_goals simp

@[simp] theorem emptyClipQueue_frame (s : State) :
    (emptyClipQueue s).mem = s.mem ∧ (emptyClipQueue s).port = s.port ∧ (emptyClipQueue s).hdr = s.hdr ∧
    (emptyClipQueue s).cx = s.cx ∧ (emptyClipQueue s).tray = s.tray ∧ (emptyClipQueue s).lamp = s.lamp ∧
    (emptyClipQueue s).thermal = s.thermal ∧ (emptyClipQueue s).cue = s.cue ∧ (emptyClipQueue s).log = s.log
    ∧ (emptyClipQueue s).deck = s.deck ∧ (emptyClipQueue s).remote = s.remote ∧ (emptyClipQueue s).unit =
    s.unit ∧ (emptyClipQueue s).resetHeld = s.resetHeld ∧ (emptyClipQueue s).now = s.now ∧ (emptyClipQueue
    s).pending = s.pending := by
  have h : ∀ (s : State) (e : ClipEntry),
      (if e.pinned then releasePin .clip e.clip s else s).mem = s.mem ∧ (if e.pinned then releasePin .clip
    e.clip s else s).port = s.port ∧ (if e.pinned then releasePin .clip e.clip s else s).hdr = s.hdr ∧ (if
    e.pinned then releasePin .clip e.clip s else s).cx = s.cx ∧ (if e.pinned then releasePin .clip e.clip s
    else s).tray = s.tray ∧ (if e.pinned then releasePin .clip e.clip s else s).lamp = s.lamp ∧ (if e.pinned
    then releasePin .clip e.clip s else s).thermal = s.thermal ∧ (if e.pinned then releasePin .clip e.clip s
    else s).cue = s.cue ∧ (if e.pinned then releasePin .clip e.clip s else s).log = s.log ∧ (if e.pinned
    then releasePin .clip e.clip s else s).deck = s.deck ∧ (if e.pinned then releasePin .clip e.clip s else
    s).clip = s.clip ∧ (if e.pinned then releasePin .clip e.clip s else s).remote = s.remote ∧ (if e.pinned
    then releasePin .clip e.clip s else s).unit = s.unit ∧ (if e.pinned then releasePin .clip e.clip s else
    s).resetHeld = s.resetHeld ∧ (if e.pinned then releasePin .clip e.clip s else s).now = s.now ∧ (if
    e.pinned then releasePin .clip e.clip s else s).pending = s.pending := by
    intro s e; split <;> simp
  unfold emptyClipQueue
  dsimp only
  refine ⟨?_, ?_, ?_, ?_, ?_, ?_, ?_, ?_, ?_, ?_, ?_, ?_, ?_, ?_, ?_⟩ <;>
    simp only [putClip_mem, putClip_port, putClip_hdr, putClip_cx, putClip_tray, putClip_lamp, putClip_thermal,
      putClip_cue, putClip_log, putClip_deck, putClip_remote, putClip_unit, putClip_resetHeld, putClip_now,
      putClip_pending] <;>
    first

    | exact foldl_frame State.mem _ (fun s e => by simp [h s e]) _ s
    | exact foldl_frame State.port _ (fun s e => by simp [h s e]) _ s
    | exact foldl_frame State.hdr _ (fun s e => by simp [h s e]) _ s
    | exact foldl_frame State.cx _ (fun s e => by simp [h s e]) _ s
    | exact foldl_frame State.tray _ (fun s e => by simp [h s e]) _ s
    | exact foldl_frame State.lamp _ (fun s e => by simp [h s e]) _ s
    | exact foldl_frame State.thermal _ (fun s e => by simp [h s e]) _ s
    | exact foldl_frame State.cue _ (fun s e => by simp [h s e]) _ s
    | exact foldl_frame State.log _ (fun s e => by simp [h s e]) _ s
    | exact foldl_frame State.deck _ (fun s e => by simp [h s e]) _ s
    | exact foldl_frame State.remote _ (fun s e => by simp [h s e]) _ s
    | exact foldl_frame State.unit _ (fun s e => by simp [h s e]) _ s
    | exact foldl_frame State.resetHeld _ (fun s e => by simp [h s e]) _ s
    | exact foldl_frame State.now _ (fun s e => by simp [h s e]) _ s
    | exact foldl_frame State.pending _ (fun s e => by simp [h s e]) _ s

@[simp] theorem enterFade_frame (s : State) :
    (enterFade s).mem = s.mem ∧ (enterFade s).port = s.port ∧ (enterFade s).hdr = s.hdr ∧ (enterFade s).cx =
    s.cx ∧ (enterFade s).tray = s.tray ∧ (enterFade s).shadow = s.shadow ∧ (enterFade s).lamp = s.lamp ∧
    (enterFade s).thermal = s.thermal ∧ (enterFade s).cue = s.cue ∧ (enterFade s).log = s.log ∧ (enterFade
    s).deck = s.deck ∧ (enterFade s).remote = s.remote ∧ (enterFade s).unit = s.unit ∧ (enterFade
    s).resetHeld = s.resetHeld ∧ (enterFade s).now = s.now ∧ (enterFade s).pending = s.pending := by
  unfold enterFade
  dsimp only
  repeat' split
  all_goals simp

@[simp] theorem dropStart_frame (st : StartRecord) (s : State) :
    (dropStart st s).mem = s.mem ∧ (dropStart st s).port = s.port ∧ (dropStart st s).hdr = s.hdr ∧
    (dropStart st s).cx = s.cx ∧ (dropStart st s).tray = s.tray ∧ (dropStart st s).lamp = s.lamp ∧
    (dropStart st s).thermal = s.thermal ∧ (dropStart st s).cue = s.cue ∧ (dropStart st s).log = s.log ∧
    (dropStart st s).deck = s.deck ∧ (dropStart st s).remote = s.remote ∧ (dropStart st s).unit = s.unit ∧
    (dropStart st s).resetHeld = s.resetHeld ∧ (dropStart st s).now = s.now ∧ (dropStart st s).pending =
    s.pending := by
  unfold dropStart
  dsimp only
  repeat' split
  all_goals simp

@[simp] theorem resolveCut_frame (st : StartRecord) (copy : Option (List Word)) (s : State) :
    (resolveCut st copy s).mem = s.mem ∧ (resolveCut st copy s).port = s.port ∧ (resolveCut st copy s).cx =
    s.cx ∧ (resolveCut st copy s).tray = s.tray ∧ (resolveCut st copy s).lamp = s.lamp ∧ (resolveCut st copy
    s).thermal = s.thermal ∧ (resolveCut st copy s).cue = s.cue ∧ (resolveCut st copy s).deck = s.deck ∧
    (resolveCut st copy s).remote = s.remote ∧ (resolveCut st copy s).unit = s.unit ∧ (resolveCut st copy
    s).resetHeld = s.resetHeld ∧ (resolveCut st copy s).now = s.now ∧ (resolveCut st copy s).pending =
    s.pending := by
  unfold resolveCut
  dsimp only
  repeat' split
  all_goals simp

@[simp] theorem resolveQueue_frame (st : StartRecord) (copy : Option (List Word)) (s : State) :
    (resolveQueue st copy s).mem = s.mem ∧ (resolveQueue st copy s).port = s.port ∧ (resolveQueue st copy
    s).cx = s.cx ∧ (resolveQueue st copy s).tray = s.tray ∧ (resolveQueue st copy s).lamp = s.lamp ∧
    (resolveQueue st copy s).thermal = s.thermal ∧ (resolveQueue st copy s).cue = s.cue ∧ (resolveQueue st
    copy s).deck = s.deck ∧ (resolveQueue st copy s).remote = s.remote ∧ (resolveQueue st copy s).unit =
    s.unit ∧ (resolveQueue st copy s).resetHeld = s.resetHeld ∧ (resolveQueue st copy s).now = s.now ∧
    (resolveQueue st copy s).pending = s.pending := by
  unfold resolveQueue
  dsimp only
  repeat' split
  all_goals simp

@[simp] theorem resolveStart_frame (copy : Option (List Word)) (s : State) :
    (resolveStart copy s).mem = s.mem ∧ (resolveStart copy s).port = s.port ∧ (resolveStart copy s).cx =
    s.cx ∧ (resolveStart copy s).tray = s.tray ∧ (resolveStart copy s).lamp = s.lamp ∧ (resolveStart copy
    s).thermal = s.thermal ∧ (resolveStart copy s).cue = s.cue ∧ (resolveStart copy s).deck = s.deck ∧
    (resolveStart copy s).remote = s.remote ∧ (resolveStart copy s).unit = s.unit ∧ (resolveStart copy
    s).resetHeld = s.resetHeld ∧ (resolveStart copy s).now = s.now ∧ (resolveStart copy s).pending =
    s.pending := by
  unfold resolveStart
  repeat' split
  all_goals simp

@[simp] theorem lookupStart_frame (r : ClipRequest) (s : State) :
    (lookupStart r s).mem = s.mem ∧ (lookupStart r s).port = s.port ∧ (lookupStart r s).cx = s.cx ∧
    (lookupStart r s).tray = s.tray ∧ (lookupStart r s).lamp = s.lamp ∧ (lookupStart r s).thermal =
    s.thermal ∧ (lookupStart r s).cue = s.cue ∧ (lookupStart r s).deck = s.deck ∧ (lookupStart r s).remote =
    s.remote ∧ (lookupStart r s).unit = s.unit ∧ (lookupStart r s).resetHeld = s.resetHeld ∧ (lookupStart r
    s).now = s.now ∧ (lookupStart r s).pending = s.pending := by
  have h := lookup_frame .clip r.clip true s
  unfold lookupStart
  split
  all_goals (rename_i e; simp only [e] at h; simp [h])

@[simp] theorem serve_frame (r : ClipRequest) (s : State) :
    (serve r s).mem = s.mem ∧ (serve r s).port = s.port ∧ (serve r s).cx = s.cx ∧ (serve r s).tray = s.tray
    ∧ (serve r s).lamp = s.lamp ∧ (serve r s).thermal = s.thermal ∧ (serve r s).cue = s.cue ∧ (serve r
    s).deck = s.deck ∧ (serve r s).remote = s.remote ∧ (serve r s).unit = s.unit ∧ (serve r s).resetHeld =
    s.resetHeld ∧ (serve r s).now = s.now ∧ (serve r s).pending = s.pending := by
  unfold serve
  dsimp only
  repeat' split
  all_goals simp

@[simp] theorem serveNext_frame (k : Nat) (s : State) :
    (serveNext k s).mem = s.mem ∧ (serveNext k s).port = s.port ∧ (serveNext k s).cx = s.cx ∧ (serveNext k
    s).tray = s.tray ∧ (serveNext k s).lamp = s.lamp ∧ (serveNext k s).thermal = s.thermal ∧ (serveNext k
    s).cue = s.cue ∧ (serveNext k s).deck = s.deck ∧ (serveNext k s).remote = s.remote ∧ (serveNext k
    s).unit = s.unit ∧ (serveNext k s).resetHeld = s.resetHeld ∧ (serveNext k s).now = s.now ∧ (serveNext k
    s).pending = s.pending := by
  induction k generalizing s with
  | zero => simp [serveNext]
  | succ k ih =>
    unfold serveNext
    split
    · simp [ih]
    · simp

@[simp] theorem serveAll_frame (s : State) :
    (serveAll s).mem = s.mem ∧ (serveAll s).port = s.port ∧ (serveAll s).cx = s.cx ∧ (serveAll s).tray =
    s.tray ∧ (serveAll s).lamp = s.lamp ∧ (serveAll s).thermal = s.thermal ∧ (serveAll s).cue = s.cue ∧
    (serveAll s).deck = s.deck ∧ (serveAll s).remote = s.remote ∧ (serveAll s).unit = s.unit ∧ (serveAll
    s).resetHeld = s.resetHeld ∧ (serveAll s).now = s.now ∧ (serveAll s).pending = s.pending := serveNext_frame 5 s

@[simp] theorem startRequest_frame (r : ClipRequest) (s : State) :
    (startRequest r s).mem = s.mem ∧ (startRequest r s).port = s.port ∧ (startRequest r s).cx = s.cx ∧
    (startRequest r s).tray = s.tray ∧ (startRequest r s).lamp = s.lamp ∧ (startRequest r s).thermal =
    s.thermal ∧ (startRequest r s).cue = s.cue ∧ (startRequest r s).deck = s.deck ∧ (startRequest r
    s).remote = s.remote ∧ (startRequest r s).unit = s.unit ∧ (startRequest r s).resetHeld = s.resetHeld ∧
    (startRequest r s).now = s.now ∧ (startRequest r s).pending = s.pending := by
  unfold startRequest
  repeat' split
  all_goals simp

@[simp] theorem clipRecord_frame (clip : Nat) (copy : Option (List Word)) (s : State) :
    (clipRecord clip copy s).mem = s.mem ∧ (clipRecord clip copy s).port = s.port ∧ (clipRecord clip copy
    s).cx = s.cx ∧ (clipRecord clip copy s).tray = s.tray ∧ (clipRecord clip copy s).lamp = s.lamp ∧
    (clipRecord clip copy s).thermal = s.thermal ∧ (clipRecord clip copy s).cue = s.cue ∧ (clipRecord clip
    copy s).deck = s.deck ∧ (clipRecord clip copy s).remote = s.remote ∧ (clipRecord clip copy s).unit =
    s.unit ∧ (clipRecord clip copy s).resetHeld = s.resetHeld ∧ (clipRecord clip copy s).now = s.now ∧
    (clipRecord clip copy s).pending = s.pending := by
  unfold clipRecord
  repeat' split
  all_goals simp

@[simp] theorem clipAbsent_frame (clip : Nat) (s : State) :
    (clipAbsent clip s).mem = s.mem ∧ (clipAbsent clip s).port = s.port ∧ (clipAbsent clip s).cx = s.cx ∧
    (clipAbsent clip s).tray = s.tray ∧ (clipAbsent clip s).lamp = s.lamp ∧ (clipAbsent clip s).thermal =
    s.thermal ∧ (clipAbsent clip s).cue = s.cue ∧ (clipAbsent clip s).deck = s.deck ∧ (clipAbsent clip
    s).remote = s.remote ∧ (clipAbsent clip s).unit = s.unit ∧ (clipAbsent clip s).resetHeld = s.resetHeld ∧
    (clipAbsent clip s).now = s.now ∧ (clipAbsent clip s).pending = s.pending := by
  unfold clipAbsent
  repeat' split
  all_goals simp

@[simp] theorem fadeEnd_frame (s : State) :
    (fadeEnd s).mem = s.mem ∧ (fadeEnd s).cx = s.cx ∧ (fadeEnd s).tray = s.tray ∧ (fadeEnd s).lamp = s.lamp
    ∧ (fadeEnd s).thermal = s.thermal ∧ (fadeEnd s).cue = s.cue ∧ (fadeEnd s).deck = s.deck ∧ (fadeEnd
    s).remote = s.remote ∧ (fadeEnd s).unit = s.unit ∧ (fadeEnd s).resetHeld = s.resetHeld ∧ (fadeEnd s).now
    = s.now ∧ (fadeEnd s).pending = s.pending := by
  unfold fadeEnd
  dsimp only
  repeat' split
  all_goals simp

@[simp] theorem outputSample_frame (x : Int) (rest : List Int) (s : State) :
    (outputSample x rest s).mem = s.mem ∧ (outputSample x rest s).cx = s.cx ∧ (outputSample x rest s).tray =
    s.tray ∧ (outputSample x rest s).lamp = s.lamp ∧ (outputSample x rest s).thermal = s.thermal ∧
    (outputSample x rest s).cue = s.cue ∧ (outputSample x rest s).deck = s.deck ∧ (outputSample x rest
    s).remote = s.remote ∧ (outputSample x rest s).unit = s.unit ∧ (outputSample x rest s).resetHeld =
    s.resetHeld ∧ (outputSample x rest s).now = s.now ∧ (outputSample x rest s).pending = s.pending := by
  unfold outputSample
  dsimp only
  repeat' split
  all_goals simp

@[simp] theorem missSample_frame (s : State) :
    (missSample s).mem = s.mem ∧ (missSample s).cx = s.cx ∧ (missSample s).tray = s.tray ∧ (missSample
    s).lamp = s.lamp ∧ (missSample s).thermal = s.thermal ∧ (missSample s).cue = s.cue ∧ (missSample s).deck
    = s.deck ∧ (missSample s).remote = s.remote ∧ (missSample s).unit = s.unit ∧ (missSample s).resetHeld =
    s.resetHeld ∧ (missSample s).now = s.now ∧ (missSample s).pending = s.pending := by
  unfold missSample
  dsimp only
  repeat' split
  all_goals simp

@[simp] theorem dueSample_frame (s : State) :
    (dueSample s).mem = s.mem ∧ (dueSample s).cx = s.cx ∧ (dueSample s).tray = s.tray ∧ (dueSample s).lamp =
    s.lamp ∧ (dueSample s).thermal = s.thermal ∧ (dueSample s).cue = s.cue ∧ (dueSample s).deck = s.deck ∧
    (dueSample s).remote = s.remote ∧ (dueSample s).unit = s.unit ∧ (dueSample s).resetHeld = s.resetHeld ∧
    (dueSample s).now = s.now ∧ (dueSample s).pending = s.pending := by
  unfold dueSample
  repeat' split
  all_goals simp

@[simp] theorem gainTickNow_frame (s : State) :
    (gainTickNow s).mem = s.mem ∧ (gainTickNow s).port = s.port ∧ (gainTickNow s).hdr = s.hdr ∧ (gainTickNow
    s).cx = s.cx ∧ (gainTickNow s).tray = s.tray ∧ (gainTickNow s).shadow = s.shadow ∧ (gainTickNow s).lamp
    = s.lamp ∧ (gainTickNow s).thermal = s.thermal ∧ (gainTickNow s).cue = s.cue ∧ (gainTickNow s).log =
    s.log ∧ (gainTickNow s).deck = s.deck ∧ (gainTickNow s).remote = s.remote ∧ (gainTickNow s).unit =
    s.unit ∧ (gainTickNow s).resetHeld = s.resetHeld ∧ (gainTickNow s).now = s.now ∧ (gainTickNow s).pending
    = s.pending := by
  unfold gainTickNow
  repeat' split
  all_goals simp

@[simp] theorem abortRequests_frame (s : State) :
    (abortRequests s).mem = s.mem ∧ (abortRequests s).port = s.port ∧ (abortRequests s).cx = s.cx ∧
    (abortRequests s).tray = s.tray ∧ (abortRequests s).shadow = s.shadow ∧ (abortRequests s).lamp = s.lamp
    ∧ (abortRequests s).thermal = s.thermal ∧ (abortRequests s).cue = s.cue ∧ (abortRequests s).deck =
    s.deck ∧ (abortRequests s).remote = s.remote ∧ (abortRequests s).unit = s.unit ∧ (abortRequests
    s).resetHeld = s.resetHeld ∧ (abortRequests s).now = s.now ∧ (abortRequests s).pending = s.pending := by
  unfold abortRequests
  dsimp only
  refine ⟨?_, ?_, ?_, ?_, ?_, ?_, ?_, ?_, ?_, ?_, ?_, ?_, ?_, ?_⟩ <;> first

    | exact (foldl_frame State.mem _ (fun s r => by simp) _ _).trans (by simp)
    | exact (foldl_frame State.port _ (fun s r => by simp) _ _).trans (by simp)
    | exact (foldl_frame State.cx _ (fun s r => by simp) _ _).trans (by simp)
    | exact (foldl_frame State.tray _ (fun s r => by simp) _ _).trans (by simp)
    | exact (foldl_frame State.shadow _ (fun s r => by simp) _ _).trans (by simp)
    | exact (foldl_frame State.lamp _ (fun s r => by simp) _ _).trans (by simp)
    | exact (foldl_frame State.thermal _ (fun s r => by simp) _ _).trans (by simp)
    | exact (foldl_frame State.cue _ (fun s r => by simp) _ _).trans (by simp)
    | exact (foldl_frame State.deck _ (fun s r => by simp) _ _).trans (by simp)
    | exact (foldl_frame State.remote _ (fun s r => by simp) _ _).trans (by simp)
    | exact (foldl_frame State.unit _ (fun s r => by simp) _ _).trans (by simp)
    | exact (foldl_frame State.resetHeld _ (fun s r => by simp) _ _).trans (by simp)
    | exact (foldl_frame State.now _ (fun s r => by simp) _ _).trans (by simp)
    | exact (foldl_frame State.pending _ (fun s r => by simp) _ _).trans (by simp)
--# trackEdge: clip cue cx deck hdr log shadow sw

@[simp] theorem abortStart_frame (s : State) :
    (abortStart s).mem = s.mem ∧ (abortStart s).port = s.port ∧ (abortStart s).cx = s.cx ∧ (abortStart
    s).tray = s.tray ∧ (abortStart s).lamp = s.lamp ∧ (abortStart s).thermal = s.thermal ∧ (abortStart
    s).cue = s.cue ∧ (abortStart s).deck = s.deck ∧ (abortStart s).remote = s.remote ∧ (abortStart s).unit =
    s.unit ∧ (abortStart s).resetHeld = s.resetHeld ∧ (abortStart s).now = s.now ∧ (abortStart s).pending =
    s.pending := by
  unfold abortStart
  repeat' split
  all_goals simp

@[simp] theorem clipStopNow_frame (s : State) :
    (clipStopNow s).mem = s.mem ∧ (clipStopNow s).port = s.port ∧ (clipStopNow s).cx = s.cx ∧ (clipStopNow
    s).tray = s.tray ∧ (clipStopNow s).lamp = s.lamp ∧ (clipStopNow s).thermal = s.thermal ∧ (clipStopNow
    s).cue = s.cue ∧ (clipStopNow s).deck = s.deck ∧ (clipStopNow s).remote = s.remote ∧ (clipStopNow
    s).unit = s.unit ∧ (clipStopNow s).resetHeld = s.resetHeld ∧ (clipStopNow s).now = s.now ∧ (clipStopNow
    s).pending = s.pending := by
  unfold clipStopNow
  dsimp only
  repeat' split
  all_goals simp

@[simp] theorem clipReset_frame (s : State) :
    (clipReset s).mem = s.mem ∧ (clipReset s).cx = s.cx ∧ (clipReset s).tray = s.tray ∧ (clipReset s).shadow
    = s.shadow ∧ (clipReset s).lamp = s.lamp ∧ (clipReset s).thermal = s.thermal ∧ (clipReset s).cue = s.cue
    ∧ (clipReset s).deck = s.deck ∧ (clipReset s).remote = s.remote ∧ (clipReset s).unit = s.unit ∧
    (clipReset s).resetHeld = s.resetHeld ∧ (clipReset s).now = s.now ∧ (clipReset s).pending = s.pending := by
  unfold clipReset
  dsimp only
  repeat' split
  all_goals simp

/-! ## Executor -/

@[simp] theorem setAction_frame (a : Action) (s : State) :
    (setAction a s).mem = s.mem ∧ (setAction a s).port = s.port ∧ (setAction a s).hdr = s.hdr ∧ (setAction a
    s).tray = s.tray ∧ (setAction a s).shadow = s.shadow ∧ (setAction a s).lamp = s.lamp ∧ (setAction a
    s).thermal = s.thermal ∧ (setAction a s).cue = s.cue ∧ (setAction a s).log = s.log ∧ (setAction a
    s).clip = s.clip ∧ (setAction a s).remote = s.remote ∧ (setAction a s).unit = s.unit ∧ (setAction a
    s).resetHeld = s.resetHeld ∧ (setAction a s).now = s.now ∧ (setAction a s).pending = s.pending := by
  unfold setAction
  simp

@[simp] theorem postResult_frame (req : ActionRequest) (source : Source) (silent : Bool) (code : ResultCode) (remaining : Nat) (lastSlot : Nat) (s : State) :
    (postResult req source silent code remaining lastSlot s).mem = s.mem ∧ (postResult req source silent
    code remaining lastSlot s).port = s.port ∧ (postResult req source silent code remaining lastSlot s).cx =
    s.cx ∧ (postResult req source silent code remaining lastSlot s).tray = s.tray ∧ (postResult req source
    silent code remaining lastSlot s).shadow = s.shadow ∧ (postResult req source silent code remaining
    lastSlot s).lamp = s.lamp ∧ (postResult req source silent code remaining lastSlot s).thermal = s.thermal
    ∧ (postResult req source silent code remaining lastSlot s).cue = s.cue ∧ (postResult req source silent
    code remaining lastSlot s).deck = s.deck ∧ (postResult req source silent code remaining lastSlot s).clip
    = s.clip ∧ (postResult req source silent code remaining lastSlot s).remote = s.remote ∧ (postResult req
    source silent code remaining lastSlot s).unit = s.unit ∧ (postResult req source silent code remaining
    lastSlot s).resetHeld = s.resetHeld ∧ (postResult req source silent code remaining lastSlot s).now =
    s.now ∧ (postResult req source silent code remaining lastSlot s).pending = s.pending := by
  unfold postResult
  repeat' split
  all_goals simp

@[simp] theorem orphanRamps_frame (s : State) :
    (orphanRamps s).mem = s.mem ∧ (orphanRamps s).port = s.port ∧ (orphanRamps s).hdr = s.hdr ∧ (orphanRamps
    s).cx = s.cx ∧ (orphanRamps s).tray = s.tray ∧ (orphanRamps s).shadow = s.shadow ∧ (orphanRamps
    s).thermal = s.thermal ∧ (orphanRamps s).cue = s.cue ∧ (orphanRamps s).log = s.log ∧ (orphanRamps
    s).deck = s.deck ∧ (orphanRamps s).clip = s.clip ∧ (orphanRamps s).remote = s.remote ∧ (orphanRamps
    s).unit = s.unit ∧ (orphanRamps s).resetHeld = s.resetHeld ∧ (orphanRamps s).now = s.now ∧ (orphanRamps
    s).pending = s.pending := by
  unfold orphanRamps
  simp

@[simp] theorem endAction_frame (code : ResultCode) (s : State) :
    (endAction code s).mem = s.mem ∧ (endAction code s).port = s.port ∧ (endAction code s).tray = s.tray ∧
    (endAction code s).shadow = s.shadow ∧ (endAction code s).thermal = s.thermal ∧ (endAction code s).cue =
    s.cue ∧ (endAction code s).clip = s.clip ∧ (endAction code s).remote = s.remote ∧ (endAction code
    s).unit = s.unit ∧ (endAction code s).resetHeld = s.resetHeld ∧ (endAction code s).now = s.now ∧
    (endAction code s).pending = s.pending := by
  unfold endAction
  dsimp only
  repeat' split
  all_goals simp

@[simp] theorem enterPhase_frame (ph : Phase) (s : State) :
    (enterPhase ph s).mem = s.mem ∧ (enterPhase ph s).port = s.port ∧ (enterPhase ph s).hdr = s.hdr ∧
    (enterPhase ph s).tray = s.tray ∧ (enterPhase ph s).shadow = s.shadow ∧ (enterPhase ph s).lamp = s.lamp
    ∧ (enterPhase ph s).thermal = s.thermal ∧ (enterPhase ph s).cue = s.cue ∧ (enterPhase ph s).log = s.log
    ∧ (enterPhase ph s).clip = s.clip ∧ (enterPhase ph s).remote = s.remote ∧ (enterPhase ph s).unit =
    s.unit ∧ (enterPhase ph s).resetHeld = s.resetHeld ∧ (enterPhase ph s).now = s.now ∧ (enterPhase ph
    s).pending = s.pending := by
  unfold enterPhase
  repeat' split
  all_goals simp

@[simp] theorem issueRequest_frame (s : State) :
    (issueRequest s).mem = s.mem ∧ (issueRequest s).port = s.port ∧ (issueRequest s).hdr = s.hdr ∧
    (issueRequest s).lamp = s.lamp ∧ (issueRequest s).thermal = s.thermal ∧ (issueRequest s).cue = s.cue ∧
    (issueRequest s).log = s.log ∧ (issueRequest s).clip = s.clip ∧ (issueRequest s).remote = s.remote ∧
    (issueRequest s).unit = s.unit ∧ (issueRequest s).resetHeld = s.resetHeld ∧ (issueRequest s).now = s.now
    ∧ (issueRequest s).pending = s.pending := by
  unfold issueRequest
  repeat' split
  all_goals simp

@[simp] theorem enterMovingOpen_frame (s : State) :
    (enterMovingOpen s).mem = s.mem ∧ (enterMovingOpen s).port = s.port ∧ (enterMovingOpen s).hdr = s.hdr ∧
    (enterMovingOpen s).lamp = s.lamp ∧ (enterMovingOpen s).thermal = s.thermal ∧ (enterMovingOpen s).cue =
    s.cue ∧ (enterMovingOpen s).log = s.log ∧ (enterMovingOpen s).clip = s.clip ∧ (enterMovingOpen s).remote
    = s.remote ∧ (enterMovingOpen s).unit = s.unit ∧ (enterMovingOpen s).resetHeld = s.resetHeld ∧
    (enterMovingOpen s).now = s.now ∧ (enterMovingOpen s).pending = s.pending := by
  unfold enterMovingOpen
  simp

@[simp] theorem enterMovingDark_frame (s : State) :
    (enterMovingDark s).mem = s.mem ∧ (enterMovingDark s).port = s.port ∧ (enterMovingDark s).hdr = s.hdr ∧
    (enterMovingDark s).thermal = s.thermal ∧ (enterMovingDark s).cue = s.cue ∧ (enterMovingDark s).log =
    s.log ∧ (enterMovingDark s).clip = s.clip ∧ (enterMovingDark s).remote = s.remote ∧ (enterMovingDark
    s).unit = s.unit ∧ (enterMovingDark s).resetHeld = s.resetHeld ∧ (enterMovingDark s).now = s.now ∧
    (enterMovingDark s).pending = s.pending := by
  unfold enterMovingDark
  dsimp only
  repeat' split
  all_goals simp

@[simp] theorem darkArrives_frame (s : State) :
    (darkArrives s).mem = s.mem ∧ (darkArrives s).port = s.port ∧ (darkArrives s).hdr = s.hdr ∧ (darkArrives
    s).thermal = s.thermal ∧ (darkArrives s).cue = s.cue ∧ (darkArrives s).log = s.log ∧ (darkArrives
    s).clip = s.clip ∧ (darkArrives s).remote = s.remote ∧ (darkArrives s).unit = s.unit ∧ (darkArrives
    s).resetHeld = s.resetHeld ∧ (darkArrives s).now = s.now ∧ (darkArrives s).pending = s.pending := by
  unfold darkArrives
  dsimp only
  repeat' split
  all_goals simp

@[simp] theorem startLinked_frame (s : State) :
    (startLinked s).mem = s.mem ∧ (startLinked s).port = s.port ∧ (startLinked s).cx = s.cx ∧ (startLinked
    s).tray = s.tray ∧ (startLinked s).lamp = s.lamp ∧ (startLinked s).thermal = s.thermal ∧ (startLinked
    s).cue = s.cue ∧ (startLinked s).deck = s.deck ∧ (startLinked s).remote = s.remote ∧ (startLinked
    s).unit = s.unit ∧ (startLinked s).resetHeld = s.resetHeld ∧ (startLinked s).now = s.now ∧ (startLinked
    s).pending = s.pending := by
  unfold startLinked
  repeat' split
  all_goals simp

@[simp] theorem restoreOrEnd_frame (s : State) :
    (restoreOrEnd s).mem = s.mem ∧ (restoreOrEnd s).port = s.port ∧ (restoreOrEnd s).tray = s.tray ∧
    (restoreOrEnd s).shadow = s.shadow ∧ (restoreOrEnd s).thermal = s.thermal ∧ (restoreOrEnd s).cue = s.cue
    ∧ (restoreOrEnd s).clip = s.clip ∧ (restoreOrEnd s).remote = s.remote ∧ (restoreOrEnd s).unit = s.unit ∧
    (restoreOrEnd s).resetHeld = s.resetHeld ∧ (restoreOrEnd s).now = s.now ∧ (restoreOrEnd s).pending =
    s.pending := by
  unfold restoreOrEnd
  repeat' split
  all_goals simp

@[simp] theorem transportCompleted_frame (c : TrayCompletion) (s : State) :
    (transportCompleted c s).mem = s.mem ∧ (transportCompleted c s).port = s.port ∧ (transportCompleted c
    s).thermal = s.thermal ∧ (transportCompleted c s).cue = s.cue ∧ (transportCompleted c s).remote =
    s.remote ∧ (transportCompleted c s).unit = s.unit ∧ (transportCompleted c s).resetHeld = s.resetHeld ∧
    (transportCompleted c s).now = s.now ∧ (transportCompleted c s).pending = s.pending := by
  unfold transportCompleted
  dsimp only
  repeat' split
  all_goals simp

@[simp] theorem beginChange_frame (req : ActionRequest) (source : Source) (s : State) :
    (beginChange req source s).mem = s.mem ∧ (beginChange req source s).port = s.port ∧ (beginChange req
    source s).hdr = s.hdr ∧ (beginChange req source s).thermal = s.thermal ∧ (beginChange req source s).cue
    = s.cue ∧ (beginChange req source s).log = s.log ∧ (beginChange req source s).clip = s.clip ∧
    (beginChange req source s).remote = s.remote ∧ (beginChange req source s).unit = s.unit ∧ (beginChange
    req source s).resetHeld = s.resetHeld ∧ (beginChange req source s).now = s.now ∧ (beginChange req source
    s).pending = s.pending := by
  unfold beginChange
  repeat' split
  all_goals simp

@[simp] theorem beginDissolve_frame (rate : Nat) (source : Source) (s : State) :
    (beginDissolve rate source s).mem = s.mem ∧ (beginDissolve rate source s).port = s.port ∧ (beginDissolve
    rate source s).hdr = s.hdr ∧ (beginDissolve rate source s).tray = s.tray ∧ (beginDissolve rate source
    s).shadow = s.shadow ∧ (beginDissolve rate source s).thermal = s.thermal ∧ (beginDissolve rate source
    s).cue = s.cue ∧ (beginDissolve rate source s).log = s.log ∧ (beginDissolve rate source s).clip = s.clip
    ∧ (beginDissolve rate source s).remote = s.remote ∧ (beginDissolve rate source s).unit = s.unit ∧
    (beginDissolve rate source s).resetHeld = s.resetHeld ∧ (beginDissolve rate source s).now = s.now ∧
    (beginDissolve rate source s).pending = s.pending := by
  unfold beginDissolve
  repeat' split
  all_goals simp

@[simp] theorem beginFade_frame (level : Nat) (rate : Nat) (source : Source) (s : State) :
    (beginFade level rate source s).mem = s.mem ∧ (beginFade level rate source s).port = s.port ∧ (beginFade
    level rate source s).hdr = s.hdr ∧ (beginFade level rate source s).tray = s.tray ∧ (beginFade level rate
    source s).shadow = s.shadow ∧ (beginFade level rate source s).thermal = s.thermal ∧ (beginFade level
    rate source s).cue = s.cue ∧ (beginFade level rate source s).log = s.log ∧ (beginFade level rate source
    s).clip = s.clip ∧ (beginFade level rate source s).remote = s.remote ∧ (beginFade level rate source
    s).unit = s.unit ∧ (beginFade level rate source s).resetHeld = s.resetHeld ∧ (beginFade level rate
    source s).now = s.now ∧ (beginFade level rate source s).pending = s.pending := by
  unfold beginFade
  dsimp only
  repeat' split
  all_goals simp

@[simp] theorem beginLampOn_frame (source : Source) (s : State) :
    (beginLampOn source s).mem = s.mem ∧ (beginLampOn source s).port = s.port ∧ (beginLampOn source s).tray
    = s.tray ∧ (beginLampOn source s).shadow = s.shadow ∧ (beginLampOn source s).cue = s.cue ∧ (beginLampOn
    source s).clip = s.clip ∧ (beginLampOn source s).remote = s.remote ∧ (beginLampOn source s).unit =
    s.unit ∧ (beginLampOn source s).resetHeld = s.resetHeld ∧ (beginLampOn source s).now = s.now ∧
    (beginLampOn source s).pending = s.pending := by
  unfold beginLampOn
  dsimp only
  repeat' split
  all_goals simp

@[simp] theorem beginLampOff_frame (source : Source) (s : State) :
    (beginLampOff source s).mem = s.mem ∧ (beginLampOff source s).port = s.port ∧ (beginLampOff source
    s).tray = s.tray ∧ (beginLampOff source s).shadow = s.shadow ∧ (beginLampOff source s).cue = s.cue ∧
    (beginLampOff source s).clip = s.clip ∧ (beginLampOff source s).remote = s.remote ∧ (beginLampOff source
    s).unit = s.unit ∧ (beginLampOff source s).resetHeld = s.resetHeld ∧ (beginLampOff source s).now = s.now
    ∧ (beginLampOff source s).pending = s.pending := by
  unfold beginLampOff
  dsimp only
  repeat' split
  all_goals simp

@[simp] theorem beginAction_frame (req : ActionRequest) (source : Source) (s : State) :
    (beginAction req source s).mem = s.mem ∧ (beginAction req source s).port = s.port ∧ (beginAction req
    source s).cue = s.cue ∧ (beginAction req source s).clip = s.clip ∧ (beginAction req source s).remote =
    s.remote ∧ (beginAction req source s).unit = s.unit ∧ (beginAction req source s).resetHeld = s.resetHeld
    ∧ (beginAction req source s).now = s.now ∧ (beginAction req source s).pending = s.pending := by
  unfold beginAction
  repeat' split
  all_goals simp

@[simp] theorem takeUp_frame (req : ActionRequest) (source : Source) (s : State) :
    (takeUp req source s).mem = s.mem ∧ (takeUp req source s).port = s.port ∧ (takeUp req source s).cue =
    s.cue ∧ (takeUp req source s).clip = s.clip ∧ (takeUp req source s).remote = s.remote ∧ (takeUp req
    source s).unit = s.unit ∧ (takeUp req source s).resetHeld = s.resetHeld ∧ (takeUp req source s).now =
    s.now ∧ (takeUp req source s).pending = s.pending := by
  unfold takeUp
  repeat' split
  all_goals simp

@[simp] theorem arbitrate_frame (s : State) :
    (arbitrate s).mem = s.mem ∧ (arbitrate s).port = s.port ∧ (arbitrate s).cue = s.cue ∧ (arbitrate s).clip
    = s.clip ∧ (arbitrate s).unit = s.unit ∧ (arbitrate s).resetHeld = s.resetHeld ∧ (arbitrate s).now =
    s.now ∧ (arbitrate s).pending = s.pending := by
  unfold arbitrate
  repeat' split
  all_goals simp

@[simp] theorem rampCourse_frame (s : State) :
    (rampCourse s).mem = s.mem ∧ (rampCourse s).port = s.port ∧ (rampCourse s).thermal = s.thermal ∧
    (rampCourse s).cue = s.cue ∧ (rampCourse s).clip = s.clip ∧ (rampCourse s).remote = s.remote ∧
    (rampCourse s).unit = s.unit ∧ (rampCourse s).resetHeld = s.resetHeld ∧ (rampCourse s).now = s.now ∧
    (rampCourse s).pending = s.pending := by
  unfold rampCourse
  repeat' split
  all_goals simp

@[simp] theorem rampArrives_frame (s : State) :
    (rampArrives s).mem = s.mem ∧ (rampArrives s).port = s.port ∧ (rampArrives s).cue = s.cue ∧ (rampArrives
    s).clip = s.clip ∧ (rampArrives s).remote = s.remote ∧ (rampArrives s).unit = s.unit ∧ (rampArrives
    s).resetHeld = s.resetHeld ∧ (rampArrives s).now = s.now ∧ (rampArrives s).pending = s.pending := by
  unfold rampArrives
  dsimp only
  repeat' split
  all_goals simp

@[simp] theorem stopAction_frame (silent : Bool) (s : State) :
    (stopAction silent s).mem = s.mem ∧ (stopAction silent s).port = s.port ∧ (stopAction silent s).thermal
    = s.thermal ∧ (stopAction silent s).cue = s.cue ∧ (stopAction silent s).clip = s.clip ∧ (stopAction
    silent s).remote = s.remote ∧ (stopAction silent s).unit = s.unit ∧ (stopAction silent s).resetHeld =
    s.resetHeld ∧ (stopAction silent s).now = s.now ∧ (stopAction silent s).pending = s.pending := by
  unfold stopAction
  dsimp only
  repeat' split
  all_goals simp

@[simp] theorem stopPending_frame (s : State) :
    (stopPending s).mem = s.mem ∧ (stopPending s).port = s.port ∧ (stopPending s).tray = s.tray ∧
    (stopPending s).shadow = s.shadow ∧ (stopPending s).lamp = s.lamp ∧ (stopPending s).thermal = s.thermal
    ∧ (stopPending s).cue = s.cue ∧ (stopPending s).log = s.log ∧ (stopPending s).clip = s.clip ∧
    (stopPending s).remote = s.remote ∧ (stopPending s).unit = s.unit ∧ (stopPending s).resetHeld =
    s.resetHeld ∧ (stopPending s).now = s.now ∧ (stopPending s).pending = s.pending := by
  unfold stopPending
  repeat' split
  all_goals simp

@[simp] theorem stopExecutor_frame (s : State) :
    (stopExecutor s).mem = s.mem ∧ (stopExecutor s).port = s.port ∧ (stopExecutor s).thermal = s.thermal ∧
    (stopExecutor s).cue = s.cue ∧ (stopExecutor s).clip = s.clip ∧ (stopExecutor s).remote = s.remote ∧
    (stopExecutor s).unit = s.unit ∧ (stopExecutor s).resetHeld = s.resetHeld ∧ (stopExecutor s).now = s.now
    ∧ (stopExecutor s).pending = s.pending := by
  unfold stopExecutor
  simp

@[simp] theorem emptySources_frame (s : State) :
    (emptySources s).mem = s.mem ∧ (emptySources s).port = s.port ∧ (emptySources s).hdr = s.hdr ∧
    (emptySources s).tray = s.tray ∧ (emptySources s).shadow = s.shadow ∧ (emptySources s).lamp = s.lamp ∧
    (emptySources s).thermal = s.thermal ∧ (emptySources s).cue = s.cue ∧ (emptySources s).log = s.log ∧
    (emptySources s).clip = s.clip ∧ (emptySources s).unit = s.unit ∧ (emptySources s).resetHeld =
    s.resetHeld ∧ (emptySources s).now = s.now ∧ (emptySources s).pending = s.pending := by
  unfold emptySources
  simp

@[simp] theorem resetExecutor_frame (s : State) :
    (resetExecutor s).mem = s.mem ∧ (resetExecutor s).port = s.port ∧ (resetExecutor s).thermal = s.thermal
    ∧ (resetExecutor s).cue = s.cue ∧ (resetExecutor s).clip = s.clip ∧ (resetExecutor s).unit = s.unit ∧
    (resetExecutor s).resetHeld = s.resetHeld ∧ (resetExecutor s).now = s.now ∧ (resetExecutor s).pending =
    s.pending := by
  unfold resetExecutor
  dsimp only
  simp

@[simp] theorem standbyExecutor_frame (s : State) :
    (standbyExecutor s).mem = s.mem ∧ (standbyExecutor s).port = s.port ∧ (standbyExecutor s).cue = s.cue ∧
    (standbyExecutor s).clip = s.clip ∧ (standbyExecutor s).unit = s.unit ∧ (standbyExecutor s).resetHeld =
    s.resetHeld ∧ (standbyExecutor s).now = s.now ∧ (standbyExecutor s).pending = s.pending := by
  unfold standbyExecutor
  dsimp only
  repeat' split
  all_goals simp

/-! ## CueTrackOps -/

@[simp] theorem holdCue_frame (p : Nat) (s : State) :
    (holdCue p s).mem = s.mem ∧ (holdCue p s).port = s.port ∧ (holdCue p s).hdr = s.hdr ∧ (holdCue p s).cx =
    s.cx ∧ (holdCue p s).tray = s.tray ∧ (holdCue p s).shadow = s.shadow ∧ (holdCue p s).lamp = s.lamp ∧
    (holdCue p s).thermal = s.thermal ∧ (holdCue p s).cue = s.cue ∧ (holdCue p s).log = s.log ∧ (holdCue p
    s).clip = s.clip ∧ (holdCue p s).remote = s.remote ∧ (holdCue p s).unit = s.unit ∧ (holdCue p
    s).resetHeld = s.resetHeld ∧ (holdCue p s).now = s.now ∧ (holdCue p s).pending = s.pending := by
  unfold holdCue
  repeat' split
  all_goals simp

@[simp] theorem releaseDeck_frame (s : State) :
    (releaseDeck s).mem = s.mem ∧ (releaseDeck s).port = s.port ∧ (releaseDeck s).hdr = s.hdr ∧ (releaseDeck
    s).cx = s.cx ∧ (releaseDeck s).tray = s.tray ∧ (releaseDeck s).shadow = s.shadow ∧ (releaseDeck s).lamp
    = s.lamp ∧ (releaseDeck s).thermal = s.thermal ∧ (releaseDeck s).cue = s.cue ∧ (releaseDeck s).log =
    s.log ∧ (releaseDeck s).clip = s.clip ∧ (releaseDeck s).remote = s.remote ∧ (releaseDeck s).unit =
    s.unit ∧ (releaseDeck s).resetHeld = s.resetHeld ∧ (releaseDeck s).now = s.now ∧ (releaseDeck s).pending
    = s.pending := by
  unfold releaseDeck
  simp

@[simp] theorem holdExpiry_frame (s : State) :
    (holdExpiry s).mem = s.mem ∧ (holdExpiry s).port = s.port ∧ (holdExpiry s).hdr = s.hdr ∧ (holdExpiry
    s).cx = s.cx ∧ (holdExpiry s).tray = s.tray ∧ (holdExpiry s).shadow = s.shadow ∧ (holdExpiry s).lamp =
    s.lamp ∧ (holdExpiry s).thermal = s.thermal ∧ (holdExpiry s).cue = s.cue ∧ (holdExpiry s).log = s.log ∧
    (holdExpiry s).clip = s.clip ∧ (holdExpiry s).remote = s.remote ∧ (holdExpiry s).unit = s.unit ∧
    (holdExpiry s).resetHeld = s.resetHeld ∧ (holdExpiry s).now = s.now ∧ (holdExpiry s).pending = s.pending := by
  unfold holdExpiry
  repeat' split
  all_goals simp

@[simp] theorem routeSequenced_frame (kind : SeqKind) (u : Nat) (k : Nat) (param : Nat) (tapeTime : Nat) (injected : Bool) (s : State) :
    (routeSequenced kind u k param tapeTime injected s).mem = s.mem ∧ (routeSequenced kind u k param
    tapeTime injected s).port = s.port ∧ (routeSequenced kind u k param tapeTime injected s).hdr = s.hdr ∧
    (routeSequenced kind u k param tapeTime injected s).tray = s.tray ∧ (routeSequenced kind u k param
    tapeTime injected s).shadow = s.shadow ∧ (routeSequenced kind u k param tapeTime injected s).lamp =
    s.lamp ∧ (routeSequenced kind u k param tapeTime injected s).thermal = s.thermal ∧ (routeSequenced kind
    u k param tapeTime injected s).cue = s.cue ∧ (routeSequenced kind u k param tapeTime injected s).clip =
    s.clip ∧ (routeSequenced kind u k param tapeTime injected s).remote = s.remote ∧ (routeSequenced kind u
    k param tapeTime injected s).unit = s.unit ∧ (routeSequenced kind u k param tapeTime injected
    s).resetHeld = s.resetHeld ∧ (routeSequenced kind u k param tapeTime injected s).now = s.now ∧
    (routeSequenced kind u k param tapeTime injected s).pending = s.pending := by
  unfold routeSequenced
  dsimp only
  repeat' split
  all_goals simp

@[simp] theorem routeImmediate_frame (u : Nat) (k : Nat) (param : Nat) (tapeTime : Nat) (injected : Bool) (s : State) :
    (routeImmediate u k param tapeTime injected s).mem = s.mem ∧ (routeImmediate u k param tapeTime injected
    s).port = s.port ∧ (routeImmediate u k param tapeTime injected s).cx = s.cx ∧ (routeImmediate u k param
    tapeTime injected s).tray = s.tray ∧ (routeImmediate u k param tapeTime injected s).lamp = s.lamp ∧
    (routeImmediate u k param tapeTime injected s).thermal = s.thermal ∧ (routeImmediate u k param tapeTime
    injected s).cue = s.cue ∧ (routeImmediate u k param tapeTime injected s).remote = s.remote ∧
    (routeImmediate u k param tapeTime injected s).unit = s.unit ∧ (routeImmediate u k param tapeTime
    injected s).resetHeld = s.resetHeld ∧ (routeImmediate u k param tapeTime injected s).now = s.now ∧
    (routeImmediate u k param tapeTime injected s).pending = s.pending := by
  unfold routeImmediate
  dsimp only
  repeat' split
  all_goals simp

@[simp] theorem routeFrame_frame (u : Nat) (k : Nat) (param : Nat) (tapeTime : Nat) (injected : Bool) (s : State) :
    (routeFrame u k param tapeTime injected s).mem = s.mem ∧ (routeFrame u k param tapeTime injected s).port
    = s.port ∧ (routeFrame u k param tapeTime injected s).tray = s.tray ∧ (routeFrame u k param tapeTime
    injected s).lamp = s.lamp ∧ (routeFrame u k param tapeTime injected s).thermal = s.thermal ∧ (routeFrame
    u k param tapeTime injected s).cue = s.cue ∧ (routeFrame u k param tapeTime injected s).remote =
    s.remote ∧ (routeFrame u k param tapeTime injected s).unit = s.unit ∧ (routeFrame u k param tapeTime
    injected s).resetHeld = s.resetHeld ∧ (routeFrame u k param tapeTime injected s).now = s.now ∧
    (routeFrame u k param tapeTime injected s).pending = s.pending := by
  unfold routeFrame
  repeat' split
  all_goals simp

@[simp] theorem failFrame_frame (cause : FrameCause) (count : Nat) (s : State) :
    (failFrame cause count s).mem = s.mem ∧ (failFrame cause count s).port = s.port ∧ (failFrame cause count
    s).hdr = s.hdr ∧ (failFrame cause count s).cx = s.cx ∧ (failFrame cause count s).tray = s.tray ∧
    (failFrame cause count s).shadow = s.shadow ∧ (failFrame cause count s).lamp = s.lamp ∧ (failFrame cause
    count s).thermal = s.thermal ∧ (failFrame cause count s).deck = s.deck ∧ (failFrame cause count s).clip
    = s.clip ∧ (failFrame cause count s).remote = s.remote ∧ (failFrame cause count s).unit = s.unit ∧
    (failFrame cause count s).resetHeld = s.resetHeld ∧ (failFrame cause count s).now = s.now ∧ (failFrame
    cause count s).pending = s.pending := by
  unfold failFrame
  dsimp only
  repeat' split
  all_goals simp

@[simp] theorem failProgress_frame (s : State) :
    (failProgress s).mem = s.mem ∧ (failProgress s).port = s.port ∧ (failProgress s).hdr = s.hdr ∧
    (failProgress s).cx = s.cx ∧ (failProgress s).tray = s.tray ∧ (failProgress s).shadow = s.shadow ∧
    (failProgress s).lamp = s.lamp ∧ (failProgress s).thermal = s.thermal ∧ (failProgress s).deck = s.deck ∧
    (failProgress s).clip = s.clip ∧ (failProgress s).remote = s.remote ∧ (failProgress s).unit = s.unit ∧
    (failProgress s).resetHeld = s.resetHeld ∧ (failProgress s).now = s.now ∧ (failProgress s).pending =
    s.pending := by
  unfold failProgress
  repeat' split
  all_goals simp

@[simp] theorem completeFrame_frame (nibbles : List Nat) (endTime : Nat) (s : State) :
    (completeFrame nibbles endTime s).mem = s.mem ∧ (completeFrame nibbles endTime s).port = s.port ∧
    (completeFrame nibbles endTime s).tray = s.tray ∧ (completeFrame nibbles endTime s).lamp = s.lamp ∧
    (completeFrame nibbles endTime s).thermal = s.thermal ∧ (completeFrame nibbles endTime s).remote =
    s.remote ∧ (completeFrame nibbles endTime s).unit = s.unit ∧ (completeFrame nibbles endTime s).resetHeld
    = s.resetHeld ∧ (completeFrame nibbles endTime s).now = s.now ∧ (completeFrame nibbles endTime
    s).pending = s.pending := by
  unfold completeFrame
  dsimp only
  repeat' split
  all_goals simp

@[simp] theorem toHunt_frame (s : State) :
    (toHunt s).mem = s.mem ∧ (toHunt s).port = s.port ∧ (toHunt s).hdr = s.hdr ∧ (toHunt s).cx = s.cx ∧
    (toHunt s).tray = s.tray ∧ (toHunt s).shadow = s.shadow ∧ (toHunt s).lamp = s.lamp ∧ (toHunt s).thermal
    = s.thermal ∧ (toHunt s).log = s.log ∧ (toHunt s).deck = s.deck ∧ (toHunt s).clip = s.clip ∧ (toHunt
    s).remote = s.remote ∧ (toHunt s).unit = s.unit ∧ (toHunt s).resetHeld = s.resetHeld ∧ (toHunt s).now =
    s.now ∧ (toHunt s).pending = s.pending := by
  unfold toHunt
  simp

@[simp] theorem beginFrame_frame (s : State) :
    (beginFrame s).mem = s.mem ∧ (beginFrame s).port = s.port ∧ (beginFrame s).hdr = s.hdr ∧ (beginFrame
    s).cx = s.cx ∧ (beginFrame s).tray = s.tray ∧ (beginFrame s).shadow = s.shadow ∧ (beginFrame s).lamp =
    s.lamp ∧ (beginFrame s).thermal = s.thermal ∧ (beginFrame s).log = s.log ∧ (beginFrame s).deck = s.deck
    ∧ (beginFrame s).clip = s.clip ∧ (beginFrame s).remote = s.remote ∧ (beginFrame s).unit = s.unit ∧
    (beginFrame s).resetHeld = s.resetHeld ∧ (beginFrame s).now = s.now ∧ (beginFrame s).pending = s.pending := by
  unfold beginFrame
  simp

@[simp] theorem storeNibble_frame (v : Nat) (s : State) :
    (storeNibble v s).mem = s.mem ∧ (storeNibble v s).port = s.port ∧ (storeNibble v s).hdr = s.hdr ∧
    (storeNibble v s).cx = s.cx ∧ (storeNibble v s).tray = s.tray ∧ (storeNibble v s).shadow = s.shadow ∧
    (storeNibble v s).lamp = s.lamp ∧ (storeNibble v s).thermal = s.thermal ∧ (storeNibble v s).log = s.log
    ∧ (storeNibble v s).deck = s.deck ∧ (storeNibble v s).clip = s.clip ∧ (storeNibble v s).remote =
    s.remote ∧ (storeNibble v s).unit = s.unit ∧ (storeNibble v s).resetHeld = s.resetHeld ∧ (storeNibble v
    s).now = s.now ∧ (storeNibble v s).pending = s.pending := by
  unfold storeNibble
  dsimp only
  repeat' split
  all_goals simp

@[simp] theorem takeGroup_frame (g : CueGroup) (time : Nat) (s : State) :
    (takeGroup g time s).mem = s.mem ∧ (takeGroup g time s).port = s.port ∧ (takeGroup g time s).tray =
    s.tray ∧ (takeGroup g time s).lamp = s.lamp ∧ (takeGroup g time s).thermal = s.thermal ∧ (takeGroup g
    time s).remote = s.remote ∧ (takeGroup g time s).unit = s.unit ∧ (takeGroup g time s).resetHeld =
    s.resetHeld ∧ (takeGroup g time s).now = s.now ∧ (takeGroup g time s).pending = s.pending := by
  unfold takeGroup
  repeat' split
  all_goals simp

@[simp] theorem takeChip_frame (chip : Bool) (time : Nat) (s : State) :
    (takeChip chip time s).mem = s.mem ∧ (takeChip chip time s).port = s.port ∧ (takeChip chip time s).tray
    = s.tray ∧ (takeChip chip time s).lamp = s.lamp ∧ (takeChip chip time s).thermal = s.thermal ∧ (takeChip
    chip time s).remote = s.remote ∧ (takeChip chip time s).unit = s.unit ∧ (takeChip chip time s).resetHeld
    = s.resetHeld ∧ (takeChip chip time s).now = s.now ∧ (takeChip chip time s).pending = s.pending := by
  unfold takeChip
  dsimp only
  repeat' split
  all_goals simp

@[simp] theorem takeChips_frame (tone : Bool) (time k : Nat) (s : State) :
    (takeChips tone time k s).mem = s.mem ∧ (takeChips tone time k s).port = s.port ∧ (takeChips tone time k
    s).tray = s.tray ∧ (takeChips tone time k s).lamp = s.lamp ∧ (takeChips tone time k s).thermal =
    s.thermal ∧ (takeChips tone time k s).remote = s.remote ∧ (takeChips tone time k s).unit = s.unit ∧
    (takeChips tone time k s).resetHeld = s.resetHeld ∧ (takeChips tone time k s).now = s.now ∧ (takeChips
    tone time k s).pending = s.pending := by
  induction k generalizing s with
  | zero => simp [takeChips]
  | succ k ih => simp [takeChips, ih]
--# cueEdge: clip cue cx deck hdr log shadow sw
--# cueEdges: clip cue cx deck hdr log shadow sw

@[simp] theorem trackEdge_frame (e : CueEdge) (time : Nat) (s : State) :
    (trackEdge e time s).mem = s.mem ∧ (trackEdge e time s).port = s.port ∧ (trackEdge e time s).tray =
    s.tray ∧ (trackEdge e time s).lamp = s.lamp ∧ (trackEdge e time s).thermal = s.thermal ∧ (trackEdge e
    time s).remote = s.remote ∧ (trackEdge e time s).unit = s.unit ∧ (trackEdge e time s).resetHeld =
    s.resetHeld ∧ (trackEdge e time s).now = s.now ∧ (trackEdge e time s).pending = s.pending := by
  unfold trackEdge
  dsimp only
  repeat' split
  all_goals simp

@[simp] theorem startRun_frame (time : Nat) (s : State) :
    (startRun time s).mem = s.mem ∧ (startRun time s).port = s.port ∧ (startRun time s).hdr = s.hdr ∧
    (startRun time s).cx = s.cx ∧ (startRun time s).tray = s.tray ∧ (startRun time s).shadow = s.shadow ∧
    (startRun time s).lamp = s.lamp ∧ (startRun time s).thermal = s.thermal ∧ (startRun time s).log = s.log
    ∧ (startRun time s).deck = s.deck ∧ (startRun time s).clip = s.clip ∧ (startRun time s).remote =
    s.remote ∧ (startRun time s).unit = s.unit ∧ (startRun time s).resetHeld = s.resetHeld ∧ (startRun time
    s).now = s.now ∧ (startRun time s).pending = s.pending := by
  unfold startRun
  simp

@[simp] theorem acquireCarrier_frame (intervals : List Nat) (time : Nat) (s : State) :
    (acquireCarrier intervals time s).mem = s.mem ∧ (acquireCarrier intervals time s).port = s.port ∧
    (acquireCarrier intervals time s).hdr = s.hdr ∧ (acquireCarrier intervals time s).cx = s.cx ∧
    (acquireCarrier intervals time s).tray = s.tray ∧ (acquireCarrier intervals time s).shadow = s.shadow ∧
    (acquireCarrier intervals time s).lamp = s.lamp ∧ (acquireCarrier intervals time s).thermal = s.thermal
    ∧ (acquireCarrier intervals time s).log = s.log ∧ (acquireCarrier intervals time s).deck = s.deck ∧
    (acquireCarrier intervals time s).clip = s.clip ∧ (acquireCarrier intervals time s).remote = s.remote ∧
    (acquireCarrier intervals time s).unit = s.unit ∧ (acquireCarrier intervals time s).resetHeld =
    s.resetHeld ∧ (acquireCarrier intervals time s).now = s.now ∧ (acquireCarrier intervals time s).pending
    = s.pending := by
  unfold acquireCarrier
  simp

@[simp] theorem acquireEdge_frame (e : CueEdge) (time : Nat) (s : State) :
    (acquireEdge e time s).mem = s.mem ∧ (acquireEdge e time s).port = s.port ∧ (acquireEdge e time s).hdr =
    s.hdr ∧ (acquireEdge e time s).cx = s.cx ∧ (acquireEdge e time s).tray = s.tray ∧ (acquireEdge e time
    s).shadow = s.shadow ∧ (acquireEdge e time s).lamp = s.lamp ∧ (acquireEdge e time s).thermal = s.thermal
    ∧ (acquireEdge e time s).log = s.log ∧ (acquireEdge e time s).deck = s.deck ∧ (acquireEdge e time
    s).clip = s.clip ∧ (acquireEdge e time s).remote = s.remote ∧ (acquireEdge e time s).unit = s.unit ∧
    (acquireEdge e time s).resetHeld = s.resetHeld ∧ (acquireEdge e time s).now = s.now ∧ (acquireEdge e
    time s).pending = s.pending := by
  unfold acquireEdge
  dsimp only
  repeat' split
  all_goals simp

@[simp] theorem dropCarrier_frame (s : State) :
    (dropCarrier s).mem = s.mem ∧ (dropCarrier s).port = s.port ∧ (dropCarrier s).hdr = s.hdr ∧ (dropCarrier
    s).cx = s.cx ∧ (dropCarrier s).tray = s.tray ∧ (dropCarrier s).shadow = s.shadow ∧ (dropCarrier s).lamp
    = s.lamp ∧ (dropCarrier s).thermal = s.thermal ∧ (dropCarrier s).deck = s.deck ∧ (dropCarrier s).clip =
    s.clip ∧ (dropCarrier s).remote = s.remote ∧ (dropCarrier s).unit = s.unit ∧ (dropCarrier s).resetHeld =
    s.resetHeld ∧ (dropCarrier s).now = s.now ∧ (dropCarrier s).pending = s.pending := by
  unfold dropCarrier
  dsimp only
  repeat' split
  all_goals simp

@[simp] theorem cueEdge_frame (e : CueEdge) (s : State) :
    (cueEdge e s).mem = s.mem ∧ (cueEdge e s).port = s.port ∧ (cueEdge e s).tray = s.tray ∧ (cueEdge e
    s).lamp = s.lamp ∧ (cueEdge e s).thermal = s.thermal ∧ (cueEdge e s).remote = s.remote ∧ (cueEdge e
    s).unit = s.unit ∧ (cueEdge e s).resetHeld = s.resetHeld ∧ (cueEdge e s).now = s.now ∧ (cueEdge e
    s).pending = s.pending := by
  unfold cueEdge
  dsimp only
  repeat' split
  all_goals simp

@[simp] theorem cueEdges_frame (edges : List CueEdge) (s : State) :
    (cueEdges edges s).mem = s.mem ∧ (cueEdges edges s).port = s.port ∧ (cueEdges edges s).tray = s.tray ∧
    (cueEdges edges s).lamp = s.lamp ∧ (cueEdges edges s).thermal = s.thermal ∧ (cueEdges edges s).remote =
    s.remote ∧ (cueEdges edges s).unit = s.unit ∧ (cueEdges edges s).resetHeld = s.resetHeld ∧ (cueEdges
    edges s).now = s.now ∧ (cueEdges edges s).pending = s.pending := by
  unfold cueEdges
  refine ⟨?_, ?_, ?_, ?_, ?_, ?_, ?_, ?_, ?_, ?_⟩ <;> first

    | exact foldl_frame State.mem _ (fun s r => by simp) _ _
    | exact foldl_frame State.port _ (fun s r => by simp) _ _
    | exact foldl_frame State.tray _ (fun s r => by simp) _ _
    | exact foldl_frame State.lamp _ (fun s r => by simp) _ _
    | exact foldl_frame State.thermal _ (fun s r => by simp) _ _
    | exact foldl_frame State.remote _ (fun s r => by simp) _ _
    | exact foldl_frame State.unit _ (fun s r => by simp) _ _
    | exact foldl_frame State.resetHeld _ (fun s r => by simp) _ _
    | exact foldl_frame State.now _ (fun s r => by simp) _ _
    | exact foldl_frame State.pending _ (fun s r => by simp) _ _

@[simp] theorem loseCarrier_frame (s : State) :
    (loseCarrier s).mem = s.mem ∧ (loseCarrier s).port = s.port ∧ (loseCarrier s).hdr = s.hdr ∧ (loseCarrier
    s).cx = s.cx ∧ (loseCarrier s).tray = s.tray ∧ (loseCarrier s).shadow = s.shadow ∧ (loseCarrier s).lamp
    = s.lamp ∧ (loseCarrier s).thermal = s.thermal ∧ (loseCarrier s).deck = s.deck ∧ (loseCarrier s).clip =
    s.clip ∧ (loseCarrier s).remote = s.remote ∧ (loseCarrier s).unit = s.unit ∧ (loseCarrier s).resetHeld =
    s.resetHeld ∧ (loseCarrier s).now = s.now ∧ (loseCarrier s).pending = s.pending := by
  unfold loseCarrier
  split <;> simp

@[simp] theorem discardFrame_frame (s : State) :
    (discardFrame s).mem = s.mem ∧ (discardFrame s).port = s.port ∧ (discardFrame s).hdr = s.hdr ∧
    (discardFrame s).cx = s.cx ∧ (discardFrame s).tray = s.tray ∧ (discardFrame s).shadow = s.shadow ∧
    (discardFrame s).lamp = s.lamp ∧ (discardFrame s).thermal = s.thermal ∧ (discardFrame s).log = s.log ∧
    (discardFrame s).deck = s.deck ∧ (discardFrame s).clip = s.clip ∧ (discardFrame s).remote = s.remote ∧
    (discardFrame s).unit = s.unit ∧ (discardFrame s).resetHeld = s.resetHeld ∧ (discardFrame s).now = s.now
    ∧ (discardFrame s).pending = s.pending := by
  unfold discardFrame
  simp

@[simp] theorem standbyDecoder_frame (s : State) :
    (standbyDecoder s).mem = s.mem ∧ (standbyDecoder s).port = s.port ∧ (standbyDecoder s).hdr = s.hdr ∧
    (standbyDecoder s).cx = s.cx ∧ (standbyDecoder s).tray = s.tray ∧ (standbyDecoder s).shadow = s.shadow ∧
    (standbyDecoder s).lamp = s.lamp ∧ (standbyDecoder s).thermal = s.thermal ∧ (standbyDecoder s).log =
    s.log ∧ (standbyDecoder s).deck = s.deck ∧ (standbyDecoder s).clip = s.clip ∧ (standbyDecoder s).remote
    = s.remote ∧ (standbyDecoder s).unit = s.unit ∧ (standbyDecoder s).resetHeld = s.resetHeld ∧
    (standbyDecoder s).now = s.now ∧ (standbyDecoder s).pending = s.pending := by
  unfold standbyDecoder
  dsimp only
  simp

@[simp] theorem tapeFrame_frame (nibbles intervals : List Nat) (s : State) :
    (tapeFrame nibbles intervals s).mem = s.mem ∧ (tapeFrame nibbles intervals s).port = s.port ∧ (tapeFrame
    nibbles intervals s).tray = s.tray ∧ (tapeFrame nibbles intervals s).lamp = s.lamp ∧ (tapeFrame nibbles
    intervals s).thermal = s.thermal ∧ (tapeFrame nibbles intervals s).remote = s.remote ∧ (tapeFrame nibbles
    intervals s).unit = s.unit ∧ (tapeFrame nibbles intervals s).resetHeld = s.resetHeld ∧ (tapeFrame nibbles
    intervals s).now = s.now ∧ (tapeFrame nibbles intervals s).pending = s.pending := by
  unfold tapeFrame
  dsimp only
  repeat' split
  all_goals simp

@[simp] theorem tapeTickNow_frame (s : State) :
    (tapeTickNow s).mem = s.mem ∧ (tapeTickNow s).port = s.port ∧ (tapeTickNow s).hdr = s.hdr ∧ (tapeTickNow
    s).cx = s.cx ∧ (tapeTickNow s).tray = s.tray ∧ (tapeTickNow s).shadow = s.shadow ∧ (tapeTickNow s).lamp
    = s.lamp ∧ (tapeTickNow s).thermal = s.thermal ∧ (tapeTickNow s).log = s.log ∧ (tapeTickNow s).deck =
    s.deck ∧ (tapeTickNow s).clip = s.clip ∧ (tapeTickNow s).remote = s.remote ∧ (tapeTickNow s).unit =
    s.unit ∧ (tapeTickNow s).resetHeld = s.resetHeld ∧ (tapeTickNow s).now = s.now ∧ (tapeTickNow s).pending
    = s.pending := by
  unfold tapeTickNow
  repeat' split
  all_goals simp

@[simp] theorem logLanded_frame (s : State) :
    (logLanded s).mem = s.mem ∧ (logLanded s).port = s.port ∧ (logLanded s).hdr = s.hdr ∧ (logLanded s).cx =
    s.cx ∧ (logLanded s).tray = s.tray ∧ (logLanded s).shadow = s.shadow ∧ (logLanded s).lamp = s.lamp ∧
    (logLanded s).thermal = s.thermal ∧ (logLanded s).cue = s.cue ∧ (logLanded s).deck = s.deck ∧ (logLanded
    s).clip = s.clip ∧ (logLanded s).remote = s.remote ∧ (logLanded s).unit = s.unit ∧ (logLanded
    s).resetHeld = s.resetHeld ∧ (logLanded s).now = s.now ∧ (logLanded s).pending = s.pending := by
  unfold logLanded
  repeat' split
  all_goals simp

@[simp] theorem handRingRd_frame (v : Nat) (s : State) :
    (handRingRd v s).mem = s.mem ∧ (handRingRd v s).port = s.port ∧ (handRingRd v s).hdr = s.hdr ∧
    (handRingRd v s).cx = s.cx ∧ (handRingRd v s).tray = s.tray ∧ (handRingRd v s).shadow = s.shadow ∧
    (handRingRd v s).lamp = s.lamp ∧ (handRingRd v s).thermal = s.thermal ∧ (handRingRd v s).cue = s.cue ∧
    (handRingRd v s).deck = s.deck ∧ (handRingRd v s).clip = s.clip ∧ (handRingRd v s).remote = s.remote ∧
    (handRingRd v s).unit = s.unit ∧ (handRingRd v s).resetHeld = s.resetHeld ∧ (handRingRd v s).now = s.now
    ∧ (handRingRd v s).pending = s.pending := by
  unfold handRingRd
  repeat' split
  all_goals simp

@[simp] theorem freshRing_frame (s : State) :
    (freshRing s).mem = s.mem ∧ (freshRing s).cx = s.cx ∧ (freshRing s).tray = s.tray ∧ (freshRing s).shadow
    = s.shadow ∧ (freshRing s).lamp = s.lamp ∧ (freshRing s).thermal = s.thermal ∧ (freshRing s).cue = s.cue
    ∧ (freshRing s).deck = s.deck ∧ (freshRing s).clip = s.clip ∧ (freshRing s).remote = s.remote ∧
    (freshRing s).unit = s.unit ∧ (freshRing s).resetHeld = s.resetHeld ∧ (freshRing s).now = s.now ∧
    (freshRing s).pending = s.pending := by
  unfold freshRing
  dsimp only
  simp

@[simp] theorem cueTrackReset_frame (s : State) :
    (cueTrackReset s).mem = s.mem ∧ (cueTrackReset s).port = s.port ∧ (cueTrackReset s).hdr = s.hdr ∧
    (cueTrackReset s).cx = s.cx ∧ (cueTrackReset s).tray = s.tray ∧ (cueTrackReset s).shadow = s.shadow ∧
    (cueTrackReset s).lamp = s.lamp ∧ (cueTrackReset s).thermal = s.thermal ∧ (cueTrackReset s).log = s.log
    ∧ (cueTrackReset s).clip = s.clip ∧ (cueTrackReset s).remote = s.remote ∧ (cueTrackReset s).unit =
    s.unit ∧ (cueTrackReset s).resetHeld = s.resetHeld ∧ (cueTrackReset s).now = s.now ∧ (cueTrackReset
    s).pending = s.pending := by
  unfold cueTrackReset
  dsimp only
  simp

/-! ## RemoteOps -/

@[simp] theorem wakeUnit_frame (s : State) :
    (wakeUnit s).mem = s.mem ∧ (wakeUnit s).port = s.port ∧ (wakeUnit s).hdr = s.hdr ∧ (wakeUnit s).cx =
    s.cx ∧ (wakeUnit s).tray = s.tray ∧ (wakeUnit s).shadow = s.shadow ∧ (wakeUnit s).lamp = s.lamp ∧
    (wakeUnit s).cue = s.cue ∧ (wakeUnit s).log = s.log ∧ (wakeUnit s).deck = s.deck ∧ (wakeUnit s).clip =
    s.clip ∧ (wakeUnit s).remote = s.remote ∧ (wakeUnit s).unit = s.unit ∧ (wakeUnit s).resetHeld =
    s.resetHeld ∧ (wakeUnit s).now = s.now ∧ (wakeUnit s).pending = s.pending := by
  unfold wakeUnit
  repeat' split
  all_goals simp

@[simp] theorem endFocusCommand_frame (run : FocusRun) (code : ResultCode) (s : State) :
    (endFocusCommand run code s).mem = s.mem ∧ (endFocusCommand run code s).port = s.port ∧ (endFocusCommand
    run code s).cx = s.cx ∧ (endFocusCommand run code s).tray = s.tray ∧ (endFocusCommand run code s).shadow
    = s.shadow ∧ (endFocusCommand run code s).lamp = s.lamp ∧ (endFocusCommand run code s).thermal =
    s.thermal ∧ (endFocusCommand run code s).cue = s.cue ∧ (endFocusCommand run code s).log = s.log ∧
    (endFocusCommand run code s).deck = s.deck ∧ (endFocusCommand run code s).clip = s.clip ∧
    (endFocusCommand run code s).remote = s.remote ∧ (endFocusCommand run code s).unit = s.unit ∧
    (endFocusCommand run code s).resetHeld = s.resetHeld ∧ (endFocusCommand run code s).now = s.now ∧
    (endFocusCommand run code s).pending = s.pending := by
  unfold endFocusCommand
  repeat' split
  all_goals simp

@[simp] theorem endFocus_frame (code : ResultCode) (s : State) :
    (endFocus code s).mem = s.mem ∧ (endFocus code s).port = s.port ∧ (endFocus code s).cx = s.cx ∧
    (endFocus code s).tray = s.tray ∧ (endFocus code s).shadow = s.shadow ∧ (endFocus code s).lamp = s.lamp
    ∧ (endFocus code s).thermal = s.thermal ∧ (endFocus code s).cue = s.cue ∧ (endFocus code s).log = s.log
    ∧ (endFocus code s).deck = s.deck ∧ (endFocus code s).clip = s.clip ∧ (endFocus code s).unit = s.unit ∧
    (endFocus code s).resetHeld = s.resetHeld ∧ (endFocus code s).now = s.now ∧ (endFocus code s).pending =
    s.pending := by
  unfold endFocus
  repeat' split
  all_goals simp

@[simp] theorem startFocus_frame (inward : Bool) (owner : FocusOwner) (limit : Nat) (s : State) :
    (startFocus inward owner limit s).mem = s.mem ∧ (startFocus inward owner limit s).port = s.port ∧
    (startFocus inward owner limit s).cx = s.cx ∧ (startFocus inward owner limit s).tray = s.tray ∧
    (startFocus inward owner limit s).shadow = s.shadow ∧ (startFocus inward owner limit s).lamp = s.lamp ∧
    (startFocus inward owner limit s).thermal = s.thermal ∧ (startFocus inward owner limit s).cue = s.cue ∧
    (startFocus inward owner limit s).log = s.log ∧ (startFocus inward owner limit s).deck = s.deck ∧
    (startFocus inward owner limit s).clip = s.clip ∧ (startFocus inward owner limit s).unit = s.unit ∧
    (startFocus inward owner limit s).resetHeld = s.resetHeld ∧ (startFocus inward owner limit s).now =
    s.now ∧ (startFocus inward owner limit s).pending = s.pending := by
  unfold startFocus
  dsimp only
  simp

@[simp] theorem stopFocusCommand_frame (s : State) :
    (stopFocusCommand s).mem = s.mem ∧ (stopFocusCommand s).port = s.port ∧ (stopFocusCommand s).cx = s.cx ∧
    (stopFocusCommand s).tray = s.tray ∧ (stopFocusCommand s).shadow = s.shadow ∧ (stopFocusCommand s).lamp
    = s.lamp ∧ (stopFocusCommand s).thermal = s.thermal ∧ (stopFocusCommand s).cue = s.cue ∧
    (stopFocusCommand s).log = s.log ∧ (stopFocusCommand s).deck = s.deck ∧ (stopFocusCommand s).clip =
    s.clip ∧ (stopFocusCommand s).unit = s.unit ∧ (stopFocusCommand s).resetHeld = s.resetHeld ∧
    (stopFocusCommand s).now = s.now ∧ (stopFocusCommand s).pending = s.pending := by
  unfold stopFocusCommand
  repeat' split
  all_goals simp

@[simp] theorem focusRepeat_frame (inward : Bool) (s : State) :
    (focusRepeat inward s).mem = s.mem ∧ (focusRepeat inward s).port = s.port ∧ (focusRepeat inward s).hdr =
    s.hdr ∧ (focusRepeat inward s).cx = s.cx ∧ (focusRepeat inward s).tray = s.tray ∧ (focusRepeat inward
    s).shadow = s.shadow ∧ (focusRepeat inward s).lamp = s.lamp ∧ (focusRepeat inward s).thermal = s.thermal
    ∧ (focusRepeat inward s).cue = s.cue ∧ (focusRepeat inward s).log = s.log ∧ (focusRepeat inward s).deck
    = s.deck ∧ (focusRepeat inward s).clip = s.clip ∧ (focusRepeat inward s).unit = s.unit ∧ (focusRepeat
    inward s).resetHeld = s.resetHeld ∧ (focusRepeat inward s).now = s.now ∧ (focusRepeat inward s).pending
    = s.pending := by
  unfold focusRepeat
  repeat' split
  all_goals simp

@[simp] theorem repeatExpiry_frame (s : State) :
    (repeatExpiry s).mem = s.mem ∧ (repeatExpiry s).port = s.port ∧ (repeatExpiry s).cx = s.cx ∧
    (repeatExpiry s).tray = s.tray ∧ (repeatExpiry s).shadow = s.shadow ∧ (repeatExpiry s).lamp = s.lamp ∧
    (repeatExpiry s).thermal = s.thermal ∧ (repeatExpiry s).cue = s.cue ∧ (repeatExpiry s).log = s.log ∧
    (repeatExpiry s).deck = s.deck ∧ (repeatExpiry s).clip = s.clip ∧ (repeatExpiry s).unit = s.unit ∧
    (repeatExpiry s).resetHeld = s.resetHeld ∧ (repeatExpiry s).now = s.now ∧ (repeatExpiry s).pending =
    s.pending := by
  unfold repeatExpiry
  repeat' split
  all_goals simp

@[simp] theorem focusExpiry_frame (s : State) :
    (focusExpiry s).mem = s.mem ∧ (focusExpiry s).port = s.port ∧ (focusExpiry s).cx = s.cx ∧ (focusExpiry
    s).tray = s.tray ∧ (focusExpiry s).shadow = s.shadow ∧ (focusExpiry s).lamp = s.lamp ∧ (focusExpiry
    s).thermal = s.thermal ∧ (focusExpiry s).cue = s.cue ∧ (focusExpiry s).log = s.log ∧ (focusExpiry
    s).deck = s.deck ∧ (focusExpiry s).clip = s.clip ∧ (focusExpiry s).unit = s.unit ∧ (focusExpiry
    s).resetHeld = s.resetHeld ∧ (focusExpiry s).now = s.now ∧ (focusExpiry s).pending = s.pending := by
  unfold focusExpiry
  repeat' split
  all_goals simp

@[simp] theorem stallFocus_frame (s : State) :
    (stallFocus s).mem = s.mem ∧ (stallFocus s).port = s.port ∧ (stallFocus s).cx = s.cx ∧ (stallFocus
    s).tray = s.tray ∧ (stallFocus s).shadow = s.shadow ∧ (stallFocus s).lamp = s.lamp ∧ (stallFocus
    s).thermal = s.thermal ∧ (stallFocus s).cue = s.cue ∧ (stallFocus s).log = s.log ∧ (stallFocus s).deck =
    s.deck ∧ (stallFocus s).clip = s.clip ∧ (stallFocus s).unit = s.unit ∧ (stallFocus s).resetHeld =
    s.resetHeld ∧ (stallFocus s).now = s.now ∧ (stallFocus s).pending = s.pending := by
  unfold stallFocus
  simp

@[simp] theorem addNet_frame (d : Int) (s : State) :
    (addNet d s).mem = s.mem ∧ (addNet d s).port = s.port ∧ (addNet d s).hdr = s.hdr ∧ (addNet d s).cx =
    s.cx ∧ (addNet d s).tray = s.tray ∧ (addNet d s).shadow = s.shadow ∧ (addNet d s).lamp = s.lamp ∧
    (addNet d s).thermal = s.thermal ∧ (addNet d s).cue = s.cue ∧ (addNet d s).log = s.log ∧ (addNet d
    s).deck = s.deck ∧ (addNet d s).clip = s.clip ∧ (addNet d s).unit = s.unit ∧ (addNet d s).resetHeld =
    s.resetHeld ∧ (addNet d s).now = s.now ∧ (addNet d s).pending = s.pending := by
  unfold addNet
  simp

@[simp] theorem pressOneShot_frame (k : OneShot) (s : State) :
    (pressOneShot k s).mem = s.mem ∧ (pressOneShot k s).port = s.port ∧ (pressOneShot k s).hdr = s.hdr ∧
    (pressOneShot k s).cx = s.cx ∧ (pressOneShot k s).tray = s.tray ∧ (pressOneShot k s).shadow = s.shadow ∧
    (pressOneShot k s).lamp = s.lamp ∧ (pressOneShot k s).thermal = s.thermal ∧ (pressOneShot k s).cue =
    s.cue ∧ (pressOneShot k s).log = s.log ∧ (pressOneShot k s).deck = s.deck ∧ (pressOneShot k s).clip =
    s.clip ∧ (pressOneShot k s).unit = s.unit ∧ (pressOneShot k s).resetHeld = s.resetHeld ∧ (pressOneShot k
    s).now = s.now ∧ (pressOneShot k s).pending = s.pending := by
  unfold pressOneShot
  simp

@[simp] theorem remoteStop_frame (s : State) :
    (remoteStop s).mem = s.mem ∧ (remoteStop s).port = s.port ∧ (remoteStop s).thermal = s.thermal ∧
    (remoteStop s).cue = s.cue ∧ (remoteStop s).clip = s.clip ∧ (remoteStop s).unit = s.unit ∧ (remoteStop
    s).resetHeld = s.resetHeld ∧ (remoteStop s).now = s.now ∧ (remoteStop s).pending = s.pending := by
  unfold remoteStop
  simp

@[simp] theorem pressEffect_frame (key : Nat) (src : PressSource) (s : State) :
    (pressEffect key src s).mem = s.mem ∧ (pressEffect key src s).port = s.port ∧ (pressEffect key src
    s).thermal = s.thermal ∧ (pressEffect key src s).cue = s.cue ∧ (pressEffect key src s).unit = s.unit ∧
    (pressEffect key src s).resetHeld = s.resetHeld ∧ (pressEffect key src s).now = s.now ∧ (pressEffect key
    src s).pending = s.pending := by
  unfold pressEffect
  repeat' split
  all_goals simp

@[simp] theorem takePress_frame (key : Nat) (src : PressSource) (s : State) :
    (takePress key src s).mem = s.mem ∧ (takePress key src s).port = s.port ∧ (takePress key src s).cue =
    s.cue ∧ (takePress key src s).unit = s.unit ∧ (takePress key src s).resetHeld = s.resetHeld ∧ (takePress
    key src s).now = s.now ∧ (takePress key src s).pending = s.pending := by
  unfold takePress
  repeat' split
  all_goals simp

@[simp] theorem setLastFrame_frame (sys : Nat) (key : Nat) (toggle : Nat) (s : State) :
    (setLastFrame sys key toggle s).mem = s.mem ∧ (setLastFrame sys key toggle s).port = s.port ∧
    (setLastFrame sys key toggle s).hdr = s.hdr ∧ (setLastFrame sys key toggle s).cx = s.cx ∧ (setLastFrame
    sys key toggle s).tray = s.tray ∧ (setLastFrame sys key toggle s).shadow = s.shadow ∧ (setLastFrame sys
    key toggle s).lamp = s.lamp ∧ (setLastFrame sys key toggle s).thermal = s.thermal ∧ (setLastFrame sys
    key toggle s).cue = s.cue ∧ (setLastFrame sys key toggle s).log = s.log ∧ (setLastFrame sys key toggle
    s).deck = s.deck ∧ (setLastFrame sys key toggle s).clip = s.clip ∧ (setLastFrame sys key toggle s).unit
    = s.unit ∧ (setLastFrame sys key toggle s).resetHeld = s.resetHeld ∧ (setLastFrame sys key toggle s).now
    = s.now ∧ (setLastFrame sys key toggle s).pending = s.pending := by
  unfold setLastFrame
  simp

@[simp] theorem repeatEffect_frame (key : Nat) (s : State) :
    (repeatEffect key s).mem = s.mem ∧ (repeatEffect key s).port = s.port ∧ (repeatEffect key s).hdr = s.hdr
    ∧ (repeatEffect key s).cx = s.cx ∧ (repeatEffect key s).tray = s.tray ∧ (repeatEffect key s).shadow =
    s.shadow ∧ (repeatEffect key s).lamp = s.lamp ∧ (repeatEffect key s).thermal = s.thermal ∧ (repeatEffect
    key s).cue = s.cue ∧ (repeatEffect key s).log = s.log ∧ (repeatEffect key s).deck = s.deck ∧
    (repeatEffect key s).clip = s.clip ∧ (repeatEffect key s).unit = s.unit ∧ (repeatEffect key s).resetHeld
    = s.resetHeld ∧ (repeatEffect key s).now = s.now ∧ (repeatEffect key s).pending = s.pending := by
  unfold repeatEffect
  repeat' split
  all_goals simp

@[simp] theorem judgeFrame_frame (sys : Nat) (key : Nat) (toggle : Nat) (check : Nat) (s : State) :
    (judgeFrame sys key toggle check s).mem = s.mem ∧ (judgeFrame sys key toggle check s).port = s.port ∧
    (judgeFrame sys key toggle check s).cue = s.cue ∧ (judgeFrame sys key toggle check s).unit = s.unit ∧
    (judgeFrame sys key toggle check s).resetHeld = s.resetHeld ∧ (judgeFrame sys key toggle check s).now =
    s.now ∧ (judgeFrame sys key toggle check s).pending = s.pending := by
  unfold judgeFrame
  dsimp only
  repeat' split
  all_goals simp

@[simp] theorem lineIdle_frame (s : State) :
    (lineIdle s).mem = s.mem ∧ (lineIdle s).port = s.port ∧ (lineIdle s).hdr = s.hdr ∧ (lineIdle s).cx =
    s.cx ∧ (lineIdle s).tray = s.tray ∧ (lineIdle s).shadow = s.shadow ∧ (lineIdle s).lamp = s.lamp ∧
    (lineIdle s).thermal = s.thermal ∧ (lineIdle s).cue = s.cue ∧ (lineIdle s).log = s.log ∧ (lineIdle
    s).deck = s.deck ∧ (lineIdle s).clip = s.clip ∧ (lineIdle s).unit = s.unit ∧ (lineIdle s).resetHeld =
    s.resetHeld ∧ (lineIdle s).now = s.now ∧ (lineIdle s).pending = s.pending := by
  unfold lineIdle
  simp

@[simp] theorem remoteFrameIn_frame (key : Nat) (fr : RemoteFrame) (s : State) :
    (remoteFrameIn key fr s).mem = s.mem ∧ (remoteFrameIn key fr s).port = s.port ∧ (remoteFrameIn key fr
    s).cue = s.cue ∧ (remoteFrameIn key fr s).unit = s.unit ∧ (remoteFrameIn key fr s).resetHeld =
    s.resetHeld ∧ (remoteFrameIn key fr s).now = s.now ∧ (remoteFrameIn key fr s).pending = s.pending := by
  unfold remoteFrameIn
  simp

@[simp] theorem panelDown_frame (k : PanelKey) (activeFor : Nat) (s : State) :
    (panelDown k activeFor s).mem = s.mem ∧ (panelDown k activeFor s).port = s.port ∧ (panelDown k activeFor
    s).cue = s.cue ∧ (panelDown k activeFor s).unit = s.unit ∧ (panelDown k activeFor s).resetHeld =
    s.resetHeld ∧ (panelDown k activeFor s).now = s.now ∧ (panelDown k activeFor s).pending = s.pending := by
  unfold panelDown
  dsimp only
  repeat' split
  all_goals simp

@[simp] theorem panelUp_frame (k : PanelKey) (inactiveFor : Nat) (s : State) :
    (panelUp k inactiveFor s).mem = s.mem ∧ (panelUp k inactiveFor s).port = s.port ∧ (panelUp k inactiveFor
    s).cx = s.cx ∧ (panelUp k inactiveFor s).tray = s.tray ∧ (panelUp k inactiveFor s).shadow = s.shadow ∧
    (panelUp k inactiveFor s).lamp = s.lamp ∧ (panelUp k inactiveFor s).thermal = s.thermal ∧ (panelUp k
    inactiveFor s).cue = s.cue ∧ (panelUp k inactiveFor s).log = s.log ∧ (panelUp k inactiveFor s).deck =
    s.deck ∧ (panelUp k inactiveFor s).clip = s.clip ∧ (panelUp k inactiveFor s).unit = s.unit ∧ (panelUp k
    inactiveFor s).resetHeld = s.resetHeld ∧ (panelUp k inactiveFor s).now = s.now ∧ (panelUp k inactiveFor
    s).pending = s.pending := by
  unfold panelUp
  dsimp only
  repeat' split
  all_goals simp

@[simp] theorem keyPress_frame (k : PanelKey) (p : Press) (s : State) :
    (keyPress k p s).mem = s.mem ∧ (keyPress k p s).port = s.port ∧ (keyPress k p s).cue = s.cue ∧ (keyPress
    k p s).unit = s.unit ∧ (keyPress k p s).resetHeld = s.resetHeld ∧ (keyPress k p s).now = s.now ∧
    (keyPress k p s).pending = s.pending := by
  unfold keyPress
  repeat' split
  all_goals simp

@[simp] theorem abandonAtMark_frame (len : Nat) (s : State) :
    (abandonAtMark len s).mem = s.mem ∧ (abandonAtMark len s).port = s.port ∧ (abandonAtMark len s).hdr =
    s.hdr ∧ (abandonAtMark len s).cx = s.cx ∧ (abandonAtMark len s).tray = s.tray ∧ (abandonAtMark len
    s).shadow = s.shadow ∧ (abandonAtMark len s).lamp = s.lamp ∧ (abandonAtMark len s).thermal = s.thermal ∧
    (abandonAtMark len s).cue = s.cue ∧ (abandonAtMark len s).log = s.log ∧ (abandonAtMark len s).deck =
    s.deck ∧ (abandonAtMark len s).clip = s.clip ∧ (abandonAtMark len s).unit = s.unit ∧ (abandonAtMark len
    s).resetHeld = s.resetHeld ∧ (abandonAtMark len s).now = s.now ∧ (abandonAtMark len s).pending =
    s.pending := by
  unfold abandonAtMark
  dsimp only
  repeat' split
  all_goals simp

@[simp] theorem judgeBits_frame (bits : List Bool) (s : State) :
    (judgeBits bits s).mem = s.mem ∧ (judgeBits bits s).port = s.port ∧ (judgeBits bits s).cue = s.cue ∧
    (judgeBits bits s).unit = s.unit ∧ (judgeBits bits s).resetHeld = s.resetHeld ∧ (judgeBits bits s).now =
    s.now ∧ (judgeBits bits s).pending = s.pending := by
  unfold judgeBits
  simp

@[simp] theorem lineMark_frame (len : Nat) (s : State) :
    (lineMark len s).mem = s.mem ∧ (lineMark len s).port = s.port ∧ (lineMark len s).cue = s.cue ∧ (lineMark
    len s).unit = s.unit ∧ (lineMark len s).resetHeld = s.resetHeld ∧ (lineMark len s).now = s.now ∧
    (lineMark len s).pending = s.pending := by
  unfold lineMark
  dsimp only
  repeat' split
  all_goals simp

@[simp] theorem lineSpace_frame (len : Nat) (s : State) :
    (lineSpace len s).mem = s.mem ∧ (lineSpace len s).port = s.port ∧ (lineSpace len s).hdr = s.hdr ∧
    (lineSpace len s).cx = s.cx ∧ (lineSpace len s).tray = s.tray ∧ (lineSpace len s).shadow = s.shadow ∧
    (lineSpace len s).lamp = s.lamp ∧ (lineSpace len s).thermal = s.thermal ∧ (lineSpace len s).cue = s.cue
    ∧ (lineSpace len s).log = s.log ∧ (lineSpace len s).deck = s.deck ∧ (lineSpace len s).clip = s.clip ∧
    (lineSpace len s).unit = s.unit ∧ (lineSpace len s).resetHeld = s.resetHeld ∧ (lineSpace len s).now =
    s.now ∧ (lineSpace len s).pending = s.pending := by
  unfold lineSpace
  dsimp only
  repeat' split
  all_goals simp

@[simp] theorem lineElement_frame (e : LineElement) (s : State) :
    (lineElement e s).mem = s.mem ∧ (lineElement e s).port = s.port ∧ (lineElement e s).cue = s.cue ∧
    (lineElement e s).unit = s.unit ∧ (lineElement e s).resetHeld = s.resetHeld ∧ (lineElement e s).now =
    s.now ∧ (lineElement e s).pending = s.pending := by
  unfold lineElement
  repeat' split
  all_goals simp

@[simp] theorem lineElements_frame (es : List LineElement) (s : State) :
    (lineElements es s).mem = s.mem ∧ (lineElements es s).port = s.port ∧ (lineElements es s).cue = s.cue ∧
    (lineElements es s).unit = s.unit ∧ (lineElements es s).resetHeld = s.resetHeld ∧ (lineElements es
    s).now = s.now ∧ (lineElements es s).pending = s.pending := by
  unfold lineElements
  refine ⟨?_, ?_, ?_, ?_, ?_, ?_, ?_⟩ <;> first

    | exact foldl_frame State.mem _ (fun s r => by simp) _ _
    | exact foldl_frame State.port _ (fun s r => by simp) _ _
    | exact foldl_frame State.cue _ (fun s r => by simp) _ _
    | exact foldl_frame State.unit _ (fun s r => by simp) _ _
    | exact foldl_frame State.resetHeld _ (fun s r => by simp) _ _
    | exact foldl_frame State.now _ (fun s r => by simp) _ _
    | exact foldl_frame State.pending _ (fun s r => by simp) _ _

@[simp] theorem resetFocus_frame (s : State) :
    (resetFocus s).mem = s.mem ∧ (resetFocus s).port = s.port ∧ (resetFocus s).hdr = s.hdr ∧ (resetFocus
    s).cx = s.cx ∧ (resetFocus s).tray = s.tray ∧ (resetFocus s).shadow = s.shadow ∧ (resetFocus s).lamp =
    s.lamp ∧ (resetFocus s).thermal = s.thermal ∧ (resetFocus s).cue = s.cue ∧ (resetFocus s).log = s.log ∧
    (resetFocus s).deck = s.deck ∧ (resetFocus s).clip = s.clip ∧ (resetFocus s).unit = s.unit ∧ (resetFocus
    s).resetHeld = s.resetHeld ∧ (resetFocus s).now = s.now ∧ (resetFocus s).pending = s.pending := by
  unfold resetFocus
  simp

/-! ## HeaderOps -/

@[simp] theorem answerRecord_frame (d : EntryData) (s : State) :
    (answerRecord d s).mem = s.mem ∧ (answerRecord d s).port = s.port ∧ (answerRecord d s).cx = s.cx ∧
    (answerRecord d s).lamp = s.lamp ∧ (answerRecord d s).thermal = s.thermal ∧ (answerRecord d s).cue =
    s.cue ∧ (answerRecord d s).deck = s.deck ∧ (answerRecord d s).remote = s.remote ∧ (answerRecord d
    s).unit = s.unit ∧ (answerRecord d s).resetHeld = s.resetHeld ∧ (answerRecord d s).now = s.now ∧
    (answerRecord d s).pending = s.pending := by
  unfold answerRecord
  repeat' split
  all_goals simp

@[simp] theorem slotBaseChanged_frame (s : State) :
    (slotBaseChanged s).mem = s.mem ∧ (slotBaseChanged s).hdr = s.hdr ∧ (slotBaseChanged s).cx = s.cx ∧
    (slotBaseChanged s).lamp = s.lamp ∧ (slotBaseChanged s).thermal = s.thermal ∧ (slotBaseChanged s).cue =
    s.cue ∧ (slotBaseChanged s).log = s.log ∧ (slotBaseChanged s).deck = s.deck ∧ (slotBaseChanged s).clip =
    s.clip ∧ (slotBaseChanged s).remote = s.remote ∧ (slotBaseChanged s).unit = s.unit ∧ (slotBaseChanged
    s).resetHeld = s.resetHeld ∧ (slotBaseChanged s).now = s.now ∧ (slotBaseChanged s).pending = s.pending := by
  unfold slotBaseChanged
  dsimp only
  split
  · refine ⟨?_, ?_, ?_, ?_, ?_, ?_, ?_, ?_, ?_, ?_, ?_, ?_, ?_, ?_⟩ <;> simp only [serveWaiting_frame] <;> first

      | exact (foldl_frame State.mem _ (fun s r => by simp) _ _).trans (by simp)
      | exact (foldl_frame State.hdr _ (fun s r => by simp) _ _).trans (by simp)
      | exact (foldl_frame State.cx _ (fun s r => by simp) _ _).trans (by simp)
      | exact (foldl_frame State.lamp _ (fun s r => by simp) _ _).trans (by simp)
      | exact (foldl_frame State.thermal _ (fun s r => by simp) _ _).trans (by simp)
      | exact (foldl_frame State.cue _ (fun s r => by simp) _ _).trans (by simp)
      | exact (foldl_frame State.log _ (fun s r => by simp) _ _).trans (by simp)
      | exact (foldl_frame State.deck _ (fun s r => by simp) _ _).trans (by simp)
      | exact (foldl_frame State.clip _ (fun s r => by simp) _ _).trans (by simp)
      | exact (foldl_frame State.remote _ (fun s r => by simp) _ _).trans (by simp)
      | exact (foldl_frame State.unit _ (fun s r => by simp) _ _).trans (by simp)
      | exact (foldl_frame State.resetHeld _ (fun s r => by simp) _ _).trans (by simp)
      | exact (foldl_frame State.now _ (fun s r => by simp) _ _).trans (by simp)
      | exact (foldl_frame State.pending _ (fun s r => by simp) _ _).trans (by simp)
  · simp

@[simp] theorem clipBaseChanged_frame (s : State) :
    (clipBaseChanged s).mem = s.mem ∧ (clipBaseChanged s).cx = s.cx ∧ (clipBaseChanged s).tray = s.tray ∧
    (clipBaseChanged s).lamp = s.lamp ∧ (clipBaseChanged s).thermal = s.thermal ∧ (clipBaseChanged s).cue =
    s.cue ∧ (clipBaseChanged s).deck = s.deck ∧ (clipBaseChanged s).remote = s.remote ∧ (clipBaseChanged
    s).unit = s.unit ∧ (clipBaseChanged s).resetHeld = s.resetHeld ∧ (clipBaseChanged s).now = s.now ∧
    (clipBaseChanged s).pending = s.pending := by
  unfold clipBaseChanged
  dsimp only
  split
  · refine ⟨?_, ?_, ?_, ?_, ?_, ?_, ?_, ?_, ?_, ?_, ?_, ?_⟩ <;> simp only [serveWaiting_frame] <;> first

      | exact (foldl_frame State.mem _ (fun s r => by simp) _ _).trans (by simp)
      | exact (foldl_frame State.cx _ (fun s r => by simp) _ _).trans (by simp)
      | exact (foldl_frame State.tray _ (fun s r => by simp) _ _).trans (by simp)
      | exact (foldl_frame State.lamp _ (fun s r => by simp) _ _).trans (by simp)
      | exact (foldl_frame State.thermal _ (fun s r => by simp) _ _).trans (by simp)
      | exact (foldl_frame State.cue _ (fun s r => by simp) _ _).trans (by simp)
      | exact (foldl_frame State.deck _ (fun s r => by simp) _ _).trans (by simp)
      | exact (foldl_frame State.remote _ (fun s r => by simp) _ _).trans (by simp)
      | exact (foldl_frame State.unit _ (fun s r => by simp) _ _).trans (by simp)
      | exact (foldl_frame State.resetHeld _ (fun s r => by simp) _ _).trans (by simp)
      | exact (foldl_frame State.now _ (fun s r => by simp) _ _).trans (by simp)
      | exact (foldl_frame State.pending _ (fun s r => by simp) _ _).trans (by simp)
  · simp

@[simp] theorem setImage_frame (i : Nat) (v : Word) (s : State) :
    (setImage i v s).mem = s.mem ∧ (setImage i v s).port = s.port ∧ (setImage i v s).sw = s.sw ∧ (setImage i
    v s).cx = s.cx ∧ (setImage i v s).tray = s.tray ∧ (setImage i v s).shadow = s.shadow ∧ (setImage i v
    s).lamp = s.lamp ∧ (setImage i v s).thermal = s.thermal ∧ (setImage i v s).cue = s.cue ∧ (setImage i v
    s).log = s.log ∧ (setImage i v s).deck = s.deck ∧ (setImage i v s).clip = s.clip ∧ (setImage i v
    s).remote = s.remote ∧ (setImage i v s).unit = s.unit ∧ (setImage i v s).resetHeld = s.resetHeld ∧
    (setImage i v s).now = s.now ∧ (setImage i v s).pending = s.pending := by
  unfold setImage
  simp

@[simp] theorem putSettings_frame (st : Settings) (s : State) :
    (putSettings st s).mem = s.mem ∧ (putSettings st s).port = s.port ∧ (putSettings st s).cx = s.cx ∧
    (putSettings st s).tray = s.tray ∧ (putSettings st s).shadow = s.shadow ∧ (putSettings st s).lamp =
    s.lamp ∧ (putSettings st s).thermal = s.thermal ∧ (putSettings st s).cue = s.cue ∧ (putSettings st
    s).log = s.log ∧ (putSettings st s).deck = s.deck ∧ (putSettings st s).clip = s.clip ∧ (putSettings st
    s).remote = s.remote ∧ (putSettings st s).unit = s.unit ∧ (putSettings st s).resetHeld = s.resetHeld ∧
    (putSettings st s).now = s.now ∧ (putSettings st s).pending = s.pending := by
  unfold putSettings
  dsimp only
  simp

@[simp] theorem putPending_frame (p : PendingSettings) (s : State) :
    (putPending p s).mem = s.mem ∧ (putPending p s).port = s.port ∧ (putPending p s).sw = s.sw ∧ (putPending
    p s).cx = s.cx ∧ (putPending p s).tray = s.tray ∧ (putPending p s).shadow = s.shadow ∧ (putPending p
    s).lamp = s.lamp ∧ (putPending p s).thermal = s.thermal ∧ (putPending p s).cue = s.cue ∧ (putPending p
    s).log = s.log ∧ (putPending p s).deck = s.deck ∧ (putPending p s).clip = s.clip ∧ (putPending p
    s).remote = s.remote ∧ (putPending p s).unit = s.unit ∧ (putPending p s).resetHeld = s.resetHeld ∧
    (putPending p s).now = s.now ∧ (putPending p s).pending = s.pending := by
  unfold putPending
  simp

@[simp] theorem compareWord_frame (i : Nat) (s : State) :
    (compareWord i s).mem = s.mem ∧ (compareWord i s).port = s.port ∧ (compareWord i s).sw = s.sw ∧
    (compareWord i s).cx = s.cx ∧ (compareWord i s).tray = s.tray ∧ (compareWord i s).shadow = s.shadow ∧
    (compareWord i s).lamp = s.lamp ∧ (compareWord i s).thermal = s.thermal ∧ (compareWord i s).cue = s.cue
    ∧ (compareWord i s).log = s.log ∧ (compareWord i s).deck = s.deck ∧ (compareWord i s).clip = s.clip ∧
    (compareWord i s).remote = s.remote ∧ (compareWord i s).unit = s.unit ∧ (compareWord i s).resetHeld =
    s.resetHeld ∧ (compareWord i s).now = s.now ∧ (compareWord i s).pending = s.pending := by
  unfold compareWord
  repeat' split
  all_goals simp

@[simp] theorem takeIrqMask_frame (v : Word) (s : State) :
    (takeIrqMask v s).mem = s.mem ∧ (takeIrqMask v s).port = s.port ∧ (takeIrqMask v s).cx = s.cx ∧
    (takeIrqMask v s).tray = s.tray ∧ (takeIrqMask v s).shadow = s.shadow ∧ (takeIrqMask v s).lamp = s.lamp
    ∧ (takeIrqMask v s).thermal = s.thermal ∧ (takeIrqMask v s).cue = s.cue ∧ (takeIrqMask v s).log = s.log
    ∧ (takeIrqMask v s).deck = s.deck ∧ (takeIrqMask v s).clip = s.clip ∧ (takeIrqMask v s).remote =
    s.remote ∧ (takeIrqMask v s).unit = s.unit ∧ (takeIrqMask v s).resetHeld = s.resetHeld ∧ (takeIrqMask v
    s).now = s.now ∧ (takeIrqMask v s).pending = s.pending := by
  unfold takeIrqMask
  dsimp only
  repeat' split
  all_goals simp

@[simp] theorem takeGroupMask_frame (v : Word) (s : State) :
    (takeGroupMask v s).mem = s.mem ∧ (takeGroupMask v s).port = s.port ∧ (takeGroupMask v s).cx = s.cx ∧
    (takeGroupMask v s).tray = s.tray ∧ (takeGroupMask v s).shadow = s.shadow ∧ (takeGroupMask v s).lamp =
    s.lamp ∧ (takeGroupMask v s).thermal = s.thermal ∧ (takeGroupMask v s).cue = s.cue ∧ (takeGroupMask v
    s).log = s.log ∧ (takeGroupMask v s).deck = s.deck ∧ (takeGroupMask v s).clip = s.clip ∧ (takeGroupMask
    v s).remote = s.remote ∧ (takeGroupMask v s).unit = s.unit ∧ (takeGroupMask v s).resetHeld = s.resetHeld
    ∧ (takeGroupMask v s).now = s.now ∧ (takeGroupMask v s).pending = s.pending := by
  unfold takeGroupMask
  simp

@[simp] theorem takeMode_frame (v : Word) (s : State) :
    (takeMode v s).mem = s.mem ∧ (takeMode v s).port = s.port ∧ (takeMode v s).cx = s.cx ∧ (takeMode v
    s).tray = s.tray ∧ (takeMode v s).shadow = s.shadow ∧ (takeMode v s).lamp = s.lamp ∧ (takeMode v
    s).thermal = s.thermal ∧ (takeMode v s).cue = s.cue ∧ (takeMode v s).log = s.log ∧ (takeMode v s).deck =
    s.deck ∧ (takeMode v s).clip = s.clip ∧ (takeMode v s).remote = s.remote ∧ (takeMode v s).unit = s.unit
    ∧ (takeMode v s).resetHeld = s.resetHeld ∧ (takeMode v s).now = s.now ∧ (takeMode v s).pending =
    s.pending := by
  unfold takeMode
  repeat' split
  all_goals simp

@[simp] theorem takeBlankRate_frame (v : Word) (s : State) :
    (takeBlankRate v s).mem = s.mem ∧ (takeBlankRate v s).port = s.port ∧ (takeBlankRate v s).cx = s.cx ∧
    (takeBlankRate v s).tray = s.tray ∧ (takeBlankRate v s).shadow = s.shadow ∧ (takeBlankRate v s).lamp =
    s.lamp ∧ (takeBlankRate v s).thermal = s.thermal ∧ (takeBlankRate v s).cue = s.cue ∧ (takeBlankRate v
    s).log = s.log ∧ (takeBlankRate v s).deck = s.deck ∧ (takeBlankRate v s).clip = s.clip ∧ (takeBlankRate
    v s).remote = s.remote ∧ (takeBlankRate v s).unit = s.unit ∧ (takeBlankRate v s).resetHeld = s.resetHeld
    ∧ (takeBlankRate v s).now = s.now ∧ (takeBlankRate v s).pending = s.pending := by
  unfold takeBlankRate
  simp

@[simp] theorem takeFloor_frame (v : Word) (s : State) :
    (takeFloor v s).mem = s.mem ∧ (takeFloor v s).port = s.port ∧ (takeFloor v s).sw = s.sw ∧ (takeFloor v
    s).cx = s.cx ∧ (takeFloor v s).tray = s.tray ∧ (takeFloor v s).shadow = s.shadow ∧ (takeFloor v s).lamp
    = s.lamp ∧ (takeFloor v s).thermal = s.thermal ∧ (takeFloor v s).cue = s.cue ∧ (takeFloor v s).log =
    s.log ∧ (takeFloor v s).deck = s.deck ∧ (takeFloor v s).clip = s.clip ∧ (takeFloor v s).remote =
    s.remote ∧ (takeFloor v s).unit = s.unit ∧ (takeFloor v s).resetHeld = s.resetHeld ∧ (takeFloor v s).now
    = s.now ∧ (takeFloor v s).pending = s.pending := by
  unfold takeFloor
  simp

@[simp] theorem takeMaster_frame (v : Word) (s : State) :
    (takeMaster v s).mem = s.mem ∧ (takeMaster v s).port = s.port ∧ (takeMaster v s).sw = s.sw ∧ (takeMaster
    v s).cx = s.cx ∧ (takeMaster v s).tray = s.tray ∧ (takeMaster v s).shadow = s.shadow ∧ (takeMaster v
    s).lamp = s.lamp ∧ (takeMaster v s).thermal = s.thermal ∧ (takeMaster v s).cue = s.cue ∧ (takeMaster v
    s).log = s.log ∧ (takeMaster v s).deck = s.deck ∧ (takeMaster v s).clip = s.clip ∧ (takeMaster v
    s).remote = s.remote ∧ (takeMaster v s).unit = s.unit ∧ (takeMaster v s).resetHeld = s.resetHeld ∧
    (takeMaster v s).now = s.now ∧ (takeMaster v s).pending = s.pending := by
  unfold takeMaster
  simp

@[simp] theorem takeCurveSel_frame (v : Word) (s : State) :
    (takeCurveSel v s).mem = s.mem ∧ (takeCurveSel v s).port = s.port ∧ (takeCurveSel v s).sw = s.sw ∧
    (takeCurveSel v s).cx = s.cx ∧ (takeCurveSel v s).tray = s.tray ∧ (takeCurveSel v s).shadow = s.shadow ∧
    (takeCurveSel v s).lamp = s.lamp ∧ (takeCurveSel v s).thermal = s.thermal ∧ (takeCurveSel v s).cue =
    s.cue ∧ (takeCurveSel v s).log = s.log ∧ (takeCurveSel v s).deck = s.deck ∧ (takeCurveSel v s).clip =
    s.clip ∧ (takeCurveSel v s).remote = s.remote ∧ (takeCurveSel v s).unit = s.unit ∧ (takeCurveSel v
    s).resetHeld = s.resetHeld ∧ (takeCurveSel v s).now = s.now ∧ (takeCurveSel v s).pending = s.pending := by
  unfold takeCurveSel
  repeat' split
  all_goals simp

@[simp] theorem takeVolume_frame (v : Word) (s : State) :
    (takeVolume v s).mem = s.mem ∧ (takeVolume v s).port = s.port ∧ (takeVolume v s).sw = s.sw ∧ (takeVolume
    v s).cx = s.cx ∧ (takeVolume v s).tray = s.tray ∧ (takeVolume v s).shadow = s.shadow ∧ (takeVolume v
    s).lamp = s.lamp ∧ (takeVolume v s).thermal = s.thermal ∧ (takeVolume v s).cue = s.cue ∧ (takeVolume v
    s).log = s.log ∧ (takeVolume v s).deck = s.deck ∧ (takeVolume v s).clip = s.clip ∧ (takeVolume v
    s).remote = s.remote ∧ (takeVolume v s).unit = s.unit ∧ (takeVolume v s).resetHeld = s.resetHeld ∧
    (takeVolume v s).now = s.now ∧ (takeVolume v s).pending = s.pending := by
  unfold takeVolume
  simp

@[simp] theorem takeDuck_frame (v : Word) (s : State) :
    (takeDuck v s).mem = s.mem ∧ (takeDuck v s).port = s.port ∧ (takeDuck v s).sw = s.sw ∧ (takeDuck v s).cx
    = s.cx ∧ (takeDuck v s).tray = s.tray ∧ (takeDuck v s).shadow = s.shadow ∧ (takeDuck v s).lamp = s.lamp
    ∧ (takeDuck v s).thermal = s.thermal ∧ (takeDuck v s).cue = s.cue ∧ (takeDuck v s).log = s.log ∧
    (takeDuck v s).deck = s.deck ∧ (takeDuck v s).clip = s.clip ∧ (takeDuck v s).remote = s.remote ∧
    (takeDuck v s).unit = s.unit ∧ (takeDuck v s).resetHeld = s.resetHeld ∧ (takeDuck v s).now = s.now ∧
    (takeDuck v s).pending = s.pending := by
  unfold takeDuck
  simp

@[simp] theorem correctIf_frame (b : Bool) (i : Nat) (s : State) :
    (correctIf b i s).mem = s.mem ∧ (correctIf b i s).port = s.port ∧ (correctIf b i s).sw = s.sw ∧
    (correctIf b i s).cx = s.cx ∧ (correctIf b i s).tray = s.tray ∧ (correctIf b i s).shadow = s.shadow ∧
    (correctIf b i s).lamp = s.lamp ∧ (correctIf b i s).thermal = s.thermal ∧ (correctIf b i s).cue = s.cue
    ∧ (correctIf b i s).log = s.log ∧ (correctIf b i s).deck = s.deck ∧ (correctIf b i s).clip = s.clip ∧
    (correctIf b i s).remote = s.remote ∧ (correctIf b i s).unit = s.unit ∧ (correctIf b i s).resetHeld =
    s.resetHeld ∧ (correctIf b i s).now = s.now ∧ (correctIf b i s).pending = s.pending := by
  unfold correctIf
  repeat' split
  all_goals simp

@[simp] theorem takeTd_frame (v : Word) (s : State) :
    (takeTd v s).mem = s.mem ∧ (takeTd v s).port = s.port ∧ (takeTd v s).cx = s.cx ∧ (takeTd v s).tray =
    s.tray ∧ (takeTd v s).shadow = s.shadow ∧ (takeTd v s).lamp = s.lamp ∧ (takeTd v s).cue = s.cue ∧
    (takeTd v s).log = s.log ∧ (takeTd v s).deck = s.deck ∧ (takeTd v s).clip = s.clip ∧ (takeTd v s).remote
    = s.remote ∧ (takeTd v s).unit = s.unit ∧ (takeTd v s).resetHeld = s.resetHeld ∧ (takeTd v s).now =
    s.now ∧ (takeTd v s).pending = s.pending := by
  unfold takeTd
  dsimp only
  simp

@[simp] theorem takeTt_frame (v : Word) (s : State) :
    (takeTt v s).mem = s.mem ∧ (takeTt v s).port = s.port ∧ (takeTt v s).cx = s.cx ∧ (takeTt v s).tray =
    s.tray ∧ (takeTt v s).shadow = s.shadow ∧ (takeTt v s).lamp = s.lamp ∧ (takeTt v s).thermal = s.thermal
    ∧ (takeTt v s).cue = s.cue ∧ (takeTt v s).log = s.log ∧ (takeTt v s).deck = s.deck ∧ (takeTt v s).clip =
    s.clip ∧ (takeTt v s).remote = s.remote ∧ (takeTt v s).unit = s.unit ∧ (takeTt v s).resetHeld =
    s.resetHeld ∧ (takeTt v s).now = s.now ∧ (takeTt v s).pending = s.pending := by
  unfold takeTt
  simp

@[simp] theorem takeTr_frame (v : Word) (s : State) :
    (takeTr v s).mem = s.mem ∧ (takeTr v s).port = s.port ∧ (takeTr v s).cx = s.cx ∧ (takeTr v s).tray =
    s.tray ∧ (takeTr v s).shadow = s.shadow ∧ (takeTr v s).lamp = s.lamp ∧ (takeTr v s).thermal = s.thermal
    ∧ (takeTr v s).cue = s.cue ∧ (takeTr v s).log = s.log ∧ (takeTr v s).deck = s.deck ∧ (takeTr v s).clip =
    s.clip ∧ (takeTr v s).remote = s.remote ∧ (takeTr v s).unit = s.unit ∧ (takeTr v s).resetHeld =
    s.resetHeld ∧ (takeTr v s).now = s.now ∧ (takeTr v s).pending = s.pending := by
  unfold takeTr
  simp

@[simp] theorem takeGateLimit_frame (v : Word) (s : State) :
    (takeGateLimit v s).mem = s.mem ∧ (takeGateLimit v s).port = s.port ∧ (takeGateLimit v s).cx = s.cx ∧
    (takeGateLimit v s).tray = s.tray ∧ (takeGateLimit v s).shadow = s.shadow ∧ (takeGateLimit v s).lamp =
    s.lamp ∧ (takeGateLimit v s).cue = s.cue ∧ (takeGateLimit v s).log = s.log ∧ (takeGateLimit v s).deck =
    s.deck ∧ (takeGateLimit v s).clip = s.clip ∧ (takeGateLimit v s).remote = s.remote ∧ (takeGateLimit v
    s).unit = s.unit ∧ (takeGateLimit v s).resetHeld = s.resetHeld ∧ (takeGateLimit v s).now = s.now ∧
    (takeGateLimit v s).pending = s.pending := by
  unfold takeGateLimit
  simp

@[simp] theorem takePc_frame (v : Word) (s : State) :
    (takePc v s).mem = s.mem ∧ (takePc v s).port = s.port ∧ (takePc v s).cx = s.cx ∧ (takePc v s).tray =
    s.tray ∧ (takePc v s).shadow = s.shadow ∧ (takePc v s).lamp = s.lamp ∧ (takePc v s).cue = s.cue ∧
    (takePc v s).log = s.log ∧ (takePc v s).deck = s.deck ∧ (takePc v s).clip = s.clip ∧ (takePc v s).remote
    = s.remote ∧ (takePc v s).unit = s.unit ∧ (takePc v s).resetHeld = s.resetHeld ∧ (takePc v s).now =
    s.now ∧ (takePc v s).pending = s.pending := by
  unfold takePc
  simp

@[simp] theorem takeDwellLimit_frame (v : Word) (s : State) :
    (takeDwellLimit v s).mem = s.mem ∧ (takeDwellLimit v s).port = s.port ∧ (takeDwellLimit v s).cx = s.cx ∧
    (takeDwellLimit v s).tray = s.tray ∧ (takeDwellLimit v s).shadow = s.shadow ∧ (takeDwellLimit v s).lamp
    = s.lamp ∧ (takeDwellLimit v s).cue = s.cue ∧ (takeDwellLimit v s).log = s.log ∧ (takeDwellLimit v
    s).deck = s.deck ∧ (takeDwellLimit v s).clip = s.clip ∧ (takeDwellLimit v s).remote = s.remote ∧
    (takeDwellLimit v s).unit = s.unit ∧ (takeDwellLimit v s).resetHeld = s.resetHeld ∧ (takeDwellLimit v
    s).now = s.now ∧ (takeDwellLimit v s).pending = s.pending := by
  unfold takeDwellLimit
  dsimp only
  repeat' split
  all_goals simp

@[simp] theorem takeRingSize_frame (v : Word) (s : State) :
    (takeRingSize v s).mem = s.mem ∧ (takeRingSize v s).cx = s.cx ∧ (takeRingSize v s).tray = s.tray ∧
    (takeRingSize v s).shadow = s.shadow ∧ (takeRingSize v s).lamp = s.lamp ∧ (takeRingSize v s).thermal =
    s.thermal ∧ (takeRingSize v s).cue = s.cue ∧ (takeRingSize v s).deck = s.deck ∧ (takeRingSize v s).clip
    = s.clip ∧ (takeRingSize v s).remote = s.remote ∧ (takeRingSize v s).unit = s.unit ∧ (takeRingSize v
    s).resetHeld = s.resetHeld ∧ (takeRingSize v s).now = s.now ∧ (takeRingSize v s).pending = s.pending := by
  unfold takeRingSize
  dsimp only
  repeat' split
  all_goals simp

@[simp] theorem takeRingRd_frame (v : Word) (s : State) :
    (takeRingRd v s).mem = s.mem ∧ (takeRingRd v s).port = s.port ∧ (takeRingRd v s).cx = s.cx ∧ (takeRingRd
    v s).tray = s.tray ∧ (takeRingRd v s).shadow = s.shadow ∧ (takeRingRd v s).lamp = s.lamp ∧ (takeRingRd v
    s).thermal = s.thermal ∧ (takeRingRd v s).cue = s.cue ∧ (takeRingRd v s).deck = s.deck ∧ (takeRingRd v
    s).clip = s.clip ∧ (takeRingRd v s).remote = s.remote ∧ (takeRingRd v s).unit = s.unit ∧ (takeRingRd v
    s).resetHeld = s.resetHeld ∧ (takeRingRd v s).now = s.now ∧ (takeRingRd v s).pending = s.pending := by
  unfold takeRingRd
  repeat' split
  all_goals simp

@[simp] theorem autoHoldTurned_frame (s : State) :
    (autoHoldTurned s).mem = s.mem ∧ (autoHoldTurned s).port = s.port ∧ (autoHoldTurned s).hdr = s.hdr ∧
    (autoHoldTurned s).cx = s.cx ∧ (autoHoldTurned s).tray = s.tray ∧ (autoHoldTurned s).shadow = s.shadow ∧
    (autoHoldTurned s).lamp = s.lamp ∧ (autoHoldTurned s).thermal = s.thermal ∧ (autoHoldTurned s).cue =
    s.cue ∧ (autoHoldTurned s).log = s.log ∧ (autoHoldTurned s).clip = s.clip ∧ (autoHoldTurned s).remote =
    s.remote ∧ (autoHoldTurned s).unit = s.unit ∧ (autoHoldTurned s).resetHeld = s.resetHeld ∧
    (autoHoldTurned s).now = s.now ∧ (autoHoldTurned s).pending = s.pending := by
  unfold autoHoldTurned
  repeat' split
  all_goals simp

@[simp] theorem takeCueOptions_frame (v : Word) (s : State) :
    (takeCueOptions v s).mem = s.mem ∧ (takeCueOptions v s).port = s.port ∧ (takeCueOptions v s).cx = s.cx ∧
    (takeCueOptions v s).tray = s.tray ∧ (takeCueOptions v s).shadow = s.shadow ∧ (takeCueOptions v s).lamp
    = s.lamp ∧ (takeCueOptions v s).thermal = s.thermal ∧ (takeCueOptions v s).log = s.log ∧ (takeCueOptions
    v s).clip = s.clip ∧ (takeCueOptions v s).remote = s.remote ∧ (takeCueOptions v s).unit = s.unit ∧
    (takeCueOptions v s).resetHeld = s.resetHeld ∧ (takeCueOptions v s).now = s.now ∧ (takeCueOptions v
    s).pending = s.pending := by
  unfold takeCueOptions
  dsimp only
  repeat' split
  all_goals simp

@[simp] theorem takeRemoteOptions_frame (v : Word) (s : State) :
    (takeRemoteOptions v s).mem = s.mem ∧ (takeRemoteOptions v s).port = s.port ∧ (takeRemoteOptions v s).cx
    = s.cx ∧ (takeRemoteOptions v s).tray = s.tray ∧ (takeRemoteOptions v s).shadow = s.shadow ∧
    (takeRemoteOptions v s).lamp = s.lamp ∧ (takeRemoteOptions v s).thermal = s.thermal ∧ (takeRemoteOptions
    v s).cue = s.cue ∧ (takeRemoteOptions v s).log = s.log ∧ (takeRemoteOptions v s).deck = s.deck ∧
    (takeRemoteOptions v s).clip = s.clip ∧ (takeRemoteOptions v s).remote = s.remote ∧ (takeRemoteOptions v
    s).unit = s.unit ∧ (takeRemoteOptions v s).resetHeld = s.resetHeld ∧ (takeRemoteOptions v s).now = s.now
    ∧ (takeRemoteOptions v s).pending = s.pending := by
  unfold takeRemoteOptions
  dsimp only
  repeat' split
  all_goals simp

@[simp] theorem takeLifeLimit_frame (v : Word) (s : State) :
    (takeLifeLimit v s).mem = s.mem ∧ (takeLifeLimit v s).port = s.port ∧ (takeLifeLimit v s).cx = s.cx ∧
    (takeLifeLimit v s).tray = s.tray ∧ (takeLifeLimit v s).shadow = s.shadow ∧ (takeLifeLimit v s).thermal
    = s.thermal ∧ (takeLifeLimit v s).cue = s.cue ∧ (takeLifeLimit v s).log = s.log ∧ (takeLifeLimit v
    s).deck = s.deck ∧ (takeLifeLimit v s).clip = s.clip ∧ (takeLifeLimit v s).remote = s.remote ∧
    (takeLifeLimit v s).unit = s.unit ∧ (takeLifeLimit v s).resetHeld = s.resetHeld ∧ (takeLifeLimit v
    s).now = s.now ∧ (takeLifeLimit v s).pending = s.pending := by
  unfold takeLifeLimit
  simp

@[simp] theorem acceptBase_frame (r : Region) (base : Nat) (s : State) :
    (acceptBase r base s).mem = s.mem ∧ (acceptBase r base s).cx = s.cx ∧ (acceptBase r base s).thermal =
    s.thermal ∧ (acceptBase r base s).cue = s.cue ∧ (acceptBase r base s).deck = s.deck ∧ (acceptBase r base
    s).remote = s.remote ∧ (acceptBase r base s).unit = s.unit ∧ (acceptBase r base s).resetHeld =
    s.resetHeld ∧ (acceptBase r base s).now = s.now ∧ (acceptBase r base s).pending = s.pending := by
  unfold acceptBase
  repeat' split
  all_goals simp

@[simp] theorem takeBase_frame (r : Region) (s : State) :
    (takeBase r s).mem = s.mem ∧ (takeBase r s).cx = s.cx ∧ (takeBase r s).thermal = s.thermal ∧ (takeBase r
    s).cue = s.cue ∧ (takeBase r s).deck = s.deck ∧ (takeBase r s).remote = s.remote ∧ (takeBase r s).unit =
    s.unit ∧ (takeBase r s).resetHeld = s.resetHeld ∧ (takeBase r s).now = s.now ∧ (takeBase r s).pending =
    s.pending := by
  unfold takeBase
  dsimp only
  repeat' split
  all_goals simp

@[simp] theorem enterStandby_frame (s : State) :
    (enterStandby s).mem = s.mem ∧ (enterStandby s).port = s.port ∧ (enterStandby s).unit = s.unit ∧
    (enterStandby s).resetHeld = s.resetHeld ∧ (enterStandby s).now = s.now ∧ (enterStandby s).pending =
    s.pending := by
  unfold enterStandby
  dsimp only
  simp

@[simp] theorem commandClip_frame (r : CommandRecord) (s : State) :
    (commandClip r s).mem = s.mem ∧ (commandClip r s).port = s.port ∧ (commandClip r s).cx = s.cx ∧
    (commandClip r s).tray = s.tray ∧ (commandClip r s).lamp = s.lamp ∧ (commandClip r s).thermal =
    s.thermal ∧ (commandClip r s).cue = s.cue ∧ (commandClip r s).deck = s.deck ∧ (commandClip r s).remote =
    s.remote ∧ (commandClip r s).unit = s.unit ∧ (commandClip r s).resetHeld = s.resetHeld ∧ (commandClip r
    s).now = s.now ∧ (commandClip r s).pending = s.pending := by
  unfold commandClip
  repeat' split
  all_goals simp

@[simp] theorem commandInject_frame (r : CommandRecord) (s : State) :
    (commandInject r s).mem = s.mem ∧ (commandInject r s).port = s.port ∧ (commandInject r s).tray = s.tray
    ∧ (commandInject r s).lamp = s.lamp ∧ (commandInject r s).thermal = s.thermal ∧ (commandInject r s).cue
    = s.cue ∧ (commandInject r s).remote = s.remote ∧ (commandInject r s).unit = s.unit ∧ (commandInject r
    s).resetHeld = s.resetHeld ∧ (commandInject r s).now = s.now ∧ (commandInject r s).pending = s.pending := by
  unfold commandInject
  repeat' split
  all_goals simp

@[simp] theorem commandFocus_frame (r : CommandRecord) (s : State) :
    (commandFocus r s).mem = s.mem ∧ (commandFocus r s).port = s.port ∧ (commandFocus r s).cx = s.cx ∧
    (commandFocus r s).tray = s.tray ∧ (commandFocus r s).shadow = s.shadow ∧ (commandFocus r s).lamp =
    s.lamp ∧ (commandFocus r s).thermal = s.thermal ∧ (commandFocus r s).cue = s.cue ∧ (commandFocus r
    s).log = s.log ∧ (commandFocus r s).deck = s.deck ∧ (commandFocus r s).clip = s.clip ∧ (commandFocus r
    s).unit = s.unit ∧ (commandFocus r s).resetHeld = s.resetHeld ∧ (commandFocus r s).now = s.now ∧
    (commandFocus r s).pending = s.pending := by
  unfold commandFocus
  repeat' split
  all_goals simp

@[simp] theorem commandStandby_frame (s : State) :
    (commandStandby s).mem = s.mem ∧ (commandStandby s).port = s.port ∧ (commandStandby s).unit = s.unit ∧
    (commandStandby s).resetHeld = s.resetHeld ∧ (commandStandby s).now = s.now ∧ (commandStandby s).pending
    = s.pending := by
  unfold commandStandby
  repeat' split
  all_goals simp

@[simp] theorem routeCommand_frame (s : State) :
    (routeCommand s).mem = s.mem ∧ (routeCommand s).unit = s.unit ∧ (routeCommand s).resetHeld = s.resetHeld ∧
    (routeCommand s).now = s.now ∧ (routeCommand s).pending = s.pending := by
  have hi : ∀ (c : Prop) [Decidable c] (t u : State),
      (t.mem = s.mem ∧ t.unit = s.unit ∧ t.resetHeld = s.resetHeld ∧ t.now = s.now ∧ t.pending = s.pending) →
      (u.mem = s.mem ∧ u.unit = s.unit ∧ u.resetHeld = s.resetHeld ∧ u.now = s.now ∧ u.pending = s.pending) →
      ((if c then t else u).mem = s.mem ∧ (if c then t else u).unit = s.unit
        ∧ (if c then t else u).resetHeld = s.resetHeld ∧ (if c then t else u).now = s.now
        ∧ (if c then t else u).pending = s.pending) := by
    intro c _ t u ht hu; split
    · exact ht
    · exact hu
  unfold routeCommand
  dsimp only
  exact hi _ _ _ (by simp) (hi _ _ _ (by simp) (hi _ _ _ (by simp) (hi _ _ _ (by simp) (hi _ _ _ (by simp)
    (hi _ _ _ (by simp) (hi _ _ _ (by simp) (hi _ _ _ (by simp) (hi _ _ _ (by simp) (hi _ _ _ (by simp)
    (hi _ _ _ (by simp) (hi _ _ _ (by simp) (hi _ _ _ (by simp) (by simp)))))))))))))

@[simp] theorem stopCommand_frame (s : State) :
    (stopCommand s).mem = s.mem ∧ (stopCommand s).port = s.port ∧ (stopCommand s).thermal = s.thermal ∧
    (stopCommand s).cue = s.cue ∧ (stopCommand s).clip = s.clip ∧ (stopCommand s).unit = s.unit ∧
    (stopCommand s).resetHeld = s.resetHeld ∧ (stopCommand s).now = s.now ∧ (stopCommand s).pending =
    s.pending := by
  unfold stopCommand
  dsimp only
  repeat' split
  all_goals simp

@[simp] theorem discardRecord_frame (s : State) :
    (discardRecord s).mem = s.mem ∧ (discardRecord s).port = s.port ∧ (discardRecord s).cx = s.cx ∧
    (discardRecord s).tray = s.tray ∧ (discardRecord s).shadow = s.shadow ∧ (discardRecord s).lamp = s.lamp
    ∧ (discardRecord s).thermal = s.thermal ∧ (discardRecord s).cue = s.cue ∧ (discardRecord s).log = s.log
    ∧ (discardRecord s).deck = s.deck ∧ (discardRecord s).clip = s.clip ∧ (discardRecord s).remote =
    s.remote ∧ (discardRecord s).unit = s.unit ∧ (discardRecord s).resetHeld = s.resetHeld ∧ (discardRecord
    s).now = s.now ∧ (discardRecord s).pending = s.pending := by
  unfold discardRecord
  dsimp only
  repeat' split
  all_goals simp



@[simp] theorem resetCommand_frame (s : State) :
    (resetCommand s).mem = s.mem ∧ (resetCommand s).thermal = s.thermal ∧ (resetCommand s).unit = s.unit ∧
    (resetCommand s).resetHeld = s.resetHeld ∧ (resetCommand s).now = s.now ∧
    (resetCommand s).pending = s.pending := by
  unfold resetCommand
  simp [clearEvents]

@[simp] theorem acceptCommand_frame (code : Byte) (tag : Byte) (s : State) :
    (acceptCommand code tag s).mem = s.mem ∧ (acceptCommand code tag s).port = s.port ∧ (acceptCommand code
    tag s).cx = s.cx ∧ (acceptCommand code tag s).tray = s.tray ∧ (acceptCommand code tag s).shadow =
    s.shadow ∧ (acceptCommand code tag s).lamp = s.lamp ∧ (acceptCommand code tag s).thermal = s.thermal ∧
    (acceptCommand code tag s).cue = s.cue ∧ (acceptCommand code tag s).log = s.log ∧ (acceptCommand code
    tag s).deck = s.deck ∧ (acceptCommand code tag s).clip = s.clip ∧ (acceptCommand code tag s).remote =
    s.remote ∧ (acceptCommand code tag s).unit = s.unit ∧ (acceptCommand code tag s).resetHeld = s.resetHeld
    ∧ (acceptCommand code tag s).now = s.now ∧ (acceptCommand code tag s).pending = s.pending := by
  unfold acceptCommand
  repeat' split
  all_goals simp

@[simp] theorem triggerCommand_frame (v : Word) (s : State) :
    (triggerCommand v s).mem = s.mem ∧ (triggerCommand v s).thermal = s.thermal ∧ (triggerCommand v s).unit
    = s.unit ∧ (triggerCommand v s).resetHeld = s.resetHeld ∧ (triggerCommand v s).now = s.now ∧
    (triggerCommand v s).pending = s.pending := by
  unfold triggerCommand
  dsimp only
  repeat' split
  all_goals simp

@[simp] theorem takeWord_frame (i : Nat) (v : Word) (s : State) :
    (takeWord i v s).mem = s.mem ∧ (takeWord i v s).cx = s.cx ∧ (takeWord i v s).remote = s.remote ∧
    (takeWord i v s).unit = s.unit ∧ (takeWord i v s).resetHeld = s.resetHeld ∧ (takeWord i v s).now = s.now
    ∧ (takeWord i v s).pending = s.pending := by
  unfold takeWord
  repeat' split
  all_goals simp

@[simp] theorem cancelCorrection_frame (i : Nat) (s : State) :
    (cancelCorrection i s).mem = s.mem ∧ (cancelCorrection i s).sw = s.sw ∧ (cancelCorrection i s).cx = s.cx
    ∧ (cancelCorrection i s).tray = s.tray ∧ (cancelCorrection i s).shadow = s.shadow ∧ (cancelCorrection i
    s).lamp = s.lamp ∧ (cancelCorrection i s).thermal = s.thermal ∧ (cancelCorrection i s).cue = s.cue ∧
    (cancelCorrection i s).log = s.log ∧ (cancelCorrection i s).deck = s.deck ∧ (cancelCorrection i s).clip
    = s.clip ∧ (cancelCorrection i s).remote = s.remote ∧ (cancelCorrection i s).unit = s.unit ∧
    (cancelCorrection i s).resetHeld = s.resetHeld ∧ (cancelCorrection i s).now = s.now ∧ (cancelCorrection
    i s).pending = s.pending := by
  unfold cancelCorrection
  dsimp only
  simp

@[simp] theorem evaluateHeader_frame (i : Nat) (w : LaneWrite) (s : State) :
    (evaluateHeader i w s).mem = s.mem ∧ (evaluateHeader i w s).unit = s.unit ∧ (evaluateHeader i w
    s).resetHeld = s.resetHeld ∧ (evaluateHeader i w s).now = s.now ∧ (evaluateHeader i w s).pending =
    s.pending := by
  unfold evaluateHeader
  dsimp only
  repeat' split
  all_goals simp

@[simp] theorem statusLanded_frame (v : Word) (s : State) :
    (statusLanded v s).mem = s.mem ∧ (statusLanded v s).unit = s.unit ∧ (statusLanded v s).resetHeld =
    s.resetHeld ∧ (statusLanded v s).now = s.now ∧ (statusLanded v s).pending = s.pending := by
  unfold statusLanded
  dsimp only
  repeat' split
  all_goals simp

@[simp] theorem resultLanded_frame (i : Nat) (s : State) :
    (resultLanded i s).mem = s.mem ∧ (resultLanded i s).port = s.port ∧ (resultLanded i s).cx = s.cx ∧
    (resultLanded i s).tray = s.tray ∧ (resultLanded i s).shadow = s.shadow ∧ (resultLanded i s).lamp =
    s.lamp ∧ (resultLanded i s).thermal = s.thermal ∧ (resultLanded i s).cue = s.cue ∧ (resultLanded i
    s).log = s.log ∧ (resultLanded i s).deck = s.deck ∧ (resultLanded i s).clip = s.clip ∧ (resultLanded i
    s).remote = s.remote ∧ (resultLanded i s).unit = s.unit ∧ (resultLanded i s).resetHeld = s.resetHeld ∧
    (resultLanded i s).now = s.now ∧ (resultLanded i s).pending = s.pending := by
  unfold resultLanded
  dsimp only
  repeat' split
  all_goals simp

@[simp] theorem eventsLanded_frame (old : Word) (v : Word) (preReset : Bool) (s : State) :
    (eventsLanded old v preReset s).mem = s.mem ∧ (eventsLanded old v preReset s).port = s.port ∧
    (eventsLanded old v preReset s).hdr = s.hdr ∧ (eventsLanded old v preReset s).cx = s.cx ∧ (eventsLanded
    old v preReset s).tray = s.tray ∧ (eventsLanded old v preReset s).shadow = s.shadow ∧ (eventsLanded old
    v preReset s).lamp = s.lamp ∧ (eventsLanded old v preReset s).thermal = s.thermal ∧ (eventsLanded old v
    preReset s).cue = s.cue ∧ (eventsLanded old v preReset s).log = s.log ∧ (eventsLanded old v preReset
    s).deck = s.deck ∧ (eventsLanded old v preReset s).clip = s.clip ∧ (eventsLanded old v preReset
    s).remote = s.remote ∧ (eventsLanded old v preReset s).unit = s.unit ∧ (eventsLanded old v preReset
    s).resetHeld = s.resetHeld ∧ (eventsLanded old v preReset s).now = s.now ∧ (eventsLanded old v preReset
    s).pending = s.pending := by
  unfold eventsLanded
  repeat' split
  all_goals simp

@[simp] theorem firstWritten_frame (i : Nat) (s : State) :
    (firstWritten i s).mem = s.mem ∧ (firstWritten i s).port = s.port ∧ (firstWritten i s).hdr = s.hdr ∧
    (firstWritten i s).cx = s.cx ∧ (firstWritten i s).tray = s.tray ∧ (firstWritten i s).shadow = s.shadow ∧
    (firstWritten i s).lamp = s.lamp ∧ (firstWritten i s).thermal = s.thermal ∧ (firstWritten i s).cue =
    s.cue ∧ (firstWritten i s).log = s.log ∧ (firstWritten i s).deck = s.deck ∧ (firstWritten i s).clip =
    s.clip ∧ (firstWritten i s).remote = s.remote ∧ (firstWritten i s).unit = s.unit ∧ (firstWritten i
    s).resetHeld = s.resetHeld ∧ (firstWritten i s).now = s.now ∧ (firstWritten i s).pending = s.pending := by
  unfold firstWritten
  dsimp only
  repeat' split
  all_goals simp

@[simp] theorem statusWordLanded_frame (i : Nat) (v : Word) (afterHand : Bool) (preReset : Bool) (s : State) :
    (statusWordLanded i v afterHand preReset s).mem = s.mem ∧ (statusWordLanded i v afterHand preReset
    s).unit = s.unit ∧ (statusWordLanded i v afterHand preReset s).resetHeld = s.resetHeld ∧
    (statusWordLanded i v afterHand preReset s).now = s.now ∧ (statusWordLanded i v afterHand preReset
    s).pending = s.pending := by
  unfold statusWordLanded
  dsimp only
  repeat' split
  all_goals simp

@[simp] theorem correctionWritten_frame (i : Nat) (v : Word) (s : State) :
    (correctionWritten i v s).mem = s.mem ∧ (correctionWritten i v s).port = s.port ∧ (correctionWritten i v
    s).sw = s.sw ∧ (correctionWritten i v s).cx = s.cx ∧ (correctionWritten i v s).tray = s.tray ∧
    (correctionWritten i v s).shadow = s.shadow ∧ (correctionWritten i v s).lamp = s.lamp ∧
    (correctionWritten i v s).thermal = s.thermal ∧ (correctionWritten i v s).cue = s.cue ∧
    (correctionWritten i v s).log = s.log ∧ (correctionWritten i v s).deck = s.deck ∧ (correctionWritten i v
    s).clip = s.clip ∧ (correctionWritten i v s).remote = s.remote ∧ (correctionWritten i v s).unit = s.unit
    ∧ (correctionWritten i v s).resetHeld = s.resetHeld ∧ (correctionWritten i v s).now = s.now ∧
    (correctionWritten i v s).pending = s.pending := by
  unfold correctionWritten
  dsimp only
  simp

@[simp] theorem statusNotice_frame (s : State) :
    (statusNotice s).mem = s.mem ∧ (statusNotice s).port = s.port ∧ (statusNotice s).hdr = s.hdr ∧
    (statusNotice s).cx = s.cx ∧ (statusNotice s).tray = s.tray ∧ (statusNotice s).shadow = s.shadow ∧
    (statusNotice s).lamp = s.lamp ∧ (statusNotice s).thermal = s.thermal ∧ (statusNotice s).cue = s.cue ∧
    (statusNotice s).log = s.log ∧ (statusNotice s).deck = s.deck ∧ (statusNotice s).clip = s.clip ∧
    (statusNotice s).remote = s.remote ∧ (statusNotice s).unit = s.unit ∧ (statusNotice s).resetHeld =
    s.resetHeld ∧ (statusNotice s).now = s.now ∧ (statusNotice s).pending = s.pending := by
  unfold statusNotice
  repeat' split
  all_goals simp

@[simp] theorem eventsNotice_frame (s : State) :
    (eventsNotice s).mem = s.mem ∧ (eventsNotice s).port = s.port ∧ (eventsNotice s).hdr = s.hdr ∧
    (eventsNotice s).cx = s.cx ∧ (eventsNotice s).tray = s.tray ∧ (eventsNotice s).shadow = s.shadow ∧
    (eventsNotice s).lamp = s.lamp ∧ (eventsNotice s).thermal = s.thermal ∧ (eventsNotice s).cue = s.cue ∧
    (eventsNotice s).log = s.log ∧ (eventsNotice s).deck = s.deck ∧ (eventsNotice s).clip = s.clip ∧
    (eventsNotice s).remote = s.remote ∧ (eventsNotice s).unit = s.unit ∧ (eventsNotice s).resetHeld =
    s.resetHeld ∧ (eventsNotice s).now = s.now ∧ (eventsNotice s).pending = s.pending := by
  unfold eventsNotice
  dsimp only
  repeat' split
  all_goals simp

/-- The lamp after a change of state: what is left of its firings (R83, R89, R90). -/
theorem setLampState_lamp (st : LampState) (s : State) (h : s.lamp.state ≠ st) :
    (setLampState st s).lamp = { s.lamp with
      state := st, judging := s.lamp.judging && st.lit, firing := if st.lit then s.lamp.firing else none } := by
  simp [setLampState, h]

/-- A half-cycle begins with no pulse of LAMP_FIRE (R83). -/
@[simp] theorem computeLight_fired (crossing : Bool) (s : State) : (computeLight crossing s).lamp.fired = none := by
  simp [computeLight]

/-- Only a lit lamp, in a real half-cycle with mains present, has a firing scheduled (R83). -/
theorem computeLight_firing (crossing : Bool) (s : State) (fr : Firing)
    (h : (computeLight crossing s).lamp.firing = some fr) :
    crossing = true ∧ s.lamp.mainsPresent = true ∧ s.lamp.state.lit = true ∧ fr.k ≠ 0 ∧
      fr.time = s.now + firingDelay s.lamp.h fr.k := by
  simp only [computeLight, putLamp_lamp] at h
  split at h
  · cases h; simp_all
  · cases h

/-- A firing due is made when the lamp is lit and mains present, and none is pending after (R83). -/
theorem fireLamp_due (s : State) (fr : Firing) (hf : s.lamp.firing = some fr) (ht : fr.time ≤ s.now) :
    (fireLamp s).lamp.firing = none ∧
      (fireLamp s).lamp.fired =
        if s.lamp.state.lit && s.lamp.mainsPresent then some fr else s.lamp.fired := by
  simp [fireLamp, hf, ht]

end Sys2Proof.Machine
end

