-- ==== Sys2Proof/Laws/Marks.lean ====
section
/-! SUPPORT. Every update makes dirty the Status Block words whose composed value it changes (R206). -/

namespace Sys2Proof.Machine

/-! ## The dirty set -/

theorem mem_insertIndex (i j : Nat) (l : List Nat) : j ∈ insertIndex i l ↔ j = i ∨ j ∈ l := by
  induction l with
  | nil => simp [insertIndex]
  | cons k l ih =>
    unfold insertIndex
    split
    · simp
    · split
      · subst_vars; simp
      · simp only [List.mem_cons, ih]; tauto

theorem mem_markDirty (i : Nat) (s : State) (j : Nat) :
    j ∈ (markDirty i s).sw.dirty ↔ j = i ∨ j ∈ s.sw.dirty := mem_insertIndex i j _

theorem mem_markIf (b : Bool) (i : Nat) (s : State) (j : Nat) :
    j ∈ (markIf b i s).sw.dirty ↔ (b = true ∧ j = i) ∨ j ∈ s.sw.dirty := by
  cases b <;> simp [markIf, mem_markDirty]

theorem mem_markStatus (s : State) (j : Nat) :
    j ∈ (markStatus s).sw.dirty ↔ j = 0 ∨ j = 1 ∨ j ∈ s.sw.dirty := by
  simp [markStatus, mem_markDirty]

theorem mem_markStatusIf (b : Bool) (s : State) (j : Nat) :
    j ∈ (markStatusIf b s).sw.dirty ↔ (b = true ∧ (j = 0 ∨ j = 1)) ∨ j ∈ s.sw.dirty := by
  cases b <;> simp [markStatusIf, mem_markStatus, or_assoc]

theorem mem_foldMarks (l : List Nat) (p : Nat → Bool) (s : State) (j : Nat) :
    j ∈ (l.foldl (fun s k => markIf (p k) (52 + k) s) s).sw.dirty
      ↔ (∃ k ∈ l, p k = true ∧ j = 52 + k) ∨ j ∈ s.sw.dirty := by
  induction l generalizing s with
  | nil => simp
  | cons k l ih =>
    simp only [List.foldl_cons, ih, mem_markIf, List.mem_cons, exists_eq_or_imp]
    constructor
    · rintro (h | h | h)
      · exact .inl (.inr h)
      · exact .inl (.inl h)
      · exact .inr h
    · rintro ((h | h) | h)
      · exact .inr (.inl h)
      · exact .inl h
      · exact .inr (.inr h)

/-! ## The relation -/

/-- t differs from s in no composed word that it does not have dirty, keeps every dirty word dirty, and leaves the port
and the words as last written alone. -/
structure Marks (s t : State) : Prop where
  port : t.port = s.port
  copy : t.sw.copy = s.sw.copy
  held : t.resetHeld = s.resetHeld
  dirty : ∀ i, i ∈ s.sw.dirty → i ∈ t.sw.dirty
  words : ∀ i, i ∉ t.sw.dirty → compose t i = compose s i

theorem Marks.refl (s : State) : Marks s s := ⟨rfl, rfl, rfl, fun _ h => h, fun _ _ => rfl⟩

theorem Marks.trans {s t u : State} (h : Marks s t) (k : Marks t u) : Marks s u :=
  ⟨k.port.trans h.port, k.copy.trans h.copy, k.held.trans h.held, fun i m => k.dirty i (h.dirty i m),
    fun i m => (k.words i m).trans (h.words i (fun n => m (k.dirty i n)))⟩

/-- An update that marks what it changes keeps every word of the Status Block (R206). -/
theorem StatusKept.of_marks {s t : State} (h : Marks s t) (k : StatusKept s) : StatusKept t := by
  intro hr i hi
  have kw := k (h.held ▸ hr) i hi
  unfold wordKept at kw ⊢
  rw [h.port, h.copy]
  by_cases hd : i ∈ t.sw.dirty
  · split
    · split
      · exact .inr hd
      · exact .inl hd
    · exact .inl hd
  · rw [h.words i hd]
    have hs : i ∉ s.sw.dirty := fun n => hd (h.dirty i n)
    split
    · rename_i e
      rw [e] at kw
      dsimp only at kw ⊢
      split
      · rename_i c; rw [if_pos c] at kw; exact kw.imp id (h.dirty i)
      · rename_i c; rw [if_neg c] at kw; exact kw.imp (h.dirty i) id
    · rename_i e
      rw [e] at kw
      exact kw.imp (h.dirty i) id

/-- What word i is composed from (R215): two states that agree on it compose the same word. -/
theorem compose_congr {s t : State} {i : Nat}
    (h0 : i = 0 ∨ i = 1 → statusWord t = statusWord s) (h2 : i = 2 → t.sw.latches = s.sw.latches)
    (h3 : i = 3 → resultWord t = resultWord s) (h4 : i = 4 → t.sw.remaining = s.sw.remaining)
    (h5 : i = 5 → t.sw.lastSlot = s.sw.lastSlot) (h6 : i = 6 → t.sw.rejectTag = s.sw.rejectTag)
    (h7 : i = 7 → positionWord t.tray = positionWord s.tray) (h8 : i = 8 → t.lamp.lout = s.lamp.lout)
    (h9 : i = 9 → t.thermal.ce = s.thermal.ce) (h10 : i = 10 → t.lamp.k = s.lamp.k)
    (h11 : i = 11 → t.lamp.h = s.lamp.h) (h12 : i = 12 → t.thermal.th = s.thermal.th)
    (h13 : i = 13 → t.thermal.tg = s.thermal.tg) (h14 : i = 14 → fanWord t.thermal = fanWord s.thermal)
    (h15 : i = 15 ∨ i = 16 → t.lamp.minutes = s.lamp.minutes) (h17 : i = 17 → t.log.w = s.log.w)
    (h18 : i = 18 → t.cue.good = s.cue.good) (h19 : i = 19 → t.cue.bad = s.cue.bad)
    (h20 : i = 20 → t.cue.repeats = s.cue.repeats) (h21 : i = 21 → t.log.overflow = s.log.overflow)
    (h22 : i = 22 → queueWord t = queueWord s) (h23 : i = 23 → clipWord t.clip = clipWord s.clip)
    (h24 : i = 24 → t.clip.underruns = s.clip.underruns) (h25 : i = 25 → t.remote.netCount = s.remote.netCount)
    (h26 : i = 26 → shadowWord t.shadow = shadowWord s.shadow) (h27 : i = 27 → t.unit = s.unit)
    (h28 : i = 28 → t.cue.tapeTime = s.cue.tapeTime)
    (h52 : ∀ j, i = 52 + j → j < 12 → presenceWord t.tray j = presenceWord s.tray j) :
    compose t i = compose s i := by
  unfold compose
  split
  · exact h0 (.inl rfl)
  · exact h0 (.inr rfl)
  · exact h2 rfl
  · exact h3 rfl
  · rw [h4 rfl]
  · rw [h5 rfl]
  · rw [h6 rfl]
  · exact h7 rfl
  · rw [h8 rfl]
  · rw [h9 rfl]
  · rw [h10 rfl]
  · rw [h11 rfl]
  · rw [h12 rfl]
  · rw [h13 rfl]
  · exact h14 rfl
  · rw [h15 (.inl rfl)]
  · rw [h15 (.inr rfl)]
  · rw [h17 rfl]
  · rw [h18 rfl]
  · rw [h19 rfl]
  · rw [h20 rfl]
  · rw [h21 rfl]
  · exact h22 rfl
  · exact h23 rfl
  · rw [h24 rfl]
  · rw [h25 rfl]
  · exact h26 rfl
  · unfold identityWord; rw [h27 rfl]
  · rw [h28 rfl]
  · split
    · rename_i h
      exact h52 _ (by omega) (by omega)
    · rfl

/-- compose reads nothing of the dirty set. -/
theorem compose_dirty (s : State) (d : List Nat) (i : Nat) :
    compose { s with sw := { s.sw with dirty := d } } i = compose s i := by
  unfold compose; split <;> rfl

theorem marks_markDirty (i : Nat) (s : State) : Marks s (markDirty i s) :=
  ⟨rfl, rfl, rfl, fun j h => (mem_markDirty i s j).2 (.inr h), fun _ _ => compose_dirty s _ _⟩

theorem marks_markIf (b : Bool) (i : Nat) (s : State) : Marks s (markIf b i s) := by
  cases b
  · exact .refl s
  · exact marks_markDirty i s

theorem marks_markStatus (s : State) : Marks s (markStatus s) :=
  (marks_markDirty 1 s).trans (marks_markDirty 0 _)

/-! ## The updates -/

/-- An event latched: EVENTS and STATUS, and ALT_STATUS when ATTN changes (R206, R207). -/
theorem marks_latch (e : Event) (s : State) : Marks s (latch e s) := by
  refine ⟨by simp, by simp, by simp, ?_, ?_⟩
  · intro i h
    unfold latch
    split
    · exact h
    · simp only [mem_markDirty, mem_markIf]; exact .inr (.inr (.inr h))
  · intro i h
    unfold latch at h
    split at h
    · rename_i c; unfold latch; rw [if_pos c]
    · rename_i c
      simp only [mem_markDirty, mem_markIf, not_or, Bool.not_eq_true', not_and] at h
      obtain ⟨h2, h0, h1, _⟩ := h
      have key : i = 1 → (latch e s).sw.attn = s.sw.attn := by
        intro h
        have ha : s.sw.attn = true := by
          by_contra hc
          exact h1 (by simpa using hc) h
        rw [ha]
        have hb : s.sw.latches ≠ 0 := by simpa [StatusWriter.attn] using ha
        simp only [StatusWriter.attn, latch_sw_latches, decide_eq_true_eq]
        intro hz
        exact hb (BitVec.or_eq_zero_iff.1 hz).1
      apply compose_congr <;> intro hi <;>
        simp_all [statusWord, resultWord, queueWord, State.prog]

theorem marks_putLamp (l : Lamp) (s : State) : Marks s (putLamp l s) := by
  refine ⟨by simp, by simp, by simp, ?_, ?_⟩
  · intro i h
    simp only [putLamp, mem_markIf, mem_markStatusIf]
    simp [h]
  · intro i h
    simp only [putLamp, mem_markIf, mem_markStatusIf, not_or, not_and, decide_eq_true_eq, ne_eq] at h
    apply compose_congr <;> intro hi <;>
      (try rcases hi with hi | hi) <;>
      simp_all [statusWord, StatusWriter.attn, resultWord, queueWord, State.prog]

theorem marks_putThermal (t : Thermal) (s : State) : Marks s (putThermal t s) := by
  refine ⟨by simp, by simp, by simp, ?_, ?_⟩
  · intro i h
    simp only [putThermal, mem_markIf, mem_markStatusIf]
    simp [h]
  · intro i h
    simp only [putThermal, mem_markIf, mem_markStatusIf, not_or, not_and, decide_eq_true_eq, ne_eq] at h
    apply compose_congr <;> intro hi <;>
      (try rcases hi with hi | hi) <;>
      simp_all [statusWord, StatusWriter.attn, resultWord, queueWord, State.prog, fanWord]

theorem marks_putLog (l : LogWriter) (s : State) : Marks s (putLog l s) := by
  refine ⟨by simp, by simp, by simp, ?_, ?_⟩
  · intro i h
    simp only [putLog, mem_markIf]
    simp [h]
  · intro i h
    simp only [putLog, mem_markIf, not_or, not_and, decide_eq_true_eq, ne_eq] at h
    apply compose_congr <;> intro hi <;>
      (try rcases hi with hi | hi) <;>
      simp_all [statusWord, StatusWriter.attn, resultWord, queueWord, State.prog]

theorem marks_putClip (c : ClipPlayer) (s : State) : Marks s (putClip c s) := by
  refine ⟨by simp, by simp, by simp, ?_, ?_⟩
  · intro i h
    simp only [putClip, mem_markIf]
    simp [h]
  · intro i h
    simp only [putClip, mem_markIf, not_or, not_and, decide_eq_true_eq, ne_eq] at h
    apply compose_congr <;> intro hi <;>
      (try rcases hi with hi | hi) <;>
      simp_all [statusWord, StatusWriter.attn, resultWord, queueWord, State.prog]

theorem marks_putRemote (r : Remote) (s : State) : Marks s (putRemote r s) := by
  refine ⟨by simp, by simp, by simp, ?_, ?_⟩
  · intro i h
    simp only [putRemote, mem_markIf]
    simp [h]
  · intro i h
    simp only [putRemote, mem_markIf, not_or, not_and, decide_eq_true_eq, ne_eq] at h
    apply compose_congr <;> intro hi <;>
      (try rcases hi with hi | hi) <;>
      simp_all [statusWord, StatusWriter.attn, resultWord, queueWord, State.prog]

theorem marks_putShadow (sh : Shadow) (s : State) : Marks s (putShadow sh s) := by
  refine ⟨by simp, by simp, by simp, ?_, ?_⟩
  · intro i h
    simp only [putShadow, mem_markIf]
    simp [h]
  · intro i h
    simp only [putShadow, mem_markIf, not_or, not_and, decide_eq_true_eq, ne_eq] at h
    apply compose_congr <;> intro hi <;>
      (try rcases hi with hi | hi) <;>
      simp_all [statusWord, StatusWriter.attn, resultWord, queueWord, State.prog]

theorem marks_putCue (c : CueTrack) (s : State) : Marks s (putCue c s) := by
  refine ⟨by simp, by simp, by simp, ?_, ?_⟩
  · intro i h
    simp only [putCue, mem_markIf, mem_markStatusIf]
    simp [h]
  · intro i h
    simp only [putCue, mem_markIf, mem_markStatusIf, not_or, not_and, decide_eq_true_eq, ne_eq] at h
    apply compose_congr <;> intro hi <;>
      (try rcases hi with hi | hi) <;>
      simp_all [statusWord, StatusWriter.attn, resultWord, queueWord, State.prog]

theorem marks_putDeck (d : Deck) (s : State) : Marks s (putDeck d s) := by
  refine ⟨by simp, by simp, by simp, ?_, ?_⟩
  · intro i h
    simp only [putDeck, mem_markIf, mem_markStatusIf]
    simp [h]
  · intro i h
    simp only [putDeck, mem_markIf, mem_markStatusIf, not_or, not_and, decide_eq_true_eq, ne_eq] at h
    apply compose_congr <;> intro hi <;>
      (try rcases hi with hi | hi) <;>
      simp_all [statusWord, StatusWriter.attn, resultWord, queueWord, State.prog, Deck.paused]

theorem marks_putRecord (r : CommandRecord) (s : State) : Marks s (putRecord r s) := by
  refine ⟨by simp, by simp, by simp, ?_, ?_⟩
  · intro i h
    simp only [putRecord, mem_markStatusIf]
    simp [h]
  · intro i h
    simp only [putRecord, mem_markStatusIf, not_or, not_and, decide_eq_true_eq, ne_eq] at h
    apply compose_congr <;> intro hi <;>
      (try rcases hi with hi | hi) <;>
      simp_all [statusWord, StatusWriter.attn, resultWord, queueWord, State.prog]

theorem marks_putSettings (st : Settings) (s : State) : Marks s (putSettings st s) := by
  refine ⟨by simp [putSettings], by simp [putSettings], by simp [putSettings], ?_, ?_⟩
  · intro i h
    simp only [putSettings, mem_markStatusIf]
    simp [h]
  · intro i h
    simp only [putSettings, mem_markStatusIf, not_or, not_and, decide_eq_true_eq, ne_eq] at h
    apply compose_congr <;> intro hi <;>
      (try rcases hi with hi | hi) <;>
      simp_all [statusWord, StatusWriter.attn, resultWord, queueWord, State.prog, putSettings]

theorem marks_autoHold (s : State) : Marks s (autoHold s) := by
  unfold autoHold
  repeat' split
  all_goals first
    | exact marks_putDeck _ s
    | exact .refl s

theorem marks_markStatusIf (b : Bool) (s : State) : Marks s (markStatusIf b s) := by
  cases b
  · exact .refl s
  · exact marks_markStatus s

/-- The executor's own fields, before auto-hold is told of the queue's length. -/
theorem marks_cxWords (c : CueExecutor) (s : State) :
    Marks s (markIf (decide (c.queue.length ≠ s.cx.queue.length)) 22
      (markStatusIf (decide (c.busy ≠ s.cx.busy)) { s with cx := c })) := by
  refine ⟨by simp, by simp, by simp, ?_, ?_⟩
  · intro i h
    simp only [mem_markIf, mem_markStatusIf]
    simp [h]
  · intro i h
    simp only [mem_markIf, mem_markStatusIf, not_or, not_and, decide_eq_true_eq, ne_eq] at h
    apply compose_congr <;> intro hi <;>
      (try rcases hi with hi | hi) <;>
      simp_all [statusWord, StatusWriter.attn, resultWord, queueWord, State.prog]

theorem marks_putCx (c : CueExecutor) (s : State) : Marks s (putCx c s) := by
  have h := marks_cxWords c s
  unfold putCx
  dsimp only
  split
  · rename_i e
    rwa [show decide (c.queue.length ≠ s.cx.queue.length) = false from by simp [e]] at h
  · rename_i e
    rw [show decide (c.queue.length ≠ s.cx.queue.length) = true from by simp [e]] at h
    exact h.trans (marks_autoHold _)

theorem marks_putTray (t : Tray) (s : State) : Marks s (putTray t s) := by
  refine ⟨by simp, by simp, by simp, ?_, ?_⟩
  · intro i h
    unfold putTray
    dsimp only
    split
    · simp only [mem_markIf, mem_markStatusIf]; simp [h]
    · simp only [mem_foldMarks, mem_markIf, mem_markStatusIf]; simp [h]
  · intro i h
    have h' : ¬(t.state ≠ s.tray.state ∧ (i = 0 ∨ i = 1))
        ∧ ¬((t.n ≠ s.tray.n ∨ t.slot ≠ s.tray.slot ∨ t.known ≠ s.tray.known ∨ t.gate ≠ s.tray.gate) ∧ i = 7)
        ∧ ∀ j, i = 52 + j → j < 12 → presenceWord t j = presenceWord s.tray j := by
      unfold putTray at h
      dsimp only at h
      split at h
      · rename_i e
        simp only [mem_markIf, mem_markStatusIf, decide_eq_true_eq, not_or] at h
        refine ⟨h.2.1, h.1, ?_⟩
        intro j _ _; unfold presenceWord; rw [e]
      · simp only [mem_foldMarks, mem_markIf, mem_markStatusIf, decide_eq_true_eq, not_or] at h
        refine ⟨h.2.2.1, h.2.1, ?_⟩
        intro j hj hl
        by_contra hc
        exact h.1 ⟨j, List.mem_range.2 hl, by simpa using hc, hj⟩
    obtain ⟨g1, g2, g3⟩ := h'
    apply compose_congr <;> intro hi
    case h0 =>
      have : t.state = s.tray.state := by
        by_contra hc; exact g1 ⟨hc, hi⟩
      simp [statusWord, StatusWriter.attn, State.prog, this]
    case h7 =>
      have : ¬(t.n ≠ s.tray.n ∨ t.slot ≠ s.tray.slot ∨ t.known ≠ s.tray.known ∨ t.gate ≠ s.tray.gate) :=
        fun hc => g2 ⟨hc, hi⟩
      simp only [ne_eq, not_or, not_not] at this
      simp [positionWord, this]
    case h52 => simpa using g3 hi
    all_goals simp [resultWord, queueWord]

end Sys2Proof.Machine
end

