-- ==== Sys2Proof/Laws/Memory.lean ====
section
/-! SUPPORT. The RAM: a read after a write, a write leaves the other bytes alone, and every memory operation keeps the
canonical form. -/

namespace Sys2Proof.Machine

theorem memOkFrom_mono {m : List Host.Cell} {lo lo' : Nat} (h : memOkFrom lo m = true) (hl : lo' ≤ lo) :
    memOkFrom lo' m = true := by
  cases m with
  | nil => rfl
  | cons c rest =>
    obtain ⟨a, v⟩ := c
    simp only [memOkFrom, Bool.and_eq_true, decide_eq_true_eq] at h ⊢
    exact ⟨⟨⟨by omega, h.1.1.2⟩, h.1.2⟩, h.2⟩

/-- Storing a byte inside the RAM keeps the canonical form, from any lower bound at or below its address. -/
theorem memOkFrom_memSet {m : List Host.Cell} {lo a : Nat} (v : Byte) (h : memOkFrom lo m = true) (hl : lo ≤ a)
    (ha : a < ramBytes) : memOkFrom lo (memSet m a v) = true := by
  induction m generalizing lo with
  | nil =>
    by_cases hv : v = Config.unwrittenByte
    · simp [memSet, hv, memOkFrom]
    · simp [memSet, hv, memOkFrom, hl, ha]
  | cons c rest ih =>
    obtain ⟨b, w⟩ := c
    have hh := h
    simp only [memOkFrom, Bool.and_eq_true, decide_eq_true_eq] at h
    obtain ⟨⟨⟨h1, h2⟩, h3⟩, h4⟩ := h
    unfold memSet
    split
    · rename_i hlt
      split
      · exact hh
      · rename_i hv
        simp only [memOkFrom, Bool.and_eq_true, decide_eq_true_eq]
        exact ⟨⟨⟨hl, ha⟩, hv⟩, ⟨⟨⟨by omega, h2⟩, h3⟩, h4⟩⟩
    · split
      · rename_i heq
        split
        · exact memOkFrom_mono h4 (by omega)
        · rename_i hv
          simp only [memOkFrom, Bool.and_eq_true, decide_eq_true_eq]
          exact ⟨⟨⟨hl, ha⟩, hv⟩, by subst heq; exact h4⟩
      · rename_i hn hne
        simp only [memOkFrom, Bool.and_eq_true, decide_eq_true_eq]
        exact ⟨⟨⟨h1, h2⟩, h3⟩, ih h4 (by omega)⟩

theorem wf_memSet {m : List Host.Cell} {a : Nat} (v : Byte) (h : Memory.wf m = true) (ha : a < ramBytes) :
    Memory.wf (memSet m a v) = true := memOkFrom_memSet v h (Nat.zero_le a) ha

/-- A word is stored inside the RAM, whatever the address. -/
theorem wf_memSetWord {m : List Host.Cell} (a : Nat) (w : Word) (h : Memory.wf m = true) :
    Memory.wf (memSetWord m a w) = true :=
  wf_memSet _ (wf_memSet _ h (Nat.mod_lt _ (by decide))) (Nat.mod_lt _ (by decide))

/-- A host write keeps the canonical form. -/
theorem wf_memStore {m : List Host.Cell} (a : WordAddr) (w : LaneWrite) (h : Memory.wf m = true) :
    Memory.wf (memStore m a w) = true := by
  have ha := a.isLt
  unfold memStore
  cases w with
  | word v => exact wf_memSetWord _ _ h
  | low v => exact wf_memSet _ h (by unfold ramBytes; omega)
  | high v => exact wf_memSet _ h (by unfold ramBytes; omega)

/-- Reading below every listed address gives what an unlisted address reads as. -/
theorem memByte_below {m : List Host.Cell} {lo a : Nat} (h : memOkFrom lo m = true) (hl : a < lo) :
    memByte m a = Config.unwrittenByte := by
  induction m generalizing lo with
  | nil => rfl
  | cons c rest ih =>
    obtain ⟨b, w⟩ := c
    simp only [memOkFrom, Bool.and_eq_true, decide_eq_true_eq] at h
    obtain ⟨⟨⟨h1, _⟩, _⟩, h4⟩ := h
    simp only [memByte]
    rw [if_neg (by omega)]
    exact ih h4 (by omega)

/-- A write leaves every other byte alone. -/
theorem memByte_memSet_ne (m : List Host.Cell) {a c : Nat} (v : Byte) (hc : c ≠ a) :
    memByte (memSet m a v) c = memByte m c := by
  induction m with
  | nil => by_cases hv : v = Config.unwrittenByte <;> simp [memSet, hv, memByte, hc.symm]
  | cons d rest ih =>
    obtain ⟨b, w⟩ := d
    unfold memSet
    split
    · split
      · rfl
      · simp [memByte, hc.symm]
    · split
      · rename_i heq
        subst heq
        split <;> simp [memByte, hc.symm]
      · simp only [memByte]; split
        · rfl
        · exact ih

/-- A read after a write to the same place gives the byte written. -/
theorem memByte_memSet_same {m : List Host.Cell} {lo : Nat} (a : Nat) (v : Byte) (h : memOkFrom lo m = true) :
    memByte (memSet m a v) a = v := by
  induction m generalizing lo with
  | nil => by_cases hv : v = Config.unwrittenByte <;> simp [memSet, hv, memByte]
  | cons d rest ih =>
    obtain ⟨b, w⟩ := d
    have hh := h
    simp only [memOkFrom, Bool.and_eq_true, decide_eq_true_eq] at h
    obtain ⟨⟨⟨h1, h2⟩, h3⟩, h4⟩ := h
    unfold memSet
    split
    · rename_i hlt
      split
      · rename_i hv
        rw [hv]
        have : memOkFrom b ((b, w) :: rest) = true := by
          simp only [memOkFrom, Bool.and_eq_true, decide_eq_true_eq]
          exact ⟨⟨⟨Nat.le_refl b, h2⟩, h3⟩, h4⟩
        exact memByte_below this hlt
      · simp [memByte]
    · split
      · rename_i heq
        subst heq
        split
        · rename_i hv
          rw [hv]; exact memByte_below h4 (Nat.lt_succ_self a)
        · simp [memByte]
      · rename_i hn hne
        simp only [memByte]
        rw [if_neg (fun e => hne e.symm)]
        exact ih h4

end Sys2Proof.Machine
end

