-- ==== Sys2Proof/Laws/Moves.lean ====
section
/-! SUPPORT. Everything a step can do, said once: a state follows from another by the named updates, each with what
holds when the machine makes it. Invariants of the machine are proved by induction over `Moves`. -/

namespace Sys2Proof.Machine

/-- What the fan duty is decided from, and the duty, are as they were (R108). -/
def Thermal.sameDuty (t o : Thermal) : Prop :=
  t.power = o.power ∧ t.duty = o.duty ∧ t.fanFault = o.fanFault ∧ t.runOn = o.runOn ∧ t.zone = o.zone ∧
    (o.countsOk → t.sensorFault = o.sensorFault ∧ t.countsOk)

/-- The fields of the Status Writer that the Status Block words are composed from, its record of them and its dirty set
are as they were. -/
def StatusWriter.sameWords (w o : StatusWriter) : Prop :=
  w.copy = o.copy ∧ w.dirty = o.dirty ∧ w.latches = o.latches ∧ w.rdy = o.rdy ∧ w.resultTag = o.resultTag
    ∧ w.resultCode = o.resultCode ∧ w.remaining = o.remaining ∧ w.lastSlot = o.lastSlot
    ∧ w.rejectTag = o.rejectTag ∧ w.fail = o.fail

/-- t follows from s by the updates the machine makes. -/
inductive Moves : State → State → Prop
  | refl (s) : Moves s s
  | trans {s t u} : Moves s t → Moves t u → Moves s u
  | tray (t) (s) : Moves s (putTray t s)
  | lamp (l) (s) : l.state = s.lamp.state → Moves s (putLamp l s)
  | lampState (st : LampState) (s) :
      (st.lit = true → s.lamp.state.lit = true ∨ s.thermal.power = .normal) → Moves s (setLampState st s)
  | thermal (t : Thermal) (s) : t.sameDuty s.thermal → Moves s (putThermal t s)
  | duty (s) : Moves s (decideDuty s)
  | decided (t : Thermal) (b : Bool) (e : Event) (s) : (s.thermal.countsOk → t.countsOk) →
      (t.power = .standby → (s.thermal.power = .standby ∧ (t.runOn = s.thermal.runOn ∨ t.runOn = none))
        ∨ (s.lamp.state.lit = false ∧ t.runOn = none)) →
      Moves s (decideDuty (latchIf b e (putThermal t s)))
  | pendStandby (s) : s.thermal.power = .normal →
      Moves s (putThermal { s.thermal with power := .standbyPending } s)
  | cue (c) (s) : Moves s (putCue c s)
  | log (l) (s) : Moves s (putLog l s)
  | deck (d) (s) : Moves s (putDeck d s)
  | clip (c) (s) : Moves s (putClip c s)
  | remote (r) (s) : Moves s (putRemote r s)
  | shadow (sh) (s) : Moves s (putShadow sh s)
  | cx (c) (s) : Moves s (putCx c s)
  | record (r) (s) : Moves s (putRecord r s)
  | settings (st : Settings) (s) : (s.hdr.settings.thermalOrder → st.thermalOrder) → Moves s (putSettings st s)
  | header (h : Header) (s) : h.settings = s.hdr.settings → h.record = s.hdr.record → Moves s { s with hdr := h }
  | latch (e) (s) : Moves s (latch e s)
  | dirty (i) (s) : Moves s (markDirty i s)
  | writer (w : StatusWriter) (s) : w.sameWords s.sw → Moves s { s with sw := w }
  | result (tag : Byte) (code : ResultCode) (rem last : Nat) (s) :
      Moves s (markDirty 3 (markDirty 4 (markDirty 5
        { s with sw := { s.sw with resultTag := tag, resultCode := code, remaining := rem, lastSlot := last } })))
  | reject (tag : Byte) (s) : Moves s (markDirty 6 { s with sw := { s.sw with rejectTag := tag } })
  | ready (s) : Moves s (markStatus { s with sw := { s.sw with rdy := true } })
  | failed (b : Bool) (s) : Moves s (markStatus { s with sw := { s.sw with fail := b } })
  | notice (s) : Moves s (eventsNotice s)
  | port (p : Port) (s) : p.statusInRam = s.port.statusInRam → p.reqs.statusWriter = s.port.reqs.statusWriter →
      Moves s { s with port := p }
  | ask (s) : Moves s (presentStatus s)
  | grantWord (s) : s.port.ram = none → Moves s (grantStatus s)
  | landStatus (a : RamAccess) (s) : s.port.inRamOf .statusWriter = some a →
      Moves s { landWord a s with
        sw := { s.sw with copy := s.sw.copy.setIfInBounds ((a.addr - statusBlockAddr) / 2) a.data } }
  | store (a : WordAddr) (w : LaneWrite) (s) : Moves s { s with mem := memStore s.mem a w }
  | land (a : Nat) (w : Word) (s) : Moves s { s with mem := memSetWord s.mem a w }
  | reset {s u} : Moves (clearEvents s) u → Moves s (markAll u)
  | assertPin (s) : Moves s (assertReset s)
  | releasePin (p) (s) : Moves s (releaseReset p s)
  | pass (d) (s) : Moves s (passTime d s)
  | queue (l) (s) : Moves s { s with pending := l }

section
variable {z s : State}

theorem moves_putTray (t) (s : State) (h : Moves z s) : Moves z (putTray t s) := h.trans (.tray t s)
theorem moves_putLamp (l) (s : State) (hl : l.state = s.lamp.state) (h : Moves z s) : Moves z (putLamp l s) :=
  h.trans (.lamp l s hl)
theorem moves_setLampState (st : LampState) (s : State)
    (hl : st.lit = true → s.lamp.state.lit = true ∨ s.thermal.power = .normal) (h : Moves z s) :
    Moves z (setLampState st s) := h.trans (.lampState st s hl)
theorem moves_putThermal (t : Thermal) (s : State) (ht : t.sameDuty s.thermal) (h : Moves z s) :
    Moves z (putThermal t s) := h.trans (.thermal t s ht)
theorem moves_decideDuty (s : State) (h : Moves z s) : Moves z (decideDuty s) := h.trans (.duty s)
theorem moves_putCue (c) (s : State) (h : Moves z s) : Moves z (putCue c s) := h.trans (.cue c s)
theorem moves_putLog (l) (s : State) (h : Moves z s) : Moves z (putLog l s) := h.trans (.log l s)
theorem moves_putDeck (d) (s : State) (h : Moves z s) : Moves z (putDeck d s) := h.trans (.deck d s)
theorem moves_putClip (c) (s : State) (h : Moves z s) : Moves z (putClip c s) := h.trans (.clip c s)
theorem moves_putRemote (r) (s : State) (h : Moves z s) : Moves z (putRemote r s) := h.trans (.remote r s)
theorem moves_putShadow (sh) (s : State) (h : Moves z s) : Moves z (putShadow sh s) := h.trans (.shadow sh s)
theorem moves_putCx (c) (s : State) (h : Moves z s) : Moves z (putCx c s) := h.trans (.cx c s)
theorem moves_putRecord (r) (s : State) (h : Moves z s) : Moves z (putRecord r s) := h.trans (.record r s)
theorem moves_latch (e) (s : State) (h : Moves z s) : Moves z (latch e s) := h.trans (.latch e s)
theorem moves_markDirty (i) (s : State) (h : Moves z s) : Moves z (markDirty i s) := h.trans (.dirty i s)
theorem moves_latchIf (b e) (s : State) (h : Moves z s) : Moves z (latchIf b e s) := by
  cases b
  · exact h
  · exact moves_latch e s h
theorem moves_markIf (b i) (s : State) (h : Moves z s) : Moves z (markIf b i s) := by
  cases b
  · exact h
  · exact moves_markDirty i s h
theorem moves_markStatus (s : State) (h : Moves z s) : Moves z (markStatus s) :=
  moves_markDirty 0 _ (moves_markDirty 1 s h)
theorem moves_markStatusIf (b) (s : State) (h : Moves z s) : Moves z (markStatusIf b s) := by
  cases b
  · exact h
  · exact moves_markStatus s h
theorem moves_putSettings (st : Settings) (s : State) (ho : s.hdr.settings.thermalOrder → st.thermalOrder)
    (h : Moves z s) : Moves z (putSettings st s) := h.trans (.settings st s ho)
theorem moves_addCorrection (i) (s : State) (h : Moves z s) : Moves z (addCorrection i s) :=
  h.trans (.header _ s rfl rfl)
theorem moves_setImage (i v) (s : State) (h : Moves z s) : Moves z (setImage i v s) := h.trans (.header _ s rfl rfl)
theorem moves_putPending (p) (s : State) (h : Moves z s) : Moves z (putPending p s) := h.trans (.header _ s rfl rfl)

/-- A fold of operations moves when each of them does. -/
theorem moves_foldl {α : Type} (f : State → α → State) (hf : ∀ s x, Moves s (f s x)) (l : List α) (s : State)
    (h : Moves z s) : Moves z (l.foldl f s) := by
  induction l generalizing s with
  | nil => exact h
  | cons x l ih => exact ih _ (h.trans (hf s x))

/-- A choice between two operations moves when each of them does. -/
theorem moves_ite {c : Prop} [Decidable c] {t u : State} (h : Moves z t) (k : Moves z u) :
    Moves z (if c then t else u) := by
  split
  · exact h
  · exact k

/-! ## The Memory Port's parts -/

theorem moves_voidAccess (w : Requester) (s : State) (h : Moves z s) : Moves z (voidAccess w s) := by
  refine h.trans ?_
  unfold voidAccess
  split
  · rename_i r hr
    split
    · refine .port _ s ?_ rfl
      simp [Port.statusInRam, hr]
    · exact .refl s
  · exact .refl s

theorem moves_withdrawShadow (s : State) (h : Moves z s) : Moves z (withdrawShadow s) :=
  moves_voidAccess _ _ (h.trans (.port _ s rfl rfl))
theorem moves_withdrawCurve (s : State) (h : Moves z s) : Moves z (withdrawCurve s) :=
  moves_voidAccess _ _ (h.trans (.port _ s rfl rfl))
theorem moves_withdrawLog (s : State) (h : Moves z s) : Moves z (withdrawLog s) :=
  moves_voidAccess _ _ (h.trans (.port _ s rfl rfl))
theorem moves_withdrawClip (s : State) (h : Moves z s) : Moves z (withdrawClip s) :=
  moves_voidAccess _ _ (h.trans (.port _ s rfl rfl))
theorem moves_withdrawHeader (i) (s : State) (h : Moves z s) : Moves z (withdrawHeader i s) := by
  unfold withdrawHeader
  split
  · exact h.trans (.port _ s rfl rfl)
  · exact h

theorem moves_putReqs (r : Requests) (s : State) (hr : r.statusWriter = s.port.reqs.statusWriter) (h : Moves z s) :
    Moves z (putReqs r s) := h.trans (.port _ s rfl hr)

/-! ## The thermal decisions that change what the duty is decided from -/

theorem moves_decided (t : Thermal) (s : State) (hc : s.thermal.countsOk → t.countsOk)
    (hp : t.power = .standby → (s.thermal.power = .standby ∧ (t.runOn = s.thermal.runOn ∨ t.runOn = none))
      ∨ (s.lamp.state.lit = false ∧ t.runOn = none)) (h : Moves z s) :
    Moves z (decideDuty (putThermal t s)) := h.trans (.decided t false .jam s hc hp)

theorem moves_decidedLatch (t : Thermal) (e : Event) (s : State) (hc : s.thermal.countsOk → t.countsOk)
    (hp : t.power = .standby → (s.thermal.power = .standby ∧ (t.runOn = s.thermal.runOn ∨ t.runOn = none))
      ∨ (s.lamp.state.lit = false ∧ t.runOn = none)) (h : Moves z s) :
    Moves z (decideDuty (latch e (putThermal t s))) := h.trans (.decided t true e s hc hp)

theorem sameDuty_refl (t : Thermal) : t.sameDuty t := ⟨rfl, rfl, rfl, rfl, rfl, fun h => ⟨rfl, h⟩⟩

end


section
variable {z : State}


/-! ## Ops -/



theorem setDirty_state (l : Lamp) (c : CurveSel) (b : Bool) : (l.setDirty c b).state = l.state := by
  cases c <;> rfl

theorem moves_autoHold (s : State) (h : Moves z s) : Moves z (autoHold s) := by
  unfold autoHold
  repeat' first
    | with_reducible exact h
    | with_reducible apply moves_putDeck
    | split

theorem moves_endCommand (code : ResultCode) (remaining lastSlot : Nat) (s : State) (h : Moves z s) :
    Moves z (endCommand code remaining lastSlot s) := by
  unfold endCommand
  dsimp only
  split
  · exact (moves_putRecord _ s h).trans (.result _ _ _ _ _)
  · exact h

theorem moves_endPlain (code : ResultCode) (s : State) (h : Moves z s) : Moves z (endPlain code s) := by
  unfold endPlain
  repeat' first
    | with_reducible exact h
    | with_reducible apply moves_endCommand

theorem moves_handLog (r : LogRecord) (s : State) (h : Moves z s) : Moves z (handLog r s) := by
  unfold handLog
  repeat' first
    | with_reducible exact h
    | with_reducible apply moves_putLog
    | with_reducible apply moves_latch
    | split


/-! ## Shadow -/

theorem moves_lookup (kind : RecKind) (key : Nat) (pin : Bool) (s : State) (h : Moves z s) :
    Moves z (lookup kind key pin s).1 := by
  unfold lookup
  dsimp only
  repeat' split
  all_goals first
    | exact h
    | exact moves_putShadow _ s h

theorem moves_lookup_eq {kind : RecKind} {key : Nat} {pin : Bool} {s t : State} {r : LookupAnswer}
    (e : lookup kind key pin s = (t, r)) (h : Moves z s) : Moves z t := by
  have := moves_lookup kind key pin s h
  rwa [e] at this

theorem moves_serveWaiting (s : State) (h : Moves z s) : Moves z (serveWaiting s) := by
  unfold serveWaiting
  exact moves_foldl _ (fun s _ => moves_lookup _ _ _ s (.refl s)) _ s h

theorem moves_recordWord_eq {w : Word} {s t : State} {r : Option EntryData} (e : recordWord w s = (t, r))
    (h : Moves z s) : Moves z t := by
  have : Moves z (recordWord w s).1 := by
    unfold recordWord
    dsimp only
    repeat' split
    all_goals first
      | exact h
      | exact moves_putShadow _ s h
      | exact moves_serveWaiting _ (moves_putShadow _ s h)
  rwa [e] at this

theorem moves_lowerPin (kind : RecKind) (key : Nat) (s : State) (h : Moves z s) : Moves z (lowerPin kind key s) := by
  unfold lowerPin
  repeat' first
    | with_reducible exact h
    | with_reducible apply moves_putShadow
    | dsimp only
    | split

theorem moves_releasePin (kind : RecKind) (key : Nat) (s : State) (h : Moves z s) : Moves z (releasePin kind key s) := by
  unfold releasePin
  split
  · exact moves_serveWaiting _ (moves_lowerPin kind key s h)
  · exact moves_lowerPin kind key s h

theorem moves_shadowCompare (start : Nat) (len : Nat) (s : State) (h : Moves z s) : Moves z (shadowCompare start len s) := by
  unfold shadowCompare
  repeat' first
    | with_reducible exact h
    | with_reducible apply moves_putShadow
    | with_reducible apply moves_latchIf
    | with_reducible apply moves_withdrawShadow
    | dsimp only
    | split

theorem moves_shadowBaseChange (kind : RecKind) (base : Nat) (s : State) (h : Moves z s) : Moves z (shadowBaseChange kind base s) := by
  unfold shadowBaseChange
  repeat' first
    | with_reducible exact h
    | with_reducible apply moves_putShadow
    | with_reducible apply moves_latchIf
    | with_reducible apply moves_withdrawShadow
    | dsimp only
    | split

theorem moves_shadowReset (s : State) (h : Moves z s) : Moves z (shadowReset s) := by
  unfold shadowReset
  repeat' first
    | with_reducible exact h
    | with_reducible apply moves_withdrawShadow
    | with_reducible apply moves_putShadow


/-! ## Thermal -/

theorem moves_updateCeiling (s : State) (h : Moves z s) : Moves z (updateCeiling s) := by
  unfold updateCeiling
  repeat' first
    | with_reducible exact h
    | with_reducible apply moves_putThermal
    | exact sameDuty_refl _

theorem moves_slewCeiling (s : State) (h : Moves z s) : Moves z (slewCeiling s) := by
  unfold slewCeiling
  repeat' first
    | with_reducible exact h
    | with_reducible apply moves_putThermal
    | exact sameDuty_refl _
    | split

theorem moves_handFloor (s : State) (h : Moves z s) : Moves z (handFloor s) := by
  unfold handFloor
  repeat' first
    | with_reducible exact h
    | with_reducible apply moves_updateCeiling
    | with_reducible apply moves_putThermal
    | exact sameDuty_refl _
    | dsimp only
    | split

theorem moves_evalStandby (s : State) (h : Moves z s) : Moves z (evalStandby s) := by
  unfold evalStandby
  split
  · rename_i c
    exact moves_decided _ s (fun k => k) (fun _ => .inr ⟨c.2.1, c.2.2⟩) h
  · exact h

theorem moves_startRunOn (s : State) (hp : s.thermal.power ≠ .standby) (h : Moves z s) : Moves z (startRunOn s) :=
  moves_decided _ s (fun k => k) (fun e => absurd e hp) h

theorem moves_endRunOn (s : State) (h : Moves z s) : Moves z (endRunOn s) :=
  moves_evalStandby _ (moves_decided _ s (fun k => k) (fun e => .inl ⟨e, .inr rfl⟩) h)

theorem moves_tryEndRunOn (s : State) (h : Moves z s) : Moves z (tryEndRunOn s) := by
  unfold tryEndRunOn
  split
  · exact moves_endRunOn s h
  · exact h



theorem moves_updateGateFlag (s : State) (h : Moves z s) : Moves z (updateGateFlag s) := by
  unfold updateGateFlag
  repeat' first
    | with_reducible exact h
    | with_reducible apply moves_updateCeiling
    | with_reducible apply moves_putThermal
    | exact sameDuty_refl _

theorem moves_dropReported (s : State) (h : Moves z s) : Moves z (dropReported s) := by
  unfold dropReported
  repeat' first
    | with_reducible exact h
    | with_reducible apply moves_updateCeiling
    | with_reducible apply moves_putThermal
    | exact sameDuty_refl _

theorem moves_setDwellFlag (s : State) (h : Moves z s) : Moves z (setDwellFlag s) := by
  unfold setDwellFlag
  repeat' first
    | with_reducible exact h
    | with_reducible apply moves_latch
    | with_reducible apply moves_updateCeiling
    | with_reducible apply moves_putThermal
    | exact sameDuty_refl _

theorem moves_dwellLimitChanged (s : State) (h : Moves z s) : Moves z (dwellLimitChanged s) := by
  unfold dwellLimitChanged
  repeat' first
    | with_reducible exact h
    | with_reducible apply moves_dropReported
    | with_reducible apply moves_setDwellFlag
    | split


/-! ## Audio -/

theorem moves_handAudio (volume : Nat) (duck : Nat) (s : State) (h : Moves z s) : Moves z (handAudio volume duck s) := by
  unfold handAudio
  repeat' first
    | with_reducible exact h
    | with_reducible apply moves_putClip


/-! ## Lamp -/

theorem moves_tripLamp (s : State) (h : Moves z s) : Moves z (tripLamp s) :=
  moves_setLampState _ s (fun hh => by simp [LampState.lit] at hh) h

theorem moves_enterWarming (s : State) (hp : s.thermal.power = .normal) (h : Moves z s) : Moves z (enterWarming s) := by
  unfold enterWarming
  dsimp only
  have k := moves_setLampState .warming _ (fun _ => .inr (by simpa using hp))
    (moves_putLamp { s.lamp with warmCount := 0, failures := 0, warmTarget := 20 * hptOf s.lamp.h } s rfl h)
  split
  · exact moves_tripLamp _ (moves_latch _ _ k)
  · exact k

theorem moves_warmRequest (s : State) (hp : s.thermal.power = .normal) (h : Moves z s) : Moves z (warmRequest s) := by
  unfold warmRequest
  repeat' split
  all_goals first
    | exact h
    | exact moves_enterWarming s hp h

theorem moves_offRequest (s : State) (h : Moves z s) : Moves z (offRequest s) := by
  unfold offRequest
  repeat' first
    | with_reducible exact h
    | with_reducible apply moves_setLampState
    | (intro hh; simp [LampState.lit] at hh)
    | split

theorem moves_offMarkActs (s : State) (h : Moves z s) : Moves z (offMarkActs s) := by
  unfold offMarkActs
  repeat' first
    | with_reducible exact h
    | with_reducible apply moves_setLampState
    | (intro hh; simp [LampState.lit] at hh)
    | split

theorem moves_takeRamp (level : Nat) (tenths : Nat) (byAction : Bool) (offMark : Bool) (s : State) (h : Moves z s) : Moves z (takeRamp level tenths byAction offMark s) := by
  unfold takeRamp
  repeat' first
    | with_reducible exact h
    | with_reducible apply moves_putLamp
    | rfl

theorem moves_renewOffRamp (s : State) (h : Moves z s) : Moves z (renewOffRamp s) := by
  unfold renewOffRamp
  repeat' first
    | with_reducible exact h
    | with_reducible apply moves_takeRamp
    | split

theorem moves_requestRamp (level : Nat) (tenths : Nat) (byAction : Bool) (offMark : Bool) (s : State) (h : Moves z s) : Moves z (requestRamp level tenths byAction offMark s) := by
  unfold requestRamp
  repeat' first
    | with_reducible exact h
    | with_reducible apply moves_takeRamp
    | with_reducible apply moves_renewOffRamp
    | dsimp only
    | split

theorem moves_freezeRamp (s : State) (h : Moves z s) : Moves z (freezeRamp s) := by
  unfold freezeRamp
  repeat' first
    | with_reducible exact h
    | with_reducible apply moves_putLamp
    | with_reducible apply moves_renewOffRamp
    | rfl
    | dsimp only
    | split

theorem moves_rampStep (s : State) (h : Moves z s) : Moves z (rampStep s) := by
  unfold rampStep
  repeat' first
    | with_reducible exact h
    | with_reducible apply moves_putLamp
    | rfl
    | dsimp only
    | split

theorem moves_openWindow (s : State) (h : Moves z s) : Moves z (openWindow s) := by
  unfold openWindow
  repeat' first
    | with_reducible exact h
    | with_reducible apply moves_putLamp
    | rfl
    | split

theorem moves_closeWindow (s : State) (h : Moves z s) : Moves z (closeWindow s) := by
  unfold closeWindow
  repeat' first
    | with_reducible exact h
    | with_reducible apply moves_putLamp
    | rfl
    | split

theorem moves_startLoad (c : CurveSel) (s : State) (h : Moves z s) : Moves z (startLoad c s) := by
  unfold startLoad
  repeat' first
    | with_reducible exact h
    | with_reducible apply moves_withdrawCurve
    | with_reducible apply moves_putLamp
    | rfl
    | exact setDirty_state _ _ _

theorem moves_abandonLoad (s : State) (h : Moves z s) : Moves z (abandonLoad s) := by
  unfold abandonLoad
  repeat' first
    | with_reducible exact h
    | with_reducible apply moves_withdrawCurve
    | with_reducible apply moves_putLamp
    | rfl

theorem moves_takeApply (s : State) (h : Moves z s) : Moves z (takeApply s) := by
  unfold takeApply
  repeat' first
    | with_reducible exact h
    | with_reducible apply moves_putLamp
    | with_reducible apply moves_startLoad
    | with_reducible apply moves_abandonLoad
    | rfl
    | dsimp only
    | split

theorem moves_applyEffect (rec0 : PendingSettings) (s : State) (h : Moves z s) : Moves z (applyEffect rec0 s) := by
  unfold applyEffect
  repeat' first
    | with_reducible exact h
    | with_reducible apply moves_putLamp
    | with_reducible apply moves_handFloor
    | with_reducible apply moves_handAudio
    | with_reducible apply moves_endPlain
    | rfl
    | dsimp only
    | split

theorem moves_applyWithoutLoad (s : State) (h : Moves z s) : Moves z (applyWithoutLoad s) := by
  unfold applyWithoutLoad
  repeat' first
    | with_reducible exact h
    | with_reducible apply moves_applyEffect
    | split

theorem moves_curveSwapNow (s : State) (h : Moves z s) : Moves z (curveSwapNow s) := by
  unfold curveSwapNow
  repeat' first
    | with_reducible exact h
    | with_reducible apply moves_putLamp
    | with_reducible apply moves_applyWithoutLoad
    | rfl
    | dsimp only
    | split

theorem moves_takeUpSettings (s : State) (h : Moves z s) : Moves z (takeUpSettings s) := by
  unfold takeUpSettings
  repeat' first
    | with_reducible exact h
    | with_reducible apply moves_curveSwapNow
    | with_reducible apply moves_applyWithoutLoad
    | split

theorem moves_curveWord (w : Word) (s : State) (h : Moves z s) : Moves z (curveWord w s) := by
  unfold curveWord
  repeat' first
    | with_reducible exact h
    | with_reducible apply moves_putLamp
    | rfl
    | dsimp only
    | split

theorem moves_compareCurve (c : CurveSel) (start : Nat) (len : Nat) (s : State) (h : Moves z s) : Moves z (compareCurve c start len s) := by
  unfold compareCurve
  repeat' first
    | with_reducible exact h
    | with_reducible apply moves_withdrawCurve
    | with_reducible apply moves_putLamp
    | rfl
    | exact setDirty_state _ _ _
    | split

theorem moves_curveCompare (start : Nat) (len : Nat) (s : State) (h : Moves z s) : Moves z (curveCompare start len s) := by
  unfold curveCompare
  repeat' first
    | with_reducible exact h
    | with_reducible apply moves_compareCurve
    | split

theorem moves_curveBaseChanged (s : State) (h : Moves z s) : Moves z (curveBaseChanged s) := by
  unfold curveBaseChanged
  repeat' first
    | with_reducible exact h
    | with_reducible apply moves_putLamp
    | with_reducible apply moves_abandonLoad
    | with_reducible apply moves_startLoad
    | rfl
    | dsimp only
    | split

theorem moves_computeLight (crossing : Bool) (s : State) (h : Moves z s) : Moves z (computeLight crossing s) := by
  unfold computeLight
  repeat' first
    | with_reducible exact h
    | with_reducible apply moves_putLamp
    | rfl

theorem moves_judgeUnlit (s : State) (h : Moves z s) : Moves z (judgeUnlit s) := by
  unfold judgeUnlit
  repeat' first
    | with_reducible exact h
    | with_reducible apply moves_putLamp
    | with_reducible apply moves_latch
    | with_reducible apply moves_setLampState
    | rfl
    | (intro hh; simp [LampState.lit] at hh)
    | dsimp only
    | split

theorem moves_warmedUp (s : State) (h : Moves z s) : Moves z (warmedUp s) := by
  unfold warmedUp
  split
  · rename_i c
    exact moves_setLampState _ s (fun _ => .inl (by rw [c.1]; rfl)) h
  · exact h

theorem moves_warmStep (s : State) (h : Moves z s) : Moves z (warmStep s) := by
  unfold warmStep
  repeat' first
    | with_reducible exact h
    | with_reducible apply moves_warmedUp
    | with_reducible apply moves_putLamp
    | rfl
    | split

theorem moves_sendDark (s : State) (h : Moves z s) : Moves z (sendDark s) := by
  unfold sendDark
  repeat' first
    | with_reducible exact h
    | with_reducible apply moves_putLamp
    | rfl
    | split

theorem moves_halfCycle (crossing : Bool) (s : State) (h : Moves z s) : Moves z (halfCycle crossing s) := by
  unfold halfCycle
  repeat' first
    | with_reducible exact h
    | with_reducible apply moves_sendDark
    | with_reducible apply moves_computeLight
    | with_reducible apply moves_warmStep
    | with_reducible apply moves_rampStep
    | with_reducible apply moves_slewCeiling
    | with_reducible apply moves_takeUpSettings
    | with_reducible apply moves_judgeUnlit

theorem moves_crossing (s : State) (h : Moves z s) : Moves z (crossing s) := by
  unfold crossing
  repeat' first
    | with_reducible exact h
    | with_reducible apply moves_halfCycle
    | with_reducible apply moves_putLamp
    | rfl
    | dsimp only
    | split

theorem moves_loseMains (s : State) (h : Moves z s) : Moves z (loseMains s) := by
  unfold loseMains
  repeat' first
    | with_reducible exact h
    | with_reducible apply moves_halfCycle
    | with_reducible apply moves_latch
    | with_reducible apply moves_putLamp
    | rfl
    | split

theorem moves_substitute (s : State) (h : Moves z s) : Moves z (substitute s) := by
  unfold substitute
  repeat' first
    | with_reducible exact h
    | with_reducible apply moves_halfCycle
    | with_reducible apply moves_putLamp
    | rfl
    | split

theorem moves_fireLamp (s : State) (h : Moves z s) : Moves z (fireLamp s) := by
  unfold fireLamp
  repeat' first
    | with_reducible exact h
    | with_reducible apply moves_putLamp
    | rfl
    | split

theorem moves_lampCurrentSeen (s : State) (h : Moves z s) : Moves z (lampCurrentSeen s) := by
  unfold lampCurrentSeen
  repeat' first
    | with_reducible exact h
    | with_reducible apply moves_putLamp
    | rfl
    | split

theorem moves_checkLife (s : State) (h : Moves z s) : Moves z (checkLife s) := by
  unfold checkLife
  repeat' first
    | with_reducible exact h
    | with_reducible apply moves_latch
    | with_reducible apply moves_putLamp
    | rfl
    | split

theorem moves_reviewLife (s : State) (h : Moves z s) : Moves z (reviewLife s) := by
  unfold reviewLife
  repeat' first
    | with_reducible exact h
    | with_reducible apply moves_putLamp
    | with_reducible apply moves_checkLife
    | rfl
    | split

theorem moves_minuteTick (s : State) (h : Moves z s) : Moves z (minuteTick s) := by
  unfold minuteTick
  repeat' first
    | with_reducible exact h
    | with_reducible apply moves_checkLife
    | with_reducible apply moves_putLamp
    | rfl
    | split

theorem moves_setLampMinutes (p1 : Word) (p2 : Word) (s : State) (h : Moves z s) : Moves z (setLampMinutes p1 p2 s) := by
  unfold setLampMinutes
  repeat' first
    | with_reducible exact h
    | with_reducible apply moves_reviewLife
    | with_reducible apply moves_putLamp
    | rfl


/-! ## Cooling -/



theorem moves_startReadCycle (s : State) (h : Moves z s) : Moves z (startReadCycle s) := by
  unfold startReadCycle
  repeat' first
    | with_reducible exact h
    | with_reducible apply moves_putThermal
    | exact sameDuty_refl _
    | split

theorem moves_judgeOverTemp (s : State) (h : Moves z s) : Moves z (judgeOverTemp s) := by
  unfold judgeOverTemp
  repeat' first
    | with_reducible exact h
    | with_reducible apply moves_tripLamp
    | with_reducible apply moves_latch
    | with_reducible apply moves_putThermal
    | exact sameDuty_refl _
    | split

theorem moves_hotRestart (s : State) (h : Moves z s) : Moves z (hotRestart s) := by
  unfold hotRestart
  dsimp only
  split
  · exact h
  · refine moves_putThermal _ _ (sameDuty_refl _) ?_
    split
    · rename_i c
      refine moves_startRunOn s ?_ h
      simp only [Bool.and_eq_true, decide_eq_true_eq] at c
      exact c.2
    · exact h

theorem moves_acceptTh (v : Nat) (s : State) (h : Moves z s) : Moves z (acceptTh v s) := by
  unfold acceptTh
  exact moves_updateCeiling _ (moves_hotRestart _ (moves_tryEndRunOn _ (moves_judgeOverTemp _
    (moves_decided _ s (fun k => ⟨Nat.zero_le 4, k.2⟩) (fun e => .inl ⟨e, .inl rfl⟩) h))))

theorem moves_acceptTg (v : Nat) (s : State) (h : Moves z s) : Moves z (acceptTg v s) := by
  unfold acceptTg
  exact moves_updateGateFlag _ (moves_decided _ s (fun k => ⟨k.1, Nat.zero_le 4⟩) (fun e => .inl ⟨e, .inl rfl⟩) h)

theorem moves_failTh (s : State) (h : Moves z s) : Moves z (failTh s) := by
  unfold failTh
  dsimp only
  split
  · exact moves_tripLamp _ (moves_decidedLatch _ .coolingFault s (fun k => ⟨Nat.min_le_left _ _, k.2⟩)
      (fun e => .inl ⟨e, .inl rfl⟩) h)
  · rename_i c
    refine moves_putThermal _ s ⟨rfl, rfl, rfl, rfl, rfl, ?_⟩ h
    intro k
    obtain ⟨k1, k2⟩ := k
    simp only [decide_eq_true_eq] at c
    have : decide (min 4 (s.thermal.failTh + 1) = 4) = decide (s.thermal.failTh = 4) := by
      apply decide_eq_decide.2; omega
    refine ⟨?_, Nat.min_le_left _ _, k2⟩
    simp only [Thermal.sensorFault, this]

theorem moves_failTg (s : State) (h : Moves z s) : Moves z (failTg s) := by
  unfold failTg
  dsimp only
  split
  · exact moves_tripLamp _ (moves_decidedLatch _ .coolingFault s (fun k => ⟨k.1, Nat.min_le_left _ _⟩)
      (fun e => .inl ⟨e, .inl rfl⟩) h)
  · rename_i c
    refine moves_putThermal _ s ⟨rfl, rfl, rfl, rfl, rfl, ?_⟩ h
    intro k
    obtain ⟨k1, k2⟩ := k
    simp only [decide_eq_true_eq] at c
    have : decide (min 4 (s.thermal.failTg + 1) = 4) = decide (s.thermal.failTg = 4) := by
      apply decide_eq_decide.2; omega
    refine ⟨?_, k1, Nat.min_le_left _ _⟩
    simp only [Thermal.sensorFault, this]

theorem moves_sensorDone (sensor : Sensor) (read : SensorRead) (s : State) (h : Moves z s) : Moves z (sensorDone sensor read s) := by
  unfold sensorDone
  repeat' first
    | with_reducible exact h
    | with_reducible apply moves_acceptTh
    | with_reducible apply moves_failTh
    | with_reducible apply moves_acceptTg
    | with_reducible apply moves_failTg
    | split

theorem moves_tachPulse (s : State) (h : Moves z s) : Moves z (tachPulse s) := by
  unfold tachPulse
  split
  · exact h
  · exact moves_decided _ s (fun k => k) (fun e => .inl ⟨e, .inl rfl⟩) h

theorem moves_tachExpiry (s : State) (h : Moves z s) : Moves z (tachExpiry s) := by
  unfold tachExpiry
  dsimp only
  split
  · split
    · rename_i c
      exact moves_putThermal _ s ⟨rfl, rfl, c.symm, rfl, rfl, fun k => ⟨rfl, k⟩⟩ h
    · exact moves_tripLamp _ (moves_decidedLatch _ .coolingFault s (fun k => k) (fun e => .inl ⟨e, .inl rfl⟩) h)
  · exact h

theorem moves_dwellReached (s : State) (h : Moves z s) : Moves z (dwellReached s) := by
  unfold dwellReached
  repeat' first
    | with_reducible exact h
    | with_reducible apply moves_setDwellFlag
    | split


/-! ## Transport -/

theorem moves_sendCompletion (o : TrayOutcome) (remaining : Nat) (lastSlot : Nat) (s : State) (h : Moves z s) : Moves z (sendCompletion o remaining lastSlot s) := by
  unfold sendCompletion
  repeat' first
    | with_reducible exact h
    | with_reducible apply moves_putTray

theorem moves_answerAtOnce (o : TrayOutcome) (kind : TrayKind) (s : State) (h : Moves z s) : Moves z (answerAtOnce o kind s) := by
  unfold answerAtOnce
  repeat' first
    | with_reducible exact h
    | with_reducible apply moves_sendCompletion

theorem moves_endRequest (o : TrayOutcome) (s : State) (h : Moves z s) : Moves z (endRequest o s) := by
  unfold endRequest
  repeat' first
    | with_reducible exact h
    | with_reducible apply moves_sendCompletion
    | with_reducible apply moves_putTray
    | dsimp only
    | split

theorem moves_releaseDest (s : State) (h : Moves z s) : Moves z (releaseDest s) := by
  unfold releaseDest
  repeat' first
    | with_reducible exact h
    | with_reducible apply moves_releasePin
    | with_reducible apply moves_putTray
    | split

theorem moves_releaseShown (s : State) (h : Moves z s) : Moves z (releaseShown s) := by
  unfold releaseShown
  repeat' first
    | with_reducible exact h
    | with_reducible apply moves_releasePin
    | with_reducible apply moves_putTray
    | split

theorem moves_pinShown (slot : Nat) (s : State) (h : Moves z s) : Moves z (pinShown slot s) := by
  unfold pinShown
  split
  · rename_i e; exact moves_lookup_eq e h
  · rename_i e; exact moves_putTray _ _ (moves_lookup_eq e h)

theorem moves_seatPin (s : State) (h : Moves z s) : Moves z (seatPin s) := by
  unfold seatPin
  repeat' first
    | with_reducible exact h
    | with_reducible apply moves_putTray
    | with_reducible apply moves_releaseDest
    | with_reducible apply moves_pinShown
    | dsimp only
    | split

theorem moves_enterJam (known : Bool) (s : State) (h : Moves z s) : Moves z (enterJam known s) := by
  unfold enterJam
  repeat' first
    | with_reducible exact h
    | with_reducible apply moves_putTray
    | with_reducible apply moves_endRequest
    | with_reducible apply moves_releaseShown
    | with_reducible apply moves_releaseDest
    | with_reducible apply moves_latch

theorem moves_enterDrop (s : State) (h : Moves z s) : Moves z (enterDrop s) := by
  unfold enterDrop
  repeat' first
    | with_reducible exact h
    | with_reducible apply moves_putTray

theorem moves_liftReached (s : State) (h : Moves z s) : Moves z (liftReached s) := by
  unfold liftReached
  repeat' first
    | with_reducible exact h
    | with_reducible apply moves_putTray
    | with_reducible apply moves_enterDrop
    | dsimp only
    | split

theorem moves_startLift (s : State) (h : Moves z s) : Moves z (startLift s) := by
  unfold startLift
  repeat' first
    | with_reducible exact h
    | with_reducible apply moves_releaseShown
    | with_reducible apply moves_putTray
    | with_reducible apply moves_liftReached
    | dsimp only
    | split

theorem moves_destinationReady (s : State) (h : Moves z s) : Moves z (destinationReady s) := by
  unfold destinationReady
  repeat' first
    | with_reducible exact h
    | with_reducible apply moves_putTray
    | with_reducible apply moves_enterDrop
    | with_reducible apply moves_endRequest
    | with_reducible apply moves_releaseDest
    | with_reducible apply moves_startLift
    | dsimp only
    | split

theorem moves_fixDestination (p : Plan) (s : State) (h : Moves z s) : Moves z (fixDestination p s) := by
  unfold fixDestination
  dsimp only
  have k := moves_putTray (s.tray.setPlan p) s h
  split
  · rename_i e; exact moves_destinationReady _ (moves_lookup_eq e k)
  · rename_i e; exact moves_destinationReady _ (moves_putTray _ _ (moves_lookup_eq e k))
  · rename_i e; exact moves_putTray _ _ (moves_lookup_eq e k)

theorem moves_replan (p : Plan) (s : State) (h : Moves z s) : Moves z (replan p s) := by
  unfold replan
  split
  · exact moves_destinationReady _ (moves_putTray _ _ h)
  · exact moves_fixDestination _ _ (moves_releaseDest _ h)

theorem moves_searchDone (dir : Dir) (dest : Nat) (found : List Nat) (find : Nat) (s : State) (h : Moves z s) : Moves z (searchDone dir dest found find s) := by
  unfold searchDone
  repeat' first
    | with_reducible exact h
    | with_reducible apply moves_replan
    | with_reducible apply moves_putTray
    | with_reducible apply moves_fixDestination
    | dsimp only
    | split

theorem moves_searchLook_eq {se : Search} {skip : Bool} {s t : State} {r : Option Search}
    (e : searchLook se skip s = (t, r)) (h : Moves z s) : Moves z t := by
  have : Moves z (searchLook se skip s).1 := by
    unfold searchLook
    dsimp only
    split
    · rename_i r' hr
      have k := moves_putTray { s.tray with request := some { r' with examined := r'.examined + 1 } } s h
      repeat' split
      all_goals first
        | exact moves_searchDone _ _ _ _ _ k
        | exact k
    · exact h
  rwa [e] at this

theorem moves_searchRun (n : Nat) (se : Search) (s : State) (h : Moves z s) : Moves z (searchRun n se s) := by
  induction n generalizing se s with
  | zero => exact h
  | succ n ih =>
    unfold searchRun
    split
    · rename_i e; exact moves_putTray _ _ (moves_lookup_eq e h)
    · rename_i e
      have k := moves_lookup_eq e h
      split
      · rename_i e2; exact ih _ _ (moves_searchLook_eq e2 k)
      · rename_i e2; exact moves_searchLook_eq e2 k
    · rename_i e
      have k := moves_lookup_eq e h
      split
      · rename_i e2; exact ih _ _ (moves_searchLook_eq e2 k)
      · rename_i e2; exact moves_searchLook_eq e2 k

theorem moves_startSearch (find : Nat) (s : State) (h : Moves z s) : Moves z (startSearch find s) := by
  unfold startSearch
  repeat' first
    | with_reducible exact h
    | with_reducible apply moves_searchDone
    | with_reducible apply moves_searchRun
    | dsimp only
    | split

theorem moves_planSearch (k : Nat) (s : State) (h : Moves z s) : Moves z (planSearch k s) := by
  unfold planSearch
  repeat' first
    | with_reducible exact h
    | with_reducible apply moves_startSearch
    | with_reducible apply moves_putTray
    | split

theorem moves_planRequest (s : State) (h : Moves z s) : Moves z (planRequest s) := by
  unfold planRequest
  repeat' first
    | with_reducible exact h
    | with_reducible apply moves_fixDestination
    | with_reducible apply moves_planSearch
    | dsimp only
    | split

theorem moves_homingRotate (s : State) (h : Moves z s) : Moves z (homingRotate s) := by
  unfold homingRotate
  repeat' first
    | with_reducible exact h
    | with_reducible apply moves_putTray

theorem moves_homingUp (s : State) (h : Moves z s) : Moves z (homingUp s) := by
  unfold homingUp
  repeat' first
    | with_reducible exact h
    | with_reducible apply moves_putTray
    | with_reducible apply moves_homingRotate
    | dsimp only
    | split

theorem moves_homingLift (s : State) (h : Moves z s) : Moves z (homingLift s) := by
  unfold homingLift
  repeat' first
    | with_reducible exact h
    | with_reducible apply moves_releaseShown
    | with_reducible apply moves_homingUp
    | with_reducible apply moves_putTray

theorem moves_startHoming (s : State) (h : Moves z s) : Moves z (startHoming s) := by
  unfold startHoming
  repeat' first
    | with_reducible exact h
    | with_reducible apply moves_putTray
    | with_reducible apply moves_homingLift
    | dsimp only
    | split

theorem moves_recoverDone (s : State) (h : Moves z s) : Moves z (recoverDone s) := by
  unfold recoverDone
  repeat' first
    | with_reducible exact h
    | with_reducible apply moves_putTray
    | with_reducible apply moves_endRequest

theorem moves_holdRequest (kind : TrayKind) (dark : Bool) (s : State) (h : Moves z s) : Moves z (holdRequest kind dark s) := by
  unfold holdRequest
  repeat' first
    | with_reducible exact h
    | with_reducible apply moves_putTray

theorem moves_requestTransport (kind : TrayKind) (dark : Bool) (s : State) (h : Moves z s) : Moves z (requestTransport kind dark s) := by
  unfold requestTransport
  repeat' first
    | with_reducible exact h
    | with_reducible apply moves_answerAtOnce
    | with_reducible apply moves_holdRequest
    | with_reducible apply moves_putTray
    | with_reducible apply moves_recoverDone
    | with_reducible apply moves_planRequest
    | with_reducible apply moves_startHoming
    | dsimp only
    | split

theorem moves_stopTransport (s : State) (h : Moves z s) : Moves z (stopTransport s) := by
  unfold stopTransport
  repeat' first
    | with_reducible exact h
    | with_reducible apply moves_putTray
    | with_reducible apply moves_endRequest
    | with_reducible apply moves_releaseDest
    | dsimp only
    | split

theorem moves_relift (s : State) (h : Moves z s) : Moves z (relift s) := by
  unfold relift
  repeat' first
    | with_reducible exact h
    | with_reducible apply moves_putTray
    | with_reducible apply moves_liftReached
    | dsimp only
    | split

theorem moves_dropDone (slideSeen : Bool) (s : State) (h : Moves z s) : Moves z (dropDone slideSeen s) := by
  unfold dropDone
  repeat' first
    | with_reducible exact h
    | with_reducible apply moves_putTray
    | with_reducible apply moves_dropReported

theorem moves_armTopChange (active : Bool) (s : State) (h : Moves z s) : Moves z (armTopChange active s) := by
  unfold armTopChange
  repeat' first
    | with_reducible exact h
    | with_reducible apply moves_putTray
    | with_reducible apply moves_liftReached
    | with_reducible apply moves_homingRotate
    | dsimp only
    | split

theorem moves_armBottomChange (active : Bool) (slideSeen : Bool) (s : State) (h : Moves z s) : Moves z (armBottomChange active slideSeen s) := by
  unfold armBottomChange
  repeat' first
    | with_reducible exact h
    | with_reducible apply moves_putTray
    | with_reducible apply moves_relift
    | with_reducible apply moves_dropDone
    | with_reducible apply moves_recoverDone
    | with_reducible apply moves_homingLift
    | with_reducible apply moves_homingUp
    | dsimp only
    | split

theorem moves_liftExpiry (s : State) (h : Moves z s) : Moves z (liftExpiry s) := by
  unfold liftExpiry
  repeat' first
    | with_reducible exact h
    | with_reducible apply moves_enterJam
    | with_reducible apply moves_putTray
    | with_reducible apply moves_relift
    | with_reducible apply moves_homingUp
    | dsimp only
    | split

theorem moves_lowerExpiry (s : State) (h : Moves z s) : Moves z (lowerExpiry s) := by
  unfold lowerExpiry
  repeat' first
    | with_reducible exact h
    | with_reducible apply moves_enterJam
    | split

theorem moves_rotateExpiry (s : State) (h : Moves z s) : Moves z (rotateExpiry s) := by
  unfold rotateExpiry
  repeat' first
    | with_reducible exact h
    | with_reducible apply moves_enterJam
    | split

theorem moves_dropExpiry (s : State) (h : Moves z s) : Moves z (dropExpiry s) := by
  unfold dropExpiry
  repeat' first
    | with_reducible exact h
    | with_reducible apply moves_enterJam
    | split

theorem moves_recoverExpiry (s : State) (h : Moves z s) : Moves z (recoverExpiry s) := by
  unfold recoverExpiry
  repeat' first
    | with_reducible exact h
    | with_reducible apply moves_enterJam
    | split

theorem moves_slipHome (r : TrayRequest) (p : Plan) (toGo : Nat) (s : State) (h : Moves z s) : Moves z (slipHome r p toGo s) := by
  unfold slipHome
  repeat' first
    | with_reducible exact h
    | with_reducible apply moves_replan
    | with_reducible apply moves_latch
    | with_reducible apply moves_putTray
    | with_reducible apply moves_enterDrop
    | with_reducible apply moves_releaseDest
    | with_reducible apply moves_startSearch
    | with_reducible apply moves_fixDestination
    | dsimp only
    | split

theorem moves_rotatePulse (home : Bool) (s : State) (h : Moves z s) : Moves z (rotatePulse home s) := by
  unfold rotatePulse
  repeat' first
    | with_reducible exact h
    | with_reducible apply moves_putTray
    | with_reducible apply moves_slipHome
    | with_reducible apply moves_latch
    | with_reducible apply moves_enterDrop
    | dsimp only
    | split

theorem moves_homingPulse (home : Bool) (s : State) (h : Moves z s) : Moves z (homingPulse home s) := by
  unfold homingPulse
  repeat' first
    | with_reducible exact h
    | with_reducible apply moves_putTray
    | with_reducible apply moves_enterJam
    | dsimp only
    | split

theorem moves_indexPulseSeen (home : Bool) (s : State) (h : Moves z s) : Moves z (indexPulseSeen home s) := by
  unfold indexPulseSeen
  repeat' first
    | with_reducible exact h
    | with_reducible apply moves_rotatePulse
    | with_reducible apply moves_homingPulse
    | split

theorem moves_settleChange (s : State) (h : Moves z s) : Moves z (settleChange s) := by
  unfold settleChange
  repeat' first
    | with_reducible exact h
    | with_reducible apply moves_seatPin
    | with_reducible apply moves_releaseDest
    | with_reducible apply moves_startSearch
    | with_reducible apply moves_putTray
    | with_reducible apply moves_endRequest
    | dsimp only
    | split

theorem moves_settleHoming (s : State) (h : Moves z s) : Moves z (settleHoming s) := by
  unfold settleHoming
  repeat' first
    | with_reducible exact h
    | with_reducible apply moves_putTray
    | with_reducible apply moves_pinShown
    | with_reducible apply moves_endRequest
    | with_reducible apply moves_planRequest
    | dsimp only
    | split

theorem moves_settleExpiry (s : State) (h : Moves z s) : Moves z (settleExpiry s) := by
  unfold settleExpiry
  repeat' first
    | with_reducible exact h
    | with_reducible apply moves_settleHoming
    | with_reducible apply moves_settleChange
    | split

theorem moves_trayRecord (slot : Nat) (copy : List Word) (s : State) (h : Moves z s) :
    Moves z (trayRecord slot copy s) := by
  unfold trayRecord
  split
  · split
    · have k := moves_putTray { s.tray with wait := .none } s h
      split
      · rename_i e; exact moves_searchRun _ _ _ (moves_searchLook_eq e k)
      · rename_i e; exact moves_searchLook_eq e k
    · exact h
  · repeat' split
    all_goals first
      | exact moves_destinationReady s h
      | exact h
  · exact h

theorem moves_trayDropPins (keys : List Nat) (s : State) (h : Moves z s) : Moves z (trayDropPins keys s) := by
  unfold trayDropPins
  repeat' first
    | with_reducible exact h
    | with_reducible apply moves_putTray

theorem moves_removeTray (s : State) (h : Moves z s) : Moves z (removeTray s) := by
  unfold removeTray
  repeat' first
    | with_reducible exact h
    | with_reducible apply moves_putTray
    | with_reducible apply moves_endRequest
    | with_reducible apply moves_releaseShown
    | with_reducible apply moves_releaseDest
    | with_reducible apply moves_latch
    | dsimp only
    | split

theorem moves_seatTray (tray96 : Bool) (s : State) (h : Moves z s) : Moves z (seatTray tray96 s) := by
  unfold seatTray
  repeat' first
    | with_reducible exact h
    | with_reducible apply moves_putTray
    | split

theorem moves_lookAfresh (s : State) (h : Moves z s) : Moves z (lookAfresh s) := by
  unfold lookAfresh
  repeat' first
    | with_reducible exact h
    | with_reducible apply moves_searchRun
    | with_reducible apply moves_fixDestination
    | split

theorem moves_trayAfterReset (s : State) (h : Moves z s) : Moves z (trayAfterReset s) := by
  unfold trayAfterReset
  repeat' first
    | with_reducible exact h
    | with_reducible apply moves_putTray
    | with_reducible apply moves_pinShown
    | with_reducible apply moves_lookAfresh
    | dsimp only
    | split

/-! ## ClipOps -/

theorem moves_setPlayer (st : PlayerState) (s : State) (h : Moves z s) : Moves z (setPlayer st s) := by
  unfold setPlayer
  repeat' first
    | with_reducible exact h
    | with_reducible apply moves_putClip

theorem moves_answerStart (source : ClipSource) (code : ResultCode) (s : State) (h : Moves z s) : Moves z (answerStart source code s) := by
  unfold answerStart
  repeat' first
    | with_reducible exact h
    | with_reducible apply moves_endPlain
    | with_reducible apply moves_handLog
    | split

theorem moves_beginPlay (clip : Nat) (source : ClipSource) (copy : List Word) (s : State) (h : Moves z s) : Moves z (beginPlay clip source copy s) := by
  unfold beginPlay
  repeat' first
    | with_reducible exact h
    | with_reducible apply moves_setPlayer
    | with_reducible apply moves_putClip

theorem moves_playNext (s : State) (h : Moves z s) : Moves z (playNext s) := by
  unfold playNext
  repeat' first
    | with_reducible exact h
    | with_reducible apply moves_putClip
    | with_reducible apply moves_releasePin
    | with_reducible apply moves_beginPlay
    | with_reducible apply moves_setPlayer
    | dsimp only
    | split

theorem moves_emptyClipQueue (s : State) (h : Moves z s) : Moves z (emptyClipQueue s) := by
  unfold emptyClipQueue
  refine moves_putClip _ _ (moves_foldl _ ?_ _ s h)
  intro s e
  split
  · exact moves_releasePin _ _ s (.refl s)
  · exact .refl s

theorem moves_enterFade (s : State) (h : Moves z s) : Moves z (enterFade s) := by
  unfold enterFade
  repeat' first
    | with_reducible exact h
    | with_reducible apply moves_setPlayer
    | with_reducible apply moves_putClip

theorem moves_dropStart (st : StartRecord) (s : State) (h : Moves z s) : Moves z (dropStart st s) := by
  unfold dropStart
  repeat' first
    | with_reducible exact h
    | with_reducible apply moves_releasePin
    | with_reducible apply moves_putClip
    | dsimp only
    | split

theorem moves_resolveCut (st : StartRecord) (copy : Option (List Word)) (s : State) (h : Moves z s) : Moves z (resolveCut st copy s) := by
  unfold resolveCut
  repeat' first
    | with_reducible exact h
    | with_reducible apply moves_beginPlay
    | with_reducible apply moves_answerStart
    | with_reducible apply moves_dropStart
    | with_reducible apply moves_putClip
    | with_reducible apply moves_setPlayer
    | dsimp only
    | split

theorem moves_resolveQueue (st : StartRecord) (copy : Option (List Word)) (s : State) (h : Moves z s) : Moves z (resolveQueue st copy s) := by
  unfold resolveQueue
  repeat' first
    | with_reducible exact h
    | with_reducible apply moves_putClip
    | with_reducible apply moves_answerStart
    | with_reducible apply moves_playNext
    | with_reducible apply moves_dropStart
    | dsimp only
    | split

theorem moves_resolveStart (copy : Option (List Word)) (s : State) (h : Moves z s) : Moves z (resolveStart copy s) := by
  unfold resolveStart
  repeat' first
    | with_reducible exact h
    | with_reducible apply moves_resolveQueue
    | with_reducible apply moves_resolveCut
    | split

theorem moves_lookupStart (r : ClipRequest) (s : State) (h : Moves z s) : Moves z (lookupStart r s) := by
  unfold lookupStart
  split
  · rename_i e; exact moves_resolveStart _ _ (moves_putClip _ _ (moves_lookup_eq e h))
  · rename_i e; exact moves_resolveStart _ _ (moves_putClip _ _ (moves_lookup_eq e h))
  · rename_i e; exact moves_putClip _ _ (moves_lookup_eq e h)

theorem moves_serve (r : ClipRequest) (s : State) (h : Moves z s) : Moves z (serve r s) := by
  unfold serve
  dsimp only
  have k := moves_emptyClipQueue s h
  split
  · exact moves_lookupStart r s h
  · refine moves_lookupStart r _ ?_
    split
    · exact moves_setPlayer _ _ k
    · exact moves_enterFade _ k
    · exact k

theorem moves_serveNext (n : Nat) (s : State) (h : Moves z s) : Moves z (serveNext n s) := by
  induction n generalizing s with
  | zero => exact h
  | succ n ih =>
    unfold serveNext
    split
    · exact ih _ (moves_serve _ _ (moves_putClip _ s h))
    · exact h

theorem moves_serveAll (s : State) (h : Moves z s) : Moves z (serveAll s) := moves_serveNext 5 s h

theorem moves_startRequest (r : ClipRequest) (s : State) (h : Moves z s) : Moves z (startRequest r s) := by
  unfold startRequest
  repeat' first
    | with_reducible exact h
    | with_reducible apply moves_endPlain
    | with_reducible apply moves_serveAll
    | with_reducible apply moves_serve
    | with_reducible apply moves_putClip
    | with_reducible apply moves_answerStart
    | split

theorem moves_clipRecord (clip : Nat) (copy : Option (List Word)) (s : State) (h : Moves z s) : Moves z (clipRecord clip copy s) := by
  unfold clipRecord
  repeat' first
    | with_reducible exact h
    | with_reducible apply moves_serveAll
    | with_reducible apply moves_resolveStart
    | split

theorem moves_clipAbsent (clip : Nat) (s : State) (h : Moves z s) : Moves z (clipAbsent clip s) := by
  unfold clipAbsent
  repeat' first
    | with_reducible exact h
    | with_reducible apply moves_clipRecord
    | with_reducible apply moves_putClip
    | split

theorem moves_fadeEnd (s : State) (h : Moves z s) : Moves z (fadeEnd s) := by
  unfold fadeEnd
  repeat' first
    | with_reducible exact h
    | with_reducible apply moves_withdrawClip
    | with_reducible apply moves_putClip
    | with_reducible apply moves_playNext
    | with_reducible apply moves_serveAll
    | with_reducible apply moves_beginPlay
    | with_reducible apply moves_answerStart
    | with_reducible apply moves_dropStart
    | with_reducible apply moves_setPlayer
    | dsimp only
    | split

theorem moves_outputSample (x : Int) (rest : List Int) (s : State) (h : Moves z s) : Moves z (outputSample x rest s) := by
  unfold outputSample
  repeat' first
    | with_reducible exact h
    | with_reducible apply moves_putClip
    | with_reducible apply moves_fadeEnd
    | with_reducible apply moves_playNext
    | dsimp only
    | split

theorem moves_missSample (s : State) (h : Moves z s) : Moves z (missSample s) := by
  unfold missSample
  repeat' first
    | with_reducible exact h
    | with_reducible apply moves_putClip
    | with_reducible apply moves_latchIf
    | with_reducible apply moves_fadeEnd
    | dsimp only
    | split

theorem moves_dueSample (s : State) (h : Moves z s) : Moves z (dueSample s) := by
  unfold dueSample
  repeat' first
    | with_reducible exact h
    | with_reducible apply moves_outputSample
    | with_reducible apply moves_fadeEnd
    | with_reducible apply moves_playNext
    | with_reducible apply moves_missSample
    | split

theorem moves_gainTickNow (s : State) (h : Moves z s) : Moves z (gainTickNow s) := by
  unfold gainTickNow
  repeat' first
    | with_reducible exact h
    | with_reducible apply moves_putClip
    | split

theorem moves_abortRequests (s : State) (h : Moves z s) : Moves z (abortRequests s) := by
  unfold abortRequests
  exact moves_foldl _ (fun s r => moves_answerStart _ _ s (.refl s)) _ _ (moves_putClip _ s h)

theorem moves_abortStart (s : State) (h : Moves z s) : Moves z (abortStart s) := by
  unfold abortStart
  repeat' first
    | with_reducible exact h
    | with_reducible apply moves_answerStart
    | with_reducible apply moves_dropStart
    | split

theorem moves_clipStopNow (s : State) (h : Moves z s) : Moves z (clipStopNow s) := by
  unfold clipStopNow
  repeat' first
    | with_reducible exact h
    | with_reducible apply moves_abortStart
    | with_reducible apply moves_abortRequests
    | with_reducible apply moves_emptyClipQueue
    | with_reducible apply moves_enterFade
    | with_reducible apply moves_setPlayer
    | dsimp only
    | split

theorem moves_clipReset (s : State) (h : Moves z s) : Moves z (clipReset s) := by
  unfold clipReset
  dsimp only
  have k := moves_abortRequests _ (moves_putClip { (withdrawClip s).clip with queue := [], start := none } _
    (moves_withdrawClip s h))
  refine moves_setPlayer _ _ (moves_putClip _ _ ?_)
  split
  · exact moves_answerStart _ _ _ k
  · exact k


/-! ## Executor -/

theorem moves_setAction (a : Action) (s : State) (h : Moves z s) : Moves z (setAction a s) := by
  unfold setAction
  repeat' first
    | with_reducible exact h
    | with_reducible apply moves_putCx

theorem moves_postResult (req : ActionRequest) (source : Source) (silent : Bool) (code : ResultCode) (remaining : Nat) (lastSlot : Nat) (s : State) (h : Moves z s) : Moves z (postResult req source silent code remaining lastSlot s) := by
  unfold postResult
  repeat' first
    | with_reducible exact h
    | with_reducible apply moves_endCommand
    | with_reducible apply moves_handLog
    | split

theorem moves_orphanRamps (s : State) (h : Moves z s) : Moves z (orphanRamps s) := by
  unfold orphanRamps
  repeat' first
    | with_reducible exact h
    | with_reducible apply moves_putLamp
    | rfl

theorem moves_endAction (code : ResultCode) (s : State) (h : Moves z s) : Moves z (endAction code s) := by
  unfold endAction
  repeat' first
    | with_reducible exact h
    | with_reducible apply moves_closeWindow
    | with_reducible apply moves_orphanRamps
    | with_reducible apply moves_putCx
    | with_reducible apply moves_postResult
    | dsimp only
    | split

theorem moves_enterPhase (ph : Phase) (s : State) (h : Moves z s) : Moves z (enterPhase ph s) := by
  unfold enterPhase
  repeat' first
    | with_reducible exact h
    | with_reducible apply moves_setAction
    | split

theorem moves_issueRequest (s : State) (h : Moves z s) : Moves z (issueRequest s) := by
  unfold issueRequest
  repeat' first
    | with_reducible exact h
    | with_reducible apply moves_requestTransport
    | with_reducible apply moves_setAction
    | split

theorem moves_enterMovingOpen (s : State) (h : Moves z s) : Moves z (enterMovingOpen s) := by
  unfold enterMovingOpen
  repeat' first
    | with_reducible exact h
    | with_reducible apply moves_issueRequest
    | with_reducible apply moves_enterPhase

theorem moves_enterMovingDark (s : State) (h : Moves z s) : Moves z (enterMovingDark s) := by
  unfold enterMovingDark
  repeat' first
    | with_reducible exact h
    | with_reducible apply moves_openWindow
    | with_reducible apply moves_setAction
    | with_reducible apply moves_issueRequest
    | dsimp only
    | split

theorem moves_darkArrives (s : State) (h : Moves z s) : Moves z (darkArrives s) := by
  unfold darkArrives
  repeat' first
    | with_reducible exact h
    | with_reducible apply moves_putLamp
    | with_reducible apply moves_issueRequest
    | rfl
    | dsimp only
    | split

theorem moves_startLinked (s : State) (h : Moves z s) : Moves z (startLinked s) := by
  unfold startLinked
  repeat' first
    | with_reducible exact h
    | with_reducible apply moves_startRequest
    | split

theorem moves_restoreOrEnd (s : State) (h : Moves z s) : Moves z (restoreOrEnd s) := by
  unfold restoreOrEnd
  repeat' first
    | with_reducible exact h
    | with_reducible apply moves_requestRamp
    | with_reducible apply moves_enterPhase
    | with_reducible apply moves_endAction
    | split

theorem moves_transportCompleted (c : TrayCompletion) (s : State) (h : Moves z s) : Moves z (transportCompleted c s) := by
  unfold transportCompleted
  repeat' first
    | with_reducible exact h
    | with_reducible apply moves_closeWindow
    | with_reducible apply moves_setAction
    | with_reducible apply moves_endAction
    | with_reducible apply moves_restoreOrEnd
    | with_reducible apply moves_startLinked
    | dsimp only
    | split

theorem moves_beginChange (req : ActionRequest) (source : Source) (s : State) (h : Moves z s) : Moves z (beginChange req source s) := by
  unfold beginChange
  repeat' first
    | with_reducible exact h
    | with_reducible apply moves_enterMovingOpen
    | with_reducible apply moves_setAction
    | with_reducible apply moves_enterMovingDark
    | with_reducible apply moves_requestRamp
    | split

theorem moves_beginDissolve (rate : Nat) (source : Source) (s : State) (h : Moves z s) : Moves z (beginDissolve rate source s) := by
  unfold beginDissolve
  repeat' first
    | with_reducible exact h
    | with_reducible apply moves_requestRamp
    | with_reducible apply moves_setAction
    | split

theorem moves_beginFade (level : Nat) (rate : Nat) (source : Source) (s : State) (h : Moves z s) : Moves z (beginFade level rate source s) := by
  unfold beginFade
  repeat' first
    | with_reducible exact h
    | with_reducible apply moves_putCx
    | with_reducible apply moves_requestRamp
    | with_reducible apply moves_setAction
    | dsimp only
    | split

theorem moves_beginLampOn (source : Source) (s : State) (hp : s.thermal.power = .normal) (h : Moves z s) :
    Moves z (beginLampOn source s) := by
  unfold beginLampOn
  dsimp only
  have k := moves_setAction (freshAction (.lamp true) source false .warming) s h
  have kp : (setAction (freshAction (.lamp true) source false .warming) s).thermal.power = .normal := by
    simpa [setAction] using hp
  repeat' split
  all_goals first
    | exact moves_warmRequest _ kp k
    | exact moves_endAction _ _ k
    | exact k

theorem moves_beginLampOff (source : Source) (s : State) (h : Moves z s) : Moves z (beginLampOff source s) := by
  unfold beginLampOff
  repeat' first
    | with_reducible exact h
    | with_reducible apply moves_setAction
    | with_reducible apply moves_requestRamp
    | with_reducible apply moves_endAction
    | with_reducible apply moves_offRequest
    | dsimp only
    | split

theorem moves_beginAction (req : ActionRequest) (source : Source) (s : State) (hp : s.thermal.power = .normal)
    (h : Moves z s) : Moves z (beginAction req source s) := by
  unfold beginAction
  split
  · exact moves_enterMovingOpen _ (moves_setAction _ s h)
  · exact moves_beginDissolve _ _ s h
  · exact moves_beginFade _ _ _ s h
  · exact moves_beginLampOn _ s hp h
  · exact moves_beginLampOff _ s h
  · exact moves_beginChange _ _ s h
  · exact moves_beginChange _ _ s h
  · exact moves_beginChange _ _ s h

theorem moves_takeUp (req : ActionRequest) (source : Source) (s : State) (h : Moves z s) :
    Moves z (takeUp req source s) := by
  unfold takeUp
  split
  · exact moves_postResult _ _ _ _ _ _ s h
  · rename_i e
    refine moves_beginAction req source s ?_ h
    unfold takeUpFailure at e
    by_contra hc
    simp [hc] at e

theorem moves_arbitrate (s : State) (h : Moves z s) : Moves z (arbitrate s) := by
  unfold arbitrate
  repeat' first
    | with_reducible exact h
    | with_reducible apply moves_takeUp
    | with_reducible apply moves_putCx
    | with_reducible apply moves_putRemote
    | split

theorem moves_executorStep {s t : State} (e : executorStep s = some t) (h : Moves z s) : Moves z t := by
  unfold executorStep at e
  split at e
  · cases e; exact moves_transportCompleted _ _ (moves_putTray _ s h)
  · split at e
    · split at e
      · split at e
        · cases e; exact moves_endAction _ s h
        · split at e
          · cases e; exact moves_endAction _ s h
          · split at e
            · cases e; exact moves_endAction _ s h
            · split at e
              · cases e; exact moves_endAction _ s h
              · cases e
      · cases e
    · split at e
      · cases e; exact moves_arbitrate s h
      · cases e

theorem moves_settle (n : Nat) (s : State) (h : Moves z s) : Moves z (settle n s) := by
  induction n generalizing s with
  | zero => exact h
  | succ n ih =>
    unfold settle
    split
    · rename_i e; exact ih _ (moves_executorStep e h)
    · exact h

theorem moves_rampCourse (s : State) (h : Moves z s) : Moves z (rampCourse s) := by
  unfold rampCourse
  repeat' first
    | with_reducible exact h
    | with_reducible apply moves_enterMovingDark
    | with_reducible apply moves_endAction
    | split

theorem moves_rampArrives (s : State) (h : Moves z s) : Moves z (rampArrives s) := by
  unfold rampArrives
  repeat' first
    | with_reducible exact h
    | with_reducible apply moves_putLamp
    | with_reducible apply moves_offMarkActs
    | with_reducible apply moves_rampCourse
    | rfl
    | dsimp only
    | split

theorem moves_stopAction (silent : Bool) (s : State) (h : Moves z s) : Moves z (stopAction silent s) := by
  unfold stopAction
  repeat' first
    | with_reducible exact h
    | with_reducible apply moves_setAction
    | with_reducible apply moves_stopTransport
    | with_reducible apply moves_endAction
    | with_reducible apply moves_freezeRamp
    | dsimp only
    | split

theorem moves_stopPending (s : State) (h : Moves z s) : Moves z (stopPending s) := by
  unfold stopPending
  repeat' first
    | with_reducible exact h
    | with_reducible apply moves_endPlain
    | with_reducible apply moves_putCx
    | split

theorem moves_stopExecutor (s : State) (h : Moves z s) : Moves z (stopExecutor s) := by
  unfold stopExecutor
  repeat' first
    | with_reducible exact h
    | with_reducible apply moves_stopPending
    | with_reducible apply moves_stopAction

theorem moves_emptySources (s : State) (h : Moves z s) : Moves z (emptySources s) := by
  unfold emptySources
  repeat' first
    | with_reducible exact h
    | with_reducible apply moves_putRemote
    | with_reducible apply moves_putCx

theorem moves_resetExecutor (s : State) (h : Moves z s) : Moves z (resetExecutor s) := by
  unfold resetExecutor
  repeat' first
    | with_reducible exact h
    | with_reducible apply moves_freezeRamp
    | with_reducible apply moves_emptySources
    | with_reducible apply moves_stopAction
    | with_reducible apply moves_requestRamp

theorem moves_standbyExecutor (s : State) (h : Moves z s) : Moves z (standbyExecutor s) := by
  unfold standbyExecutor
  repeat' first
    | with_reducible exact h
    | with_reducible apply moves_emptySources
    | with_reducible apply moves_stopAction
    | with_reducible apply moves_requestRamp
    | with_reducible apply moves_offRequest
    | dsimp only
    | split


/-! ## CueTrackOps -/

theorem moves_holdCue (p : Nat) (s : State) (h : Moves z s) : Moves z (holdCue p s) := by
  unfold holdCue
  repeat' first
    | with_reducible exact h
    | with_reducible apply moves_putDeck

theorem moves_releaseDeck (s : State) (h : Moves z s) : Moves z (releaseDeck s) := by
  unfold releaseDeck
  repeat' first
    | with_reducible exact h
    | with_reducible apply moves_putDeck

theorem moves_holdExpiry (s : State) (h : Moves z s) : Moves z (holdExpiry s) := by
  unfold holdExpiry
  repeat' first
    | with_reducible exact h
    | with_reducible apply moves_putDeck
    | split

theorem moves_routeSequenced (kind : SeqKind) (u : Nat) (k : Nat) (param : Nat) (tapeTime : Nat) (injected : Bool) (s : State) (h : Moves z s) : Moves z (routeSequenced kind u k param tapeTime injected s) := by
  unfold routeSequenced
  repeat' first
    | with_reducible exact h
    | with_reducible apply moves_handLog
    | with_reducible apply moves_putCx
    | with_reducible apply moves_latch
    | dsimp only
    | split

theorem moves_routeImmediate (u : Nat) (k : Nat) (param : Nat) (tapeTime : Nat) (injected : Bool) (s : State) (h : Moves z s) : Moves z (routeImmediate u k param tapeTime injected s) := by
  unfold routeImmediate
  repeat' first
    | with_reducible exact h
    | with_reducible apply moves_startRequest
    | with_reducible apply moves_handLog
    | with_reducible apply moves_clipStopNow
    | with_reducible apply moves_holdCue
    | dsimp only
    | split

theorem moves_routeFrame (u : Nat) (k : Nat) (param : Nat) (tapeTime : Nat) (injected : Bool) (s : State) (h : Moves z s) : Moves z (routeFrame u k param tapeTime injected s) := by
  unfold routeFrame
  repeat' first
    | with_reducible exact h
    | with_reducible apply moves_routeSequenced
    | with_reducible apply moves_routeImmediate
    | with_reducible apply moves_handLog
    | split

theorem moves_failFrame (cause : FrameCause) (count : Nat) (s : State) (h : Moves z s) : Moves z (failFrame cause count s) := by
  unfold failFrame
  repeat' first
    | with_reducible exact h
    | with_reducible apply moves_putCue
    | with_reducible apply moves_latch
    | with_reducible apply moves_handLog
    | dsimp only
    | split

theorem moves_failProgress (s : State) (h : Moves z s) : Moves z (failProgress s) := by
  unfold failProgress
  repeat' first
    | with_reducible exact h
    | with_reducible apply moves_failFrame
    | split

theorem moves_completeFrame (nibbles : List Nat) (endTime : Nat) (s : State) (h : Moves z s) : Moves z (completeFrame nibbles endTime s) := by
  unfold completeFrame
  repeat' first
    | with_reducible exact h
    | with_reducible apply moves_putCue
    | with_reducible apply moves_routeFrame
    | with_reducible apply moves_failFrame
    | dsimp only
    | split

theorem moves_toHunt (s : State) (h : Moves z s) : Moves z (toHunt s) := by
  unfold toHunt
  repeat' first
    | with_reducible exact h
    | with_reducible apply moves_putCue

theorem moves_beginFrame (s : State) (h : Moves z s) : Moves z (beginFrame s) := by
  unfold beginFrame
  repeat' first
    | with_reducible exact h
    | with_reducible apply moves_putCue

theorem moves_storeNibble (v : Nat) (s : State) (h : Moves z s) : Moves z (storeNibble v s) := by
  unfold storeNibble
  repeat' first
    | with_reducible exact h
    | with_reducible apply moves_putCue

theorem moves_takeGroup (g : CueGroup) (time : Nat) (s : State) (h : Moves z s) : Moves z (takeGroup g time s) := by
  unfold takeGroup
  repeat' first
    | with_reducible exact h
    | with_reducible apply moves_beginFrame
    | with_reducible apply moves_toHunt
    | with_reducible apply moves_storeNibble
    | with_reducible apply moves_failFrame
    | with_reducible apply moves_completeFrame
    | split

theorem moves_takeChip (chip : Bool) (time : Nat) (s : State) (h : Moves z s) : Moves z (takeChip chip time s) := by
  unfold takeChip
  repeat' first
    | with_reducible exact h
    | with_reducible apply moves_putCue
    | with_reducible apply moves_takeGroup
    | with_reducible apply moves_beginFrame
    | dsimp only
    | split

theorem moves_takeChips (tone : Bool) (time n : Nat) (s : State) (h : Moves z s) :
    Moves z (takeChips tone time n s) := by
  induction n generalizing s with
  | zero => exact h
  | succ n ih => exact ih _ (moves_takeChip _ _ s h)

theorem moves_trackEdge (e : CueEdge) (time : Nat) (s : State) (h : Moves z s) : Moves z (trackEdge e time s) := by
  unfold trackEdge
  repeat' first
    | with_reducible exact h
    | with_reducible apply moves_putCue
    | with_reducible apply moves_takeChips
    | dsimp only
    | split

theorem moves_startRun (time : Nat) (s : State) (h : Moves z s) : Moves z (startRun time s) := by
  unfold startRun
  repeat' first
    | with_reducible exact h
    | with_reducible apply moves_putCue

theorem moves_acquireCarrier (intervals : List Nat) (time : Nat) (s : State) (h : Moves z s) : Moves z (acquireCarrier intervals time s) := by
  unfold acquireCarrier
  repeat' first
    | with_reducible exact h
    | with_reducible apply moves_putCue

theorem moves_acquireEdge (e : CueEdge) (time : Nat) (s : State) (h : Moves z s) : Moves z (acquireEdge e time s) := by
  unfold acquireEdge
  repeat' first
    | with_reducible exact h
    | with_reducible apply moves_acquireCarrier
    | with_reducible apply moves_putCue
    | with_reducible apply moves_startRun
    | dsimp only
    | split

theorem moves_dropCarrier (s : State) (h : Moves z s) : Moves z (dropCarrier s) := by
  unfold dropCarrier
  repeat' first
    | with_reducible exact h
    | with_reducible apply moves_latch
    | with_reducible apply moves_toHunt
    | with_reducible apply moves_putCue
    | with_reducible apply moves_failFrame
    | dsimp only
    | split

theorem moves_cueEdge (e : CueEdge) (s : State) (h : Moves z s) : Moves z (cueEdge e s) := by
  unfold cueEdge
  repeat' first
    | with_reducible exact h
    | with_reducible apply moves_dropCarrier
    | with_reducible apply moves_startRun
    | with_reducible apply moves_acquireEdge
    | with_reducible apply moves_trackEdge
    | dsimp only
    | split

theorem moves_cueEdges (edges : List CueEdge) (s : State) (h : Moves z s) : Moves z (cueEdges edges s) :=
  moves_foldl _ (fun s e => moves_cueEdge e s (.refl s)) _ s h

theorem moves_loseCarrier (s : State) (h : Moves z s) : Moves z (loseCarrier s) := by
  unfold loseCarrier
  split
  · exact moves_dropCarrier s h
  · exact h

theorem moves_discardFrame (s : State) (h : Moves z s) : Moves z (discardFrame s) := by
  unfold discardFrame
  repeat' first
    | with_reducible exact h
    | with_reducible apply moves_toHunt
    | with_reducible apply moves_putCue

theorem moves_standbyDecoder (s : State) (h : Moves z s) : Moves z (standbyDecoder s) := by
  unfold standbyDecoder
  repeat' first
    | with_reducible exact h
    | with_reducible apply moves_discardFrame
    | with_reducible apply moves_putCue

theorem moves_tapeFrame (nibbles intervals : List Nat) (s : State) (h : Moves z s) :
    Moves z (tapeFrame nibbles intervals s) := by
  unfold tapeFrame
  repeat' first
    | with_reducible exact h
    | with_reducible apply moves_failProgress
    | with_reducible apply moves_putCue
    | with_reducible apply moves_completeFrame
    | dsimp only
    | split

theorem moves_tapeTickNow (s : State) (h : Moves z s) : Moves z (tapeTickNow s) := by
  unfold tapeTickNow
  repeat' first
    | with_reducible exact h
    | with_reducible apply moves_putCue
    | split

theorem moves_logPump (n : Nat) (s : State) (h : Moves z s) : Moves z (logPump n s) := by
  induction n generalizing s with
  | zero => exact h
  | succ n ih =>
    unfold logPump
    split
    · exact h
    · split
      · exact h
      · split
        · exact ih _ (moves_latch _ _ (moves_putLog _ s h))
        · exact moves_putLog _ s h

theorem moves_logLanded (s : State) (h : Moves z s) : Moves z (logLanded s) := by
  unfold logLanded
  repeat' first
    | with_reducible exact h
    | with_reducible apply moves_putLog
    | split

theorem moves_handRingRd (v : Nat) (s : State) (h : Moves z s) : Moves z (handRingRd v s) := by
  unfold handRingRd
  repeat' first
    | with_reducible exact h
    | with_reducible apply moves_putLog
    | split

theorem moves_freshRing (s : State) (h : Moves z s) : Moves z (freshRing s) := by
  unfold freshRing
  dsimp only
  have k := moves_markDirty 17 _ (moves_putLog
    { (withdrawLog s).log with staging := [], w := 0, rd := 0, pendingRd := none, writing := none } _
    (moves_withdrawLog s h))
  exact moves_addCorrection 33 _ (k.trans (.header _ _ rfl rfl))

theorem moves_cueTrackReset (s : State) (h : Moves z s) : Moves z (cueTrackReset s) := by
  unfold cueTrackReset
  repeat' first
    | with_reducible exact h
    | with_reducible apply moves_discardFrame
    | with_reducible apply moves_putDeck


/-! ## RemoteOps -/

theorem moves_wakeUnit (s : State) (h : Moves z s) : Moves z (wakeUnit s) := by
  unfold wakeUnit
  split
  · exact h
  · exact moves_decided _ s (fun k => k) (fun e => by cases e) h

theorem moves_endFocusCommand (run : FocusRun) (code : ResultCode) (s : State) (h : Moves z s) : Moves z (endFocusCommand run code s) := by
  unfold endFocusCommand
  repeat' first
    | with_reducible exact h
    | with_reducible apply moves_endPlain
    | split

theorem moves_endFocus (code : ResultCode) (s : State) (h : Moves z s) : Moves z (endFocus code s) := by
  unfold endFocus
  repeat' first
    | with_reducible exact h
    | with_reducible apply moves_endFocusCommand
    | with_reducible apply moves_putRemote
    | split

theorem moves_startFocus (inward : Bool) (owner : FocusOwner) (limit : Nat) (s : State) (h : Moves z s) : Moves z (startFocus inward owner limit s) := by
  unfold startFocus
  repeat' first
    | with_reducible exact h
    | with_reducible apply moves_endFocus
    | with_reducible apply moves_putRemote

theorem moves_stopFocusCommand (s : State) (h : Moves z s) : Moves z (stopFocusCommand s) := by
  unfold stopFocusCommand
  repeat' first
    | with_reducible exact h
    | with_reducible apply moves_endFocus
    | split

theorem moves_focusRepeat (inward : Bool) (s : State) (h : Moves z s) : Moves z (focusRepeat inward s) := by
  unfold focusRepeat
  repeat' first
    | with_reducible exact h
    | with_reducible apply moves_putRemote
    | split

theorem moves_repeatExpiry (s : State) (h : Moves z s) : Moves z (repeatExpiry s) := by
  unfold repeatExpiry
  repeat' first
    | with_reducible exact h
    | with_reducible apply moves_endFocus
    | split

theorem moves_focusExpiry (s : State) (h : Moves z s) : Moves z (focusExpiry s) := by
  unfold focusExpiry
  repeat' first
    | with_reducible exact h
    | with_reducible apply moves_endFocus
    | split

theorem moves_stallFocus (s : State) (h : Moves z s) : Moves z (stallFocus s) := by
  unfold stallFocus
  repeat' first
    | with_reducible exact h
    | with_reducible apply moves_endFocus

theorem moves_addNet (d : Int) (s : State) (h : Moves z s) : Moves z (addNet d s) := by
  unfold addNet
  repeat' first
    | with_reducible exact h
    | with_reducible apply moves_putRemote

theorem moves_pressOneShot (k : OneShot) (s : State) (h : Moves z s) : Moves z (pressOneShot k s) := by
  unfold pressOneShot
  repeat' first
    | with_reducible exact h
    | with_reducible apply moves_putRemote

theorem moves_remoteStop (s : State) (h : Moves z s) : Moves z (remoteStop s) := by
  unfold remoteStop
  repeat' first
    | with_reducible exact h
    | with_reducible apply moves_stopFocusCommand
    | with_reducible apply moves_stopExecutor

theorem moves_pressEffect (key : Nat) (src : PressSource) (s : State) (h : Moves z s) : Moves z (pressEffect key src s) := by
  unfold pressEffect
  repeat' first
    | with_reducible exact h
    | with_reducible apply moves_addNet
    | with_reducible apply moves_pressOneShot
    | with_reducible apply moves_remoteStop
    | with_reducible apply moves_putDeck
    | with_reducible apply moves_releaseDeck
    | with_reducible apply moves_startFocus
    | with_reducible apply moves_startRequest
    | split

theorem moves_takePress (key : Nat) (src : PressSource) (s : State) (h : Moves z s) : Moves z (takePress key src s) := by
  unfold takePress
  repeat' first
    | with_reducible exact h
    | with_reducible apply moves_wakeUnit
    | with_reducible apply moves_pressEffect
    | split

theorem moves_setLastFrame (sys : Nat) (key : Nat) (toggle : Nat) (s : State) (h : Moves z s) : Moves z (setLastFrame sys key toggle s) := by
  unfold setLastFrame
  repeat' first
    | with_reducible exact h
    | with_reducible apply moves_putRemote

theorem moves_repeatEffect (key : Nat) (s : State) (h : Moves z s) : Moves z (repeatEffect key s) := by
  unfold repeatEffect
  repeat' first
    | with_reducible exact h
    | with_reducible apply moves_focusRepeat
    | split

theorem moves_judgeFrame (sys : Nat) (key : Nat) (toggle : Nat) (check : Nat) (s : State) (h : Moves z s) : Moves z (judgeFrame sys key toggle check s) := by
  unfold judgeFrame
  repeat' first
    | with_reducible exact h
    | with_reducible apply moves_setLastFrame
    | with_reducible apply moves_takePress
    | with_reducible apply moves_repeatEffect
    | dsimp only
    | split

theorem moves_lineIdle (s : State) (h : Moves z s) : Moves z (lineIdle s) := by
  unfold lineIdle
  repeat' first
    | with_reducible exact h
    | with_reducible apply moves_putRemote

theorem moves_remoteFrameIn (key : Nat) (fr : RemoteFrame) (s : State) (h : Moves z s) : Moves z (remoteFrameIn key fr s) := by
  unfold remoteFrameIn
  repeat' first
    | with_reducible exact h
    | with_reducible apply moves_judgeFrame
    | with_reducible apply moves_lineIdle

theorem moves_panelDown (k : PanelKey) (activeFor : Nat) (s : State) (h : Moves z s) : Moves z (panelDown k activeFor s) := by
  unfold panelDown
  repeat' first
    | with_reducible exact h
    | with_reducible apply moves_putRemote
    | with_reducible apply moves_takePress
    | dsimp only
    | split

theorem moves_panelUp (k : PanelKey) (inactiveFor : Nat) (s : State) (h : Moves z s) : Moves z (panelUp k inactiveFor s) := by
  unfold panelUp
  repeat' first
    | with_reducible exact h
    | with_reducible apply moves_putRemote
    | with_reducible apply moves_endFocus
    | dsimp only
    | split

theorem moves_keyPress (k : PanelKey) (p : Press) (s : State) (h : Moves z s) : Moves z (keyPress k p s) := by
  unfold keyPress
  repeat' first
    | with_reducible exact h
    | with_reducible apply moves_remoteFrameIn
    | with_reducible apply moves_panelDown
    | split

theorem moves_abandonAtMark (len : Nat) (s : State) (h : Moves z s) : Moves z (abandonAtMark len s) := by
  unfold abandonAtMark
  repeat' first
    | with_reducible exact h
    | with_reducible apply moves_lineIdle
    | with_reducible apply moves_putRemote
    | dsimp only
    | split

theorem moves_judgeBits (bits : List Bool) (s : State) (h : Moves z s) : Moves z (judgeBits bits s) := by
  unfold judgeBits
  repeat' first
    | with_reducible exact h
    | with_reducible apply moves_judgeFrame

theorem moves_lineMark (len : Nat) (s : State) (h : Moves z s) : Moves z (lineMark len s) := by
  unfold lineMark
  repeat' first
    | with_reducible exact h
    | with_reducible apply moves_abandonAtMark
    | with_reducible apply moves_putRemote
    | with_reducible apply moves_judgeBits
    | with_reducible apply moves_lineIdle
    | dsimp only
    | split

theorem moves_lineSpace (len : Nat) (s : State) (h : Moves z s) : Moves z (lineSpace len s) := by
  unfold lineSpace
  repeat' first
    | with_reducible exact h
    | with_reducible apply moves_putRemote
    | with_reducible apply moves_lineIdle
    | dsimp only
    | split

theorem moves_lineElement (e : LineElement) (s : State) (h : Moves z s) : Moves z (lineElement e s) := by
  unfold lineElement
  repeat' first
    | with_reducible exact h
    | with_reducible apply moves_lineMark
    | with_reducible apply moves_lineSpace
    | split

theorem moves_lineElements (es : List LineElement) (s : State) (h : Moves z s) : Moves z (lineElements es s) :=
  moves_foldl _ (fun s e => moves_lineElement e s (.refl s)) _ s h

theorem moves_resetFocus (s : State) (h : Moves z s) : Moves z (resetFocus s) := by
  unfold resetFocus
  repeat' first
    | with_reducible exact h
    | with_reducible apply moves_putRemote


/-! ## HeaderOps -/

theorem moves_answerRecord (d : EntryData) (s : State) (h : Moves z s) : Moves z (answerRecord d s) := by
  unfold answerRecord
  repeat' first
    | with_reducible exact h
    | with_reducible apply moves_trayRecord
    | with_reducible apply moves_clipRecord
    | split

theorem moves_shadowBaseChange' (kind : RecKind) (base : Nat) (s : State) (h : Moves z s) :
    Moves z (shadowBaseChange kind base s) := moves_shadowBaseChange kind base s h

theorem moves_slotBaseChanged (s : State) (h : Moves z s) : Moves z (slotBaseChanged s) := by
  unfold slotBaseChanged
  dsimp only
  have k := moves_shadowBaseChange .slot s.hdr.settings.slotBase s h
  split
  · exact moves_serveWaiting _ (moves_foldl _ (fun s x => moves_trayRecord _ _ s (.refl s)) _ _ (moves_trayDropPins _ _ k))
  · exact k

theorem moves_clipBaseChanged (s : State) (h : Moves z s) : Moves z (clipBaseChanged s) := by
  unfold clipBaseChanged
  dsimp only
  have k := moves_shadowBaseChange .clip s.hdr.settings.clipBase s h
  split
  · exact moves_serveWaiting _ (moves_foldl _ (fun s x => moves_clipAbsent _ s (.refl s)) _ _ k)
  · exact k

theorem moves_compareWord (i : Nat) (s : State) (h : Moves z s) : Moves z (compareWord i s) := by
  unfold compareWord
  repeat' first
    | with_reducible exact h
    | with_reducible apply moves_addCorrection
    | split

theorem moves_takeIrqMask (v : Word) (s : State) (h : Moves z s) : Moves z (takeIrqMask v s) := by
  unfold takeIrqMask
  dsimp only
  have k := moves_putSettings { s.hdr.settings with irqMask := v } s (fun hh => hh) h
  split
  · exact k
  · exact k.trans (.writer _ _ ⟨rfl, rfl, rfl, rfl, rfl, rfl, rfl, rfl, rfl, rfl⟩)

theorem moves_takeGroupMask (v : Word) (s : State) (h : Moves z s) : Moves z (takeGroupMask v s) := by
  unfold takeGroupMask
  repeat' first
    | with_reducible exact h
    | with_reducible apply moves_putSettings
    | exact fun hh => hh

theorem moves_takeMode (v : Word) (s : State) (h : Moves z s) : Moves z (takeMode v s) := by
  unfold takeMode
  repeat' first
    | with_reducible exact h
    | with_reducible apply moves_putSettings
    | exact fun hh => hh

theorem moves_takeBlankRate (v : Word) (s : State) (h : Moves z s) : Moves z (takeBlankRate v s) := by
  unfold takeBlankRate
  repeat' first
    | with_reducible exact h
    | with_reducible apply moves_putSettings
    | exact fun hh => hh

theorem moves_takeFloor (v : Word) (s : State) (h : Moves z s) : Moves z (takeFloor v s) := by
  unfold takeFloor
  repeat' first
    | with_reducible exact h
    | with_reducible apply moves_putPending

theorem moves_takeMaster (v : Word) (s : State) (h : Moves z s) : Moves z (takeMaster v s) := by
  unfold takeMaster
  repeat' first
    | with_reducible exact h
    | with_reducible apply moves_putPending

theorem moves_takeCurveSel (v : Word) (s : State) (h : Moves z s) : Moves z (takeCurveSel v s) := by
  unfold takeCurveSel
  repeat' first
    | with_reducible exact h
    | with_reducible apply moves_putPending
    | split

theorem moves_takeVolume (v : Word) (s : State) (h : Moves z s) : Moves z (takeVolume v s) := by
  unfold takeVolume
  repeat' first
    | with_reducible exact h
    | with_reducible apply moves_putPending

theorem moves_takeDuck (v : Word) (s : State) (h : Moves z s) : Moves z (takeDuck v s) := by
  unfold takeDuck
  repeat' first
    | with_reducible exact h
    | with_reducible apply moves_putPending

theorem moves_correctIf (b : Bool) (i : Nat) (s : State) (h : Moves z s) : Moves z (correctIf b i s) := by
  unfold correctIf
  repeat' first
    | with_reducible exact h
    | with_reducible apply moves_addCorrection
    | split

theorem moves_takeTd (v : Word) (s : State) (h : Moves z s) : Moves z (takeTd v s) := by
  unfold takeTd
  dsimp only
  refine moves_updateCeiling _ (moves_correctIf _ _ _ (moves_correctIf _ _ _ (moves_putSettings _ s ?_ h)))
  intro _
  simp only [Settings.thermalOrder, clampTt, clampTr, clampTo]
  split_ifs <;> omega

theorem moves_takeTt (v : Word) (s : State) (h : Moves z s) : Moves z (takeTt v s) := by
  unfold takeTt
  refine moves_putSettings _ s ?_ h
  intro k
  simp only [Settings.thermalOrder, clampTt, clampTo] at k ⊢
  split_ifs <;> omega

theorem moves_takeTr (v : Word) (s : State) (h : Moves z s) : Moves z (takeTr v s) := by
  unfold takeTr
  refine moves_putSettings _ s ?_ h
  intro k
  simp only [Settings.thermalOrder, clampTr, clampTo] at k ⊢
  split_ifs <;> omega

theorem moves_takeGateLimit (v : Word) (s : State) (h : Moves z s) : Moves z (takeGateLimit v s) := by
  unfold takeGateLimit
  repeat' first
    | with_reducible exact h
    | with_reducible apply moves_updateGateFlag
    | with_reducible apply moves_putSettings
    | exact fun hh => hh

theorem moves_takePc (v : Word) (s : State) (h : Moves z s) : Moves z (takePc v s) := by
  unfold takePc
  repeat' first
    | with_reducible exact h
    | with_reducible apply moves_updateCeiling
    | with_reducible apply moves_putSettings
    | exact fun hh => hh

theorem moves_takeDwellLimit (v : Word) (s : State) (h : Moves z s) : Moves z (takeDwellLimit v s) := by
  unfold takeDwellLimit
  repeat' first
    | with_reducible exact h
    | with_reducible apply moves_dwellLimitChanged
    | with_reducible apply moves_putSettings
    | exact fun hh => hh
    | dsimp only
    | split

theorem moves_takeRingSize (v : Word) (s : State) (h : Moves z s) : Moves z (takeRingSize v s) := by
  unfold takeRingSize
  repeat' first
    | with_reducible exact h
    | with_reducible apply moves_freshRing
    | with_reducible apply moves_putSettings
    | exact fun hh => hh
    | dsimp only
    | split

theorem moves_takeRingRd (v : Word) (s : State) (h : Moves z s) : Moves z (takeRingRd v s) := by
  unfold takeRingRd
  split
  · exact moves_handRingRd _ _ (h.trans (.header _ _ rfl rfl))
  · exact h

theorem moves_autoHoldTurned (s : State) (h : Moves z s) : Moves z (autoHoldTurned s) := by
  unfold autoHoldTurned
  repeat' first
    | with_reducible exact h
    | with_reducible apply moves_autoHold
    | with_reducible apply moves_putDeck
    | split

theorem moves_takeCueOptions (v : Word) (s : State) (h : Moves z s) : Moves z (takeCueOptions v s) := by
  unfold takeCueOptions
  repeat' first
    | with_reducible exact h
    | with_reducible apply moves_putSettings
    | with_reducible apply moves_autoHold
    | with_reducible apply moves_autoHoldTurned
    | with_reducible apply moves_discardFrame
    | exact fun hh => hh
    | dsimp only
    | split

theorem moves_takeRemoteOptions (v : Word) (s : State) (h : Moves z s) : Moves z (takeRemoteOptions v s) := by
  unfold takeRemoteOptions
  repeat' first
    | with_reducible exact h
    | with_reducible apply moves_putSettings
    | exact fun hh => hh

theorem moves_takeLifeLimit (v : Word) (s : State) (h : Moves z s) : Moves z (takeLifeLimit v s) := by
  unfold takeLifeLimit
  repeat' first
    | with_reducible exact h
    | with_reducible apply moves_reviewLife
    | with_reducible apply moves_putSettings
    | exact fun hh => hh

theorem moves_acceptBase (r : Region) (base : Nat) (s : State) (h : Moves z s) : Moves z (acceptBase r base s) := by
  unfold acceptBase
  repeat' first
    | with_reducible exact h
    | with_reducible apply moves_slotBaseChanged
    | with_reducible apply moves_putSettings
    | with_reducible apply moves_clipBaseChanged
    | with_reducible apply moves_curveBaseChanged
    | with_reducible apply moves_freshRing
    | exact fun hh => hh
    | split

theorem moves_takeBase (r : Region) (s : State) (h : Moves z s) : Moves z (takeBase r s) := by
  unfold takeBase
  repeat' first
    | with_reducible exact h
    | with_reducible apply moves_acceptBase
    | with_reducible apply moves_addCorrection
    | dsimp only
    | split

theorem moves_enterStandby (s : State) (hp : s.thermal.power = .normal) (h : Moves z s) :
    Moves z (enterStandby s) := by
  unfold enterStandby
  exact moves_endFocus _ _ (moves_clipStopNow _ (moves_standbyDecoder _ (moves_standbyExecutor _
    (moves_evalStandby _ (h.trans (.pendStandby s hp))))))

theorem moves_commandClip (r : CommandRecord) (s : State) (h : Moves z s) : Moves z (commandClip r s) := by
  unfold commandClip
  repeat' first
    | with_reducible exact h
    | with_reducible apply moves_endPlain
    | with_reducible apply moves_startRequest
    | split

theorem moves_commandInject (r : CommandRecord) (s : State) (h : Moves z s) : Moves z (commandInject r s) := by
  unfold commandInject
  repeat' first
    | with_reducible exact h
    | with_reducible apply moves_endPlain
    | with_reducible apply moves_routeFrame
    | split

theorem moves_commandFocus (r : CommandRecord) (s : State) (h : Moves z s) : Moves z (commandFocus r s) := by
  unfold commandFocus
  repeat' first
    | with_reducible exact h
    | with_reducible apply moves_endPlain
    | with_reducible apply moves_startFocus
    | split

theorem moves_commandStandby (s : State) (h : Moves z s) : Moves z (commandStandby s) := by
  unfold commandStandby
  split
  · rename_i c; exact moves_endPlain _ _ (moves_enterStandby s c h)
  · exact moves_endPlain _ s h

theorem moves_routeCommand (s : State) (h : Moves z s) : Moves z (routeCommand s) := by
  unfold routeCommand
  dsimp only
  exact moves_ite (moves_endPlain _ s h) (moves_ite (moves_putCx _ s h) (moves_ite (moves_endPlain _ s h)
    (moves_ite (moves_takeApply s h) (moves_ite (moves_endPlain _ _ (moves_setLampMinutes _ _ s h))
    (moves_ite (moves_commandClip _ s h) (moves_ite (moves_endPlain _ _ (moves_clipStopNow s h))
    (moves_ite (moves_endPlain _ _ (moves_putDeck _ s h)) (moves_ite (moves_endPlain _ _ (moves_releaseDeck s h))
    (moves_ite (moves_commandInject _ s h) (moves_ite (moves_commandFocus _ s h)
    (moves_ite (moves_commandStandby s h) (moves_ite (moves_endPlain _ _ (moves_wakeUnit s h))
    (moves_endPlain _ s h)))))))))))))

theorem moves_stopCommand (s : State) (h : Moves z s) : Moves z (stopCommand s) := by
  unfold stopCommand
  repeat' first
    | with_reducible exact h
    | with_reducible apply moves_putRecord
    | with_reducible apply moves_stopFocusCommand
    | with_reducible apply moves_stopExecutor
    | dsimp only
    | split

theorem moves_discardRecord (s : State) (h : Moves z s) : Moves z (discardRecord s) := by
  unfold discardRecord
  repeat' first
    | with_reducible exact h
    | with_reducible apply moves_putRecord
    | dsimp only
    | split



/-- RESET is taken as one: what it clears first, what follows, and the whole Status Block dirty. -/
theorem moves_resetCommand (s : State) (h : Moves z s) : Moves z (resetCommand s) := by
  unfold resetCommand
  exact h.trans (.reset (moves_trayAfterReset _ (moves_shadowReset _ (moves_clipReset _ (moves_cueTrackReset _
    (moves_resetFocus _ (moves_resetExecutor _ (moves_discardRecord _ (.refl _)))))))))

theorem moves_acceptCommand (code tag : Byte) (s : State) (h : Moves z s) : Moves z (acceptCommand code tag s) := by
  unfold acceptCommand
  split
  · exact moves_putRecord _ s h
  · exact moves_latch _ _ (h.trans (.reject _ s))

theorem moves_triggerCommand (v : Word) (s : State) (h : Moves z s) : Moves z (triggerCommand v s) := by
  unfold triggerCommand
  repeat' first
    | with_reducible exact h
    | with_reducible apply moves_stopCommand
    | with_reducible apply moves_resetCommand
    | with_reducible apply moves_acceptCommand
    | dsimp only
    | split

theorem moves_takeWord (i : Nat) (v : Word) (s : State) (h : Moves z s) : Moves z (takeWord i v s) := by
  unfold takeWord
  repeat' first
    | with_reducible exact h
    | with_reducible apply moves_compareWord
    | with_reducible apply moves_takeIrqMask
    | with_reducible apply moves_takeGroupMask
    | with_reducible apply moves_takeMode
    | with_reducible apply moves_takeBlankRate
    | with_reducible apply moves_takeFloor
    | with_reducible apply moves_takeMaster
    | with_reducible apply moves_takeCurveSel
    | with_reducible apply moves_takeVolume
    | with_reducible apply moves_takeDuck
    | with_reducible apply moves_takeTd
    | with_reducible apply moves_takeTt
    | with_reducible apply moves_takeTr
    | with_reducible apply moves_takeGateLimit
    | with_reducible apply moves_takePc
    | with_reducible apply moves_takeDwellLimit
    | with_reducible apply moves_takeBase
    | with_reducible apply moves_takeRingSize
    | with_reducible apply moves_takeRingRd
    | with_reducible apply moves_takeCueOptions
    | with_reducible apply moves_takeRemoteOptions
    | with_reducible apply moves_takeLifeLimit
    | split

theorem moves_cancelCorrection (i : Nat) (s : State) (h : Moves z s) : Moves z (cancelCorrection i s) :=
  (moves_withdrawHeader i s h).trans (.header _ _ rfl rfl)

theorem moves_evaluateHeader (i : Nat) (w : LaneWrite) (s : State) (h : Moves z s) : Moves z (evaluateHeader i w s) := by
  unfold evaluateHeader
  repeat' first
    | with_reducible exact h
    | with_reducible apply moves_setImage
    | with_reducible apply moves_cancelCorrection
    | with_reducible apply moves_triggerCommand
    | with_reducible apply moves_takeWord
    | dsimp only
    | split

theorem moves_statusLanded (v : Word) (s : State) (h : Moves z s) : Moves z (statusLanded v s) := by
  unfold statusLanded
  repeat' first
    | with_reducible exact h
    | with_reducible apply moves_putRecord
    | with_reducible apply moves_routeCommand
    | dsimp only
    | split

theorem moves_resultLanded (i : Nat) (s : State) (h : Moves z s) : Moves z (resultLanded i s) := by
  unfold resultLanded
  dsimp only
  split
  · have k := moves_putRecord { s.hdr.record with toLand := removeIndex i s.hdr.record.toLand } s h
    split
    · exact moves_latch _ _ (k.trans (.failed _ _))
    · exact k
  · exact h

theorem moves_eventsLanded (old v : Word) (preReset : Bool) (s : State) (h : Moves z s) :
    Moves z (eventsLanded old v preReset s) := by
  unfold eventsLanded
  split
  · exact h
  · exact h.trans (.writer _ _ ⟨rfl, rfl, rfl, rfl, rfl, rfl, rfl, rfl, rfl, rfl⟩)

theorem moves_firstWritten (i : Nat) (s : State) (h : Moves z s) : Moves z (firstWritten i s) := by
  unfold firstWritten
  dsimp only
  split
  · have k : Moves z { s with sw := { s.sw with unwritten := removeIndex i s.sw.unwritten } } :=
      h.trans (.writer _ _ ⟨rfl, rfl, rfl, rfl, rfl, rfl, rfl, rfl, rfl, rfl⟩)
    split
    · exact k.trans (.ready _)
    · exact k
  · exact h

/-- What follows a Status Block word that has landed. -/
theorem moves_statusWordLanded (i : Nat) (v : Word) (afterHand preReset : Bool) (s : State)
    (h : Moves z { s with sw := { s.sw with copy := s.sw.copy.setIfInBounds i v } }) :
    Moves z (statusWordLanded i v afterHand preReset s) := by
  unfold statusWordLanded
  dsimp only
  have k := moves_firstWritten i _ h
  have k2 : Moves z (if i = 0 then statusLanded v (firstWritten i
      { s with sw := { s.sw with copy := s.sw.copy.setIfInBounds i v } })
      else firstWritten i { s with sw := { s.sw with copy := s.sw.copy.setIfInBounds i v } }) := by
    split
    · exact moves_statusLanded _ _ k
    · exact k
  repeat' first
    | exact k2
    | with_reducible apply moves_resultLanded
    | with_reducible apply moves_eventsLanded
    | split

theorem moves_correctionWritten (i : Nat) (v : Word) (s : State) (h : Moves z s) :
    Moves z (correctionWritten i v s) := (moves_setImage i v s h).trans (.header _ _ rfl rfl)

theorem moves_statusNotice (s : State) (h : Moves z s) : Moves z (statusNotice s) := by
  unfold statusNotice
  split
  · exact h
  · exact h.trans (.writer _ _ ⟨rfl, rfl, rfl, rfl, rfl, rfl, rfl, rfl, rfl, rfl⟩)

theorem moves_eventsNotice (s : State) (h : Moves z s) : Moves z (eventsNotice s) := h.trans (.notice s)


/-! ## PortOps -/

theorem moves_presentClip (s : State) (h : Moves z s) : Moves z (presentClip s) := by
  unfold presentClip
  split
  · exact moves_putReqs _ _ (by simp) (moves_putClip _ s h)
  · exact h

theorem moves_presentStatus (s : State) (h : Moves z s) : Moves z (presentStatus s) := h.trans (.ask s)

theorem moves_presentHeader (s : State) (h : Moves z s) : Moves z (presentHeader s) := by
  unfold presentHeader
  repeat' first
    | with_reducible exact h
    | with_reducible apply moves_putReqs
    | rfl
    | split

theorem moves_presentLog (s : State) (h : Moves z s) : Moves z (presentLog s) := by
  unfold presentLog
  repeat' first
    | with_reducible exact h
    | with_reducible apply moves_putReqs
    | rfl
    | split

theorem moves_presentShadow (s : State) (h : Moves z s) : Moves z (presentShadow s) := by
  unfold presentShadow
  repeat' first
    | with_reducible exact h
    | with_reducible apply moves_putReqs
    | rfl
    | split

theorem moves_presentCurve (s : State) (h : Moves z s) : Moves z (presentCurve s) := by
  unfold presentCurve
  repeat' first
    | with_reducible exact h
    | with_reducible apply moves_putReqs
    | rfl
    | split

theorem moves_present (s : State) (h : Moves z s) : Moves z (present s) := by
  unfold present
  repeat' first
    | with_reducible exact h
    | with_reducible apply moves_presentCurve
    | with_reducible apply moves_presentShadow
    | with_reducible apply moves_presentLog
    | with_reducible apply moves_presentHeader
    | with_reducible apply moves_presentStatus
    | with_reducible apply moves_presentClip



theorem moves_handOn (x : HostAccess) (w : LaneWrite) (s : State) (h : Moves z s) : Moves z (handOn x w s) := by
  unfold handOn
  dsimp only
  repeat' split
  all_goals first
    | exact h
    | exact moves_evaluateHeader _ _ s h
    | exact moves_curveCompare _ _ _ (moves_shadowCompare _ _ s h)

/-- A grant to another requester than the Status Writer, with the RAM free. -/
theorem moves_startAccess {who : Requester} (addr : Nat) (data : Word) (b : Bool) (reqs : Requests) (s : State)
    (hr : s.port.ram = none) (hw : who ≠ .statusWriter) (hq : reqs.statusWriter = s.port.reqs.statusWriter)
    (h : Moves z s) : Moves z (startAccess who addr data b reqs s) := by
  refine h.trans (.port _ s ?_ hq)
  simp [Port.statusInRam, hr, hw]

theorem moves_grantHost (s : State) (hr : s.port.ram = none) (h : Moves z s) : Moves z (grantHost s) := by
  unfold grantHost
  split
  · rename_i x hx
    dsimp only
    have k : Moves z { s with port := { s.port with access := some { x with inRam := true } } } :=
      h.trans (.port _ s rfl rfl)
    split
    · exact moves_startAccess (who := .host) _ _ _ _ _ hr (by decide) rfl k
    · rename_i w _
      exact moves_handOn x w _ ((moves_startAccess (who := .host) (2 * x.addr.toNat) 0 false s.port.reqs
        { s with port := { s.port with access := some { x with inRam := true } } } hr
        (by decide) rfl k).trans (.store x.addr w _))
  · exact h



theorem moves_grantHeader (s : State) (hr : s.port.ram = none) (h : Moves z s) : Moves z (grantHeader s) := by
  unfold grantHeader
  split
  · exact moves_startAccess _ _ _ _ s hr (by decide) rfl h
  · exact h

theorem moves_grantLog (s : State) (hr : s.port.ram = none) (h : Moves z s) : Moves z (grantLog s) := by
  unfold grantLog
  split
  · exact moves_startAccess _ _ _ _ s hr (by decide) rfl h
  · exact h

theorem moves_grantRead (who : Requester) (addr : Option Nat) (reqs : Requests) (s : State) (hr : s.port.ram = none)
    (hw : who ≠ .statusWriter) (hq : reqs.statusWriter = s.port.reqs.statusWriter) (h : Moves z s) :
    Moves z (grantRead who addr reqs s) := by
  unfold grantRead
  split
  · exact moves_startAccess _ _ _ _ s hr hw hq h
  · exact h

theorem moves_grantTo (who : Requester) (s : State) (hr : s.port.ram = none) (h : Moves z s) :
    Moves z (grantTo who s) := by
  cases who <;> simp only [grantTo]
  · exact moves_grantHost s hr h
  · exact moves_grantRead _ _ _ s hr (by decide) rfl h
  · exact h.trans (.grantWord s hr)
  · exact moves_grantHeader s hr h
  · exact moves_grantLog s hr h
  · exact moves_grantRead _ _ _ s hr (by decide) rfl h
  · exact moves_grantRead _ _ _ s hr (by decide) rfl h

theorem moves_grant (s : State) (h : Moves z s) : Moves z (grant s) := by
  unfold grant
  split
  · exact h
  · rename_i hr
    split
    · exact moves_grantTo _ s hr h
    · exact h

theorem moves_after (s : State) (h : Moves z s) : Moves z (after s) := by
  unfold after
  repeat' first
    | with_reducible exact h
    | with_reducible apply moves_present
    | with_reducible apply moves_logPump
    | with_reducible apply moves_settle

theorem moves_finish (s : State) (h : Moves z s) : Moves z (finish s) := by
  unfold finish
  repeat' first
    | with_reducible exact h
    | with_reducible apply moves_after
    | with_reducible apply moves_grant

theorem moves_live (f : State → State) (s : State) (hf : Moves z s → Moves z (f s)) (h : Moves z s) :
    Moves z (live f s) := by
  unfold live
  split
  · exact h
  · exact moves_finish _ (hf h)

theorem moves_portFinish (s : State) (h : Moves z s) : Moves z (portFinish s) := by
  unfold portFinish
  repeat' first
    | with_reducible exact h
    | with_reducible apply moves_grant
    | with_reducible apply moves_finish
    | split

theorem moves_takeAccess (addr : WordAddr) (kind : HostKind) (s : State) (h : Moves z s) :
    Moves z (takeAccess addr kind s) := by
  unfold takeAccess
  dsimp only
  repeat' split
  all_goals first
    | exact h.trans (.port _ s rfl rfl)
    | exact moves_latchIf _ _ s h

theorem moves_hostAccess (addr : WordAddr) (kind : HostKind) (s : State) (h : Moves z s) :
    Moves z (hostAccess addr kind s) := by
  unfold hostAccess
  split
  · exact h.trans (.port _ s rfl rfl)
  · exact moves_takeAccess _ _ s h

theorem moves_startKept (l : List HostAccess) (s : State) (h : Moves z s) : Moves z (startKept l s) := by
  induction l generalizing s with
  | nil => exact h.trans (.port _ s rfl rfl)
  | cons x l ih =>
    unfold startKept
    dsimp only
    have k := moves_takeAccess x.addr x.kind s h
    split
    · exact k.trans (.port _ _ rfl rfl)
    · exact ih _ k

theorem moves_readNotice (addr : WordAddr) (s : State) (h : Moves z s) : Moves z (readNotice addr s) := by
  unfold readNotice
  repeat' first
    | with_reducible exact h
    | with_reducible apply moves_statusNotice
    | with_reducible apply moves_eventsNotice
    | split

theorem moves_endHostAccess (s : State) (h : Moves z s) : Moves z (endHostAccess s) := by
  unfold endHostAccess
  split
  · rename_i x r hx hm
    split
    · rename_i c
      dsimp only
      have hs : s.port.statusInRam = none := by simp [Port.statusInRam, hm, c.2]
      have k : Moves z { s with port := { s.port with access := none, ram := none } } :=
        h.trans (.port _ s hs.symm rfl)
      refine moves_startKept _ _ ?_
      split
      · exact moves_readNotice _ _ (k.trans (.port _ _ rfl rfl))
      · exact k
    · exact h
  · exact h

/-- The RAM is freed of an access that is not the Status Writer's. -/
theorem moves_freeRam (s : State) (hr : s.port.inRamOf .statusWriter = none) (h : Moves z s) :
    Moves z (freeRam s) := by
  refine h.trans (.port _ s ?_ rfl)
  unfold Port.inRamOf at hr
  unfold Port.statusInRam
  cases hm : s.port.ram with
  | none => simp
  | some r => rw [hm] at hr; by_cases hw : r.who = .statusWriter <;> simp_all

theorem moves_landWord (x : RamAccess) (s : State) (hr : s.port.inRamOf .statusWriter = none) (h : Moves z s) :
    Moves z (landWord x s) := (moves_freeRam s hr h).trans (.land _ _ _)

/-- The access in the RAM has one requester. -/
theorem inRamOf_other {p : Port} {who : Requester} {x : RamAccess} (h : p.inRamOf who = some x)
    (hw : who ≠ .statusWriter) : p.inRamOf .statusWriter = none := by
  unfold Port.inRamOf at h ⊢
  cases hm : p.ram with
  | none => rfl
  | some r =>
    rw [hm] at h
    simp only at h ⊢
    split at h
    · rename_i e; rw [e]; simp [hw]
    · cases h

theorem moves_endStatusWrite (s : State) (h : Moves z s) : Moves z (endStatusWrite s) := by
  unfold endStatusWrite
  split
  · rename_i x e; exact moves_statusWordLanded _ _ _ _ _ (h.trans (.landStatus x s e))
  · exact h

theorem moves_endCorrection (s : State) (h : Moves z s) : Moves z (endCorrection s) := by
  unfold endCorrection
  split
  · rename_i e; exact moves_correctionWritten _ _ _ (moves_landWord _ s (inRamOf_other e (by decide)) h)
  · exact h

theorem moves_endLogWrite (s : State) (h : Moves z s) : Moves z (endLogWrite s) := by
  unfold endLogWrite
  split
  · rename_i x e
    have k := moves_landWord x s (inRamOf_other e (by decide)) h
    split
    · exact k
    · exact moves_logLanded _ k
  · exact h

theorem moves_endRecordRead (s : State) (h : Moves z s) : Moves z (endRecordRead s) := by
  unfold endRecordRead
  split
  · rename_i e
    have k := moves_freeRam s (inRamOf_other e (by decide)) h
    split
    · exact k
    · split
      · rename_i e2; exact moves_answerRecord _ _ (moves_recordWord_eq e2 k)
      · rename_i e2; exact moves_recordWord_eq e2 k
  · exact h

theorem moves_endCurveRead (s : State) (h : Moves z s) : Moves z (endCurveRead s) := by
  unfold endCurveRead
  split
  · rename_i e
    have k := moves_freeRam s (inRamOf_other e (by decide)) h
    split
    · exact k
    · exact moves_curveWord _ _ k
  · exact h

theorem moves_endSampleRead (s : State) (h : Moves z s) : Moves z (endSampleRead s) := by
  unfold endSampleRead
  split
  · rename_i e
    have k := moves_freeRam s (inRamOf_other e (by decide)) h
    split
    · exact k
    · exact moves_putClip _ _ k
  · exact h

theorem moves_assertReset (s : State) (h : Moves z s) : Moves z (assertReset s) := h.trans (.assertPin s)

theorem moves_releaseReset (p : ResetPins) (s : State) (h : Moves z s) : Moves z (releaseReset p s) :=
  h.trans (.releasePin p s)

theorem moves_passTime (d : Nat) (s : State) (h : Moves z s) : Moves z (passTime d s) := h.trans (.pass d s)

theorem moves_clockTick (s : State) (h : Moves z s) : Moves z (clockTick s) := by
  unfold clockTick
  split
  · exact h.trans (.queue _ s)
  · exact moves_finish _ ((moves_passTime 1 s h).trans (.queue _ _))


/-! ## CueEvents -/

theorem moves_tapeRunChange (active : Bool) (s : State) (h : Moves z s) : Moves z (tapeRunChange active s) := by
  unfold tapeRunChange
  repeat' first
    | with_reducible exact h
    | with_reducible apply moves_putDeck


/-! ## HostCommands -/

theorem moves_commandWrite (code : Byte) (store : CmdStore) (s : State) (h : Moves z s) : Moves z (commandWrite code store s) := by
  unfold commandWrite
  repeat' first
    | with_reducible exact h
    | with_reducible apply moves_portFinish
    | with_reducible apply moves_hostAccess


/-! ## HeaderWrites -/

theorem moves_headerWrite (i : Nat) (write : LaneWrite) (s : State) (h : Moves z s) : Moves z (headerWrite i write s) := by
  unfold headerWrite
  repeat' first
    | with_reducible exact h
    | with_reducible apply moves_portFinish
    | with_reducible apply moves_hostAccess

/-! ## Commands and steps -/

/-- What every command answers, and that it gets there by the updates. -/
theorem exec_moves (c : Instr) (s : State) : ∃ t, exec c s = .next t ∧ Moves s t := by
  cases c with
  | resetPinAssert => exact ⟨_, rfl, moves_portFinish _ (moves_assertReset s (.refl s))⟩
  | resetPinRelease pins => exact ⟨_, rfl, moves_finish _ (moves_releaseReset _ s (.refl s))⟩
  | nop store => exact ⟨_, rfl, moves_commandWrite _ _ s (.refl s)⟩
  | advance store => exact ⟨_, rfl, moves_commandWrite _ _ s (.refl s)⟩
  | reverse store => exact ⟨_, rfl, moves_commandWrite _ _ s (.refl s)⟩
  | goto store => exact ⟨_, rfl, moves_commandWrite _ _ s (.refl s)⟩
  | clearJam store => exact ⟨_, rfl, moves_commandWrite _ _ s (.refl s)⟩
  | dissolve store => exact ⟨_, rfl, moves_commandWrite _ _ s (.refl s)⟩
  | fade store => exact ⟨_, rfl, moves_commandWrite _ _ s (.refl s)⟩
  | lamp store => exact ⟨_, rfl, moves_commandWrite _ _ s (.refl s)⟩
  | apply store => exact ⟨_, rfl, moves_commandWrite _ _ s (.refl s)⟩
  | lampMinutes store => exact ⟨_, rfl, moves_commandWrite _ _ s (.refl s)⟩
  | clip store => exact ⟨_, rfl, moves_commandWrite _ _ s (.refl s)⟩
  | clipStop store => exact ⟨_, rfl, moves_commandWrite _ _ s (.refl s)⟩
  | hold store => exact ⟨_, rfl, moves_commandWrite _ _ s (.refl s)⟩
  | release store => exact ⟨_, rfl, moves_commandWrite _ _ s (.refl s)⟩
  | inject store => exact ⟨_, rfl, moves_commandWrite _ _ s (.refl s)⟩
  | focus store => exact ⟨_, rfl, moves_commandWrite _ _ s (.refl s)⟩
  | stop store => exact ⟨_, rfl, moves_commandWrite _ _ s (.refl s)⟩
  | reset store => exact ⟨_, rfl, moves_commandWrite _ _ s (.refl s)⟩
  | standby store => exact ⟨_, rfl, moves_commandWrite _ _ s (.refl s)⟩
  | wake store => exact ⟨_, rfl, moves_commandWrite _ _ s (.refl s)⟩
  | badCommand code store => exact ⟨_, rfl, moves_commandWrite _ _ s (.refl s)⟩
  | irqMask write => exact ⟨_, rfl, moves_headerWrite _ _ s (.refl s)⟩
  | groupMask write => exact ⟨_, rfl, moves_headerWrite _ _ s (.refl s)⟩
  | mode write => exact ⟨_, rfl, moves_headerWrite _ _ s (.refl s)⟩
  | blankRate write => exact ⟨_, rfl, moves_headerWrite _ _ s (.refl s)⟩
  | floor write => exact ⟨_, rfl, moves_headerWrite _ _ s (.refl s)⟩
  | master write => exact ⟨_, rfl, moves_headerWrite _ _ s (.refl s)⟩
  | curveSel write => exact ⟨_, rfl, moves_headerWrite _ _ s (.refl s)⟩
  | volume write => exact ⟨_, rfl, moves_headerWrite _ _ s (.refl s)⟩
  | duck write => exact ⟨_, rfl, moves_headerWrite _ _ s (.refl s)⟩
  | td write => exact ⟨_, rfl, moves_headerWrite _ _ s (.refl s)⟩
  | tt write => exact ⟨_, rfl, moves_headerWrite _ _ s (.refl s)⟩
  | tr write => exact ⟨_, rfl, moves_headerWrite _ _ s (.refl s)⟩
  | gateLimit write => exact ⟨_, rfl, moves_headerWrite _ _ s (.refl s)⟩
  | pc write => exact ⟨_, rfl, moves_headerWrite _ _ s (.refl s)⟩
  | dwellLimit write => exact ⟨_, rfl, moves_headerWrite _ _ s (.refl s)⟩
  | slotBase write => exact ⟨_, rfl, moves_headerWrite _ _ s (.refl s)⟩
  | clipBase write => exact ⟨_, rfl, moves_headerWrite _ _ s (.refl s)⟩
  | curveBase write => exact ⟨_, rfl, moves_headerWrite _ _ s (.refl s)⟩
  | ringBase write => exact ⟨_, rfl, moves_headerWrite _ _ s (.refl s)⟩
  | ringSize write => exact ⟨_, rfl, moves_headerWrite _ _ s (.refl s)⟩
  | ringRd write => exact ⟨_, rfl, moves_headerWrite _ _ s (.refl s)⟩
  | cueOptions write => exact ⟨_, rfl, moves_headerWrite _ _ s (.refl s)⟩
  | remoteOptions write => exact ⟨_, rfl, moves_headerWrite _ _ s (.refl s)⟩
  | lifeLimit write => exact ⟨_, rfl, moves_headerWrite _ _ s (.refl s)⟩
  | headerWriteOther word write => exact ⟨_, rfl, moves_headerWrite _ _ s (.refl s)⟩
  | hostWriteWatched addr kind => exact ⟨_, rfl, moves_portFinish _ (moves_hostAccess _ _ s (.refl s))⟩
  | hostWriteProtected addr write => exact ⟨_, rfl, moves_portFinish _ (moves_hostAccess _ _ s (.refl s))⟩
  | statusRead => exact ⟨_, rfl, moves_portFinish _ (moves_hostAccess _ _ s (.refl s))⟩
  | eventsRead => exact ⟨_, rfl, moves_portFinish _ (moves_hostAccess _ _ s (.refl s))⟩
  | hostAccessEnd => exact ⟨_, rfl, moves_portFinish _ (moves_endHostAccess s (.refl s))⟩
  | statusBlockWriteLanded => exact ⟨_, rfl, moves_live _ s (fun k => moves_endStatusWrite s k) (.refl s)⟩
  | correctionLanded => exact ⟨_, rfl, moves_live _ s (fun k => moves_endCorrection s k) (.refl s)⟩
  | darkEvent => exact ⟨_, rfl, moves_live _ s (fun k => moves_darkArrives s k) (.refl s)⟩
  | armTop active => exact ⟨_, rfl, moves_live _ s (fun k => moves_armTopChange _ s k) (.refl s)⟩
  | armBottom active slideSeen => exact ⟨_, rfl, moves_live _ s (fun k => moves_armBottomChange _ _ s k) (.refl s)⟩
  | liftTimeout => exact ⟨_, rfl, moves_live _ s (fun k => moves_liftExpiry s k) (.refl s)⟩
  | lowerTimeout => exact ⟨_, rfl, moves_live _ s (fun k => moves_lowerExpiry s k) (.refl s)⟩
  | indexPulse home => exact ⟨_, rfl, moves_live _ s (fun k => moves_indexPulseSeen _ s k) (.refl s)⟩
  | rotateTimeout => exact ⟨_, rfl, moves_live _ s (fun k => moves_rotateExpiry s k) (.refl s)⟩
  | dropTimeout => exact ⟨_, rfl, moves_live _ s (fun k => moves_dropExpiry s k) (.refl s)⟩
  | settleEnd => exact ⟨_, rfl, moves_live _ s (fun k => moves_settleExpiry s k) (.refl s)⟩
  | recoverTimeout => exact ⟨_, rfl, moves_live _ s (fun k => moves_recoverExpiry s k) (.refl s)⟩
  | trayRemoved => exact ⟨_, rfl, moves_live _ s (fun k => moves_removeTray s k) (.refl s)⟩
  | traySeated tray96 => exact ⟨_, rfl, moves_live _ s (fun k => moves_seatTray _ s k) (.refl s)⟩
  | recordWordReturned => exact ⟨_, rfl, moves_live _ s (fun k => moves_endRecordRead s k) (.refl s)⟩
  | zeroCross => exact ⟨_, rfl, moves_live _ s (fun k => moves_crossing s k) (.refl s)⟩
  | mainsLoss => exact ⟨_, rfl, moves_live _ s (fun k => moves_loseMains s k) (.refl s)⟩
  | substituteHalfCycle => exact ⟨_, rfl, moves_live _ s (fun k => moves_substitute s k) (.refl s)⟩
  | rampComplete => exact ⟨_, rfl, moves_live _ s (fun k => moves_rampArrives s k) (.refl s)⟩
  | lampFiring => exact ⟨_, rfl, moves_live _ s (fun k => moves_fireLamp s k) (.refl s)⟩
  | lampCurrent => exact ⟨_, rfl, moves_live _ s (fun k => moves_lampCurrentSeen s k) (.refl s)⟩
  | warmingComplete => exact ⟨_, rfl, moves_live _ s (fun k => moves_warmedUp s k) (.refl s)⟩
  | applyTakesEffect => exact ⟨_, rfl, moves_live _ s (fun k => moves_applyWithoutLoad s k) (.refl s)⟩
  | curveWordReturned => exact ⟨_, rfl, moves_live _ s (fun k => moves_endCurveRead s k) (.refl s)⟩
  | curveSwap => exact ⟨_, rfl, moves_live _ s (fun k => moves_curveSwapNow s k) (.refl s)⟩
  | lampMinuteTick => exact ⟨_, rfl, moves_live _ s (fun k => moves_minuteTick s k) (.refl s)⟩
  | sensorReadCycle => exact ⟨_, rfl, moves_live _ s (fun k => moves_startReadCycle s k) (.refl s)⟩
  | sensorReadDone sensor read => exact ⟨_, rfl, moves_live _ s (fun k => moves_sensorDone _ _ s k) (.refl s)⟩
  | fanTach => exact ⟨_, rfl, moves_live _ s (fun k => moves_tachPulse s k) (.refl s)⟩
  | tachWatchExpiry => exact ⟨_, rfl, moves_live _ s (fun k => moves_tachExpiry s k) (.refl s)⟩
  | runOnTimeReached => exact ⟨_, rfl, moves_live _ s (fun k => moves_tryEndRunOn s k) (.refl s)⟩
  | dwellLimitReached => exact ⟨_, rfl, moves_live _ s (fun k => moves_dwellReached s k) (.refl s)⟩
  | carrierAcquired edges => exact ⟨_, rfl, moves_live _ s (fun k => moves_cueEdges _ s k) (.refl s)⟩
  | carrierLost => exact ⟨_, rfl, moves_live _ s (fun k => moves_loseCarrier s k) (.refl s)⟩
  | frameError edges => exact ⟨_, rfl, moves_live _ s (fun k => moves_cueEdges _ s k) (.refl s)⟩
  | cueAdvance frame => exact ⟨_, rfl, moves_live _ s (fun k => moves_tapeFrame _ _ s k) (.refl s)⟩
  | cueReverse frame => exact ⟨_, rfl, moves_live _ s (fun k => moves_tapeFrame _ _ s k) (.refl s)⟩
  | cueGoto frame => exact ⟨_, rfl, moves_live _ s (fun k => moves_tapeFrame _ _ s k) (.refl s)⟩
  | cueDissolve frame => exact ⟨_, rfl, moves_live _ s (fun k => moves_tapeFrame _ _ s k) (.refl s)⟩
  | cueFade frame => exact ⟨_, rfl, moves_live _ s (fun k => moves_tapeFrame _ _ s k) (.refl s)⟩
  | cueLamp frame => exact ⟨_, rfl, moves_live _ s (fun k => moves_tapeFrame _ _ s k) (.refl s)⟩
  | cueClip frame => exact ⟨_, rfl, moves_live _ s (fun k => moves_tapeFrame _ _ s k) (.refl s)⟩
  | cueClipStop frame => exact ⟨_, rfl, moves_live _ s (fun k => moves_tapeFrame _ _ s k) (.refl s)⟩
  | cueHold frame => exact ⟨_, rfl, moves_live _ s (fun k => moves_tapeFrame _ _ s k) (.refl s)⟩
  | cueMark frame => exact ⟨_, rfl, moves_live _ s (fun k => moves_tapeFrame _ _ s k) (.refl s)⟩
  | cueUnknownKind kind frame => exact ⟨_, rfl, moves_live _ s (fun k => moves_tapeFrame _ _ s k) (.refl s)⟩
  | logWordLanded => exact ⟨_, rfl, moves_live _ s (fun k => moves_endLogWrite s k) (.refl s)⟩
  | holdTimerExpiry => exact ⟨_, rfl, moves_live _ s (fun k => moves_holdExpiry s k) (.refl s)⟩
  | tapeRun active => exact ⟨_, rfl, moves_live _ s (fun k => moves_tapeRunChange _ s k) (.refl s)⟩
  | tapeTimeTick => exact ⟨_, rfl, moves_live _ s (fun k => moves_tapeTickNow s k) (.refl s)⟩
  | sampleWordReturned => exact ⟨_, rfl, moves_live _ s (fun k => moves_endSampleRead s k) (.refl s)⟩
  | sampleDue => exact ⟨_, rfl, moves_live _ s (fun k => moves_dueSample s k) (.refl s)⟩
  | gainRampTick => exact ⟨_, rfl, moves_live _ s (fun k => moves_gainTickNow s k) (.refl s)⟩
  | keyFwd press => exact ⟨_, rfl, moves_live _ s (fun k => moves_keyPress _ _ s k) (.refl s)⟩
  | keyRev press => exact ⟨_, rfl, moves_live _ s (fun k => moves_keyPress _ _ s k) (.refl s)⟩
  | keyDissolve frame => exact ⟨_, rfl, moves_live _ s (fun k => moves_remoteFrameIn _ _ s k) (.refl s)⟩
  | keyLamp press => exact ⟨_, rfl, moves_live _ s (fun k => moves_keyPress _ _ s k) (.refl s)⟩
  | keyStop frame => exact ⟨_, rfl, moves_live _ s (fun k => moves_remoteFrameIn _ _ s k) (.refl s)⟩
  | keyHold frame => exact ⟨_, rfl, moves_live _ s (fun k => moves_remoteFrameIn _ _ s k) (.refl s)⟩
  | keyRelease frame => exact ⟨_, rfl, moves_live _ s (fun k => moves_remoteFrameIn _ _ s k) (.refl s)⟩
  | keyFocusIn press => exact ⟨_, rfl, moves_live _ s (fun k => moves_keyPress _ _ s k) (.refl s)⟩
  | keyFocusOut press => exact ⟨_, rfl, moves_live _ s (fun k => moves_keyPress _ _ s k) (.refl s)⟩
  | keyClip number frame => exact ⟨_, rfl, moves_live _ s (fun k => moves_remoteFrameIn _ _ s k) (.refl s)⟩
  | keyOther key frame => exact ⟨_, rfl, moves_live _ s (fun k => moves_remoteFrameIn _ _ s k) (.refl s)⟩
  | panelKeyRelease key inactiveFor => exact ⟨_, rfl, moves_live _ s (fun k => moves_panelUp _ _ s k) (.refl s)⟩
  | remoteRepeatTimeout => exact ⟨_, rfl, moves_live _ s (fun k => moves_repeatExpiry s k) (.refl s)⟩
  | focusTimeLimit => exact ⟨_, rfl, moves_live _ s (fun k => moves_focusExpiry s k) (.refl s)⟩
  | focusStall => exact ⟨_, rfl, moves_live _ s (fun k => moves_stallFocus s k) (.refl s)⟩
  | acquisitionRunStart edges => exact ⟨_, rfl, moves_live _ s (fun k => moves_cueEdges _ s k) (.refl s)⟩
  | alignerLock edges => exact ⟨_, rfl, moves_live _ s (fun k => moves_cueEdges _ s k) (.refl s)⟩
  | alignerReturnToHunt edges => exact ⟨_, rfl, moves_live _ s (fun k => moves_cueEdges _ s k) (.refl s)⟩
  | remoteFrameAbandoned elements => exact ⟨_, rfl, moves_live _ s (fun k => moves_lineElements _ s k) (.refl s)⟩

/-- A step answers a next state, and gets there by the updates. -/
theorem step_moves {s t : State} (h : step s = .next t) : Moves s t := by
  unfold step at h
  split at h
  · rename_i c rest _
    obtain ⟨u, hu, hm⟩ := exec_moves c { s with pending := rest }
    rw [hu] at h
    cases h
    exact (Moves.queue rest s).trans hm
  · cases h
    exact moves_clockTick s (.refl s)

end

end Sys2Proof.Machine
end

