-- ==== Sys2Proof/Laws/PerInstr.lean ====
section
/-! SUPPORT. Statements made once per command: the opcode table gives no row of the VS-420 any bits, so no word spells a
command. -/

namespace Sys2Proof.Laws

/-- No word of the table's numbering spells the command. -/
def NoTableWord.Statement (i : Instr) : Prop := ∀ nbits w, decodeTableWord nbits w ≠ some i

theorem NoTableWord.resetPinAssert : NoTableWord.Statement .resetPinAssert := by
  intro nbits w; simp [decodeTableWord]
theorem NoTableWord.resetPinRelease (pins : ResetPins) : NoTableWord.Statement (.resetPinRelease pins) := by
  intro nbits w; simp [decodeTableWord]
theorem NoTableWord.nop (store : CmdStore) : NoTableWord.Statement (.nop store) := by
  intro nbits w; simp [decodeTableWord]
theorem NoTableWord.advance (store : CmdStore) : NoTableWord.Statement (.advance store) := by
  intro nbits w; simp [decodeTableWord]
theorem NoTableWord.reverse (store : CmdStore) : NoTableWord.Statement (.reverse store) := by
  intro nbits w; simp [decodeTableWord]
theorem NoTableWord.goto (store : CmdStore) : NoTableWord.Statement (.goto store) := by
  intro nbits w; simp [decodeTableWord]
theorem NoTableWord.clearJam (store : CmdStore) : NoTableWord.Statement (.clearJam store) := by
  intro nbits w; simp [decodeTableWord]
theorem NoTableWord.dissolve (store : CmdStore) : NoTableWord.Statement (.dissolve store) := by
  intro nbits w; simp [decodeTableWord]
theorem NoTableWord.fade (store : CmdStore) : NoTableWord.Statement (.fade store) := by
  intro nbits w; simp [decodeTableWord]
theorem NoTableWord.lamp (store : CmdStore) : NoTableWord.Statement (.lamp store) := by
  intro nbits w; simp [decodeTableWord]
theorem NoTableWord.apply (store : CmdStore) : NoTableWord.Statement (.apply store) := by
  intro nbits w; simp [decodeTableWord]
theorem NoTableWord.lampMinutes (store : CmdStore) : NoTableWord.Statement (.lampMinutes store) := by
  intro nbits w; simp [decodeTableWord]
theorem NoTableWord.clip (store : CmdStore) : NoTableWord.Statement (.clip store) := by
  intro nbits w; simp [decodeTableWord]
theorem NoTableWord.clipStop (store : CmdStore) : NoTableWord.Statement (.clipStop store) := by
  intro nbits w; simp [decodeTableWord]
theorem NoTableWord.hold (store : CmdStore) : NoTableWord.Statement (.hold store) := by
  intro nbits w; simp [decodeTableWord]
theorem NoTableWord.release (store : CmdStore) : NoTableWord.Statement (.release store) := by
  intro nbits w; simp [decodeTableWord]
theorem NoTableWord.inject (store : CmdStore) : NoTableWord.Statement (.inject store) := by
  intro nbits w; simp [decodeTableWord]
theorem NoTableWord.focus (store : CmdStore) : NoTableWord.Statement (.focus store) := by
  intro nbits w; simp [decodeTableWord]
theorem NoTableWord.stop (store : CmdStore) : NoTableWord.Statement (.stop store) := by
  intro nbits w; simp [decodeTableWord]
theorem NoTableWord.reset (store : CmdStore) : NoTableWord.Statement (.reset store) := by
  intro nbits w; simp [decodeTableWord]
theorem NoTableWord.standby (store : CmdStore) : NoTableWord.Statement (.standby store) := by
  intro nbits w; simp [decodeTableWord]
theorem NoTableWord.wake (store : CmdStore) : NoTableWord.Statement (.wake store) := by
  intro nbits w; simp [decodeTableWord]
theorem NoTableWord.badCommand (code : Byte) (store : CmdStore) : NoTableWord.Statement (.badCommand code store) := by
  intro nbits w; simp [decodeTableWord]
theorem NoTableWord.irqMask (write : LaneWrite) : NoTableWord.Statement (.irqMask write) := by
  intro nbits w; simp [decodeTableWord]
theorem NoTableWord.groupMask (write : LaneWrite) : NoTableWord.Statement (.groupMask write) := by
  intro nbits w; simp [decodeTableWord]
theorem NoTableWord.mode (write : LaneWrite) : NoTableWord.Statement (.mode write) := by
  intro nbits w; simp [decodeTableWord]
theorem NoTableWord.blankRate (write : LaneWrite) : NoTableWord.Statement (.blankRate write) := by
  intro nbits w; simp [decodeTableWord]
theorem NoTableWord.floor (write : LaneWrite) : NoTableWord.Statement (.floor write) := by
  intro nbits w; simp [decodeTableWord]
theorem NoTableWord.master (write : LaneWrite) : NoTableWord.Statement (.master write) := by
  intro nbits w; simp [decodeTableWord]
theorem NoTableWord.curveSel (write : LaneWrite) : NoTableWord.Statement (.curveSel write) := by
  intro nbits w; simp [decodeTableWord]
theorem NoTableWord.volume (write : LaneWrite) : NoTableWord.Statement (.volume write) := by
  intro nbits w; simp [decodeTableWord]
theorem NoTableWord.duck (write : LaneWrite) : NoTableWord.Statement (.duck write) := by
  intro nbits w; simp [decodeTableWord]
theorem NoTableWord.td (write : LaneWrite) : NoTableWord.Statement (.td write) := by
  intro nbits w; simp [decodeTableWord]
theorem NoTableWord.tt (write : LaneWrite) : NoTableWord.Statement (.tt write) := by
  intro nbits w; simp [decodeTableWord]
theorem NoTableWord.tr (write : LaneWrite) : NoTableWord.Statement (.tr write) := by
  intro nbits w; simp [decodeTableWord]
theorem NoTableWord.gateLimit (write : LaneWrite) : NoTableWord.Statement (.gateLimit write) := by
  intro nbits w; simp [decodeTableWord]
theorem NoTableWord.pc (write : LaneWrite) : NoTableWord.Statement (.pc write) := by
  intro nbits w; simp [decodeTableWord]
theorem NoTableWord.dwellLimit (write : LaneWrite) : NoTableWord.Statement (.dwellLimit write) := by
  intro nbits w; simp [decodeTableWord]
theorem NoTableWord.slotBase (write : LaneWrite) : NoTableWord.Statement (.slotBase write) := by
  intro nbits w; simp [decodeTableWord]
theorem NoTableWord.clipBase (write : LaneWrite) : NoTableWord.Statement (.clipBase write) := by
  intro nbits w; simp [decodeTableWord]
theorem NoTableWord.curveBase (write : LaneWrite) : NoTableWord.Statement (.curveBase write) := by
  intro nbits w; simp [decodeTableWord]
theorem NoTableWord.ringBase (write : LaneWrite) : NoTableWord.Statement (.ringBase write) := by
  intro nbits w; simp [decodeTableWord]
theorem NoTableWord.ringSize (write : LaneWrite) : NoTableWord.Statement (.ringSize write) := by
  intro nbits w; simp [decodeTableWord]
theorem NoTableWord.ringRd (write : LaneWrite) : NoTableWord.Statement (.ringRd write) := by
  intro nbits w; simp [decodeTableWord]
theorem NoTableWord.cueOptions (write : LaneWrite) : NoTableWord.Statement (.cueOptions write) := by
  intro nbits w; simp [decodeTableWord]
theorem NoTableWord.remoteOptions (write : LaneWrite) : NoTableWord.Statement (.remoteOptions write) := by
  intro nbits w; simp [decodeTableWord]
theorem NoTableWord.lifeLimit (write : LaneWrite) : NoTableWord.Statement (.lifeLimit write) := by
  intro nbits w; simp [decodeTableWord]
theorem NoTableWord.headerWriteOther (word : BitVec 6) (write : LaneWrite) : NoTableWord.Statement (.headerWriteOther word write) := by
  intro nbits w; simp [decodeTableWord]
theorem NoTableWord.hostWriteWatched (addr : WordAddr) (kind : HostKind) : NoTableWord.Statement (.hostWriteWatched addr kind) := by
  intro nbits w; simp [decodeTableWord]
theorem NoTableWord.hostWriteProtected (addr : WordAddr) (write : LaneWrite) : NoTableWord.Statement (.hostWriteProtected addr write) := by
  intro nbits w; simp [decodeTableWord]
theorem NoTableWord.statusRead : NoTableWord.Statement .statusRead := by
  intro nbits w; simp [decodeTableWord]
theorem NoTableWord.eventsRead : NoTableWord.Statement .eventsRead := by
  intro nbits w; simp [decodeTableWord]
theorem NoTableWord.hostAccessEnd : NoTableWord.Statement .hostAccessEnd := by
  intro nbits w; simp [decodeTableWord]
theorem NoTableWord.statusBlockWriteLanded : NoTableWord.Statement .statusBlockWriteLanded := by
  intro nbits w; simp [decodeTableWord]
theorem NoTableWord.correctionLanded : NoTableWord.Statement .correctionLanded := by
  intro nbits w; simp [decodeTableWord]
theorem NoTableWord.darkEvent : NoTableWord.Statement .darkEvent := by
  intro nbits w; simp [decodeTableWord]
theorem NoTableWord.armTop (active : Bool) : NoTableWord.Statement (.armTop active) := by
  intro nbits w; simp [decodeTableWord]
theorem NoTableWord.armBottom (active : Bool) (slideSeen : Bool) : NoTableWord.Statement (.armBottom active slideSeen) := by
  intro nbits w; simp [decodeTableWord]
theorem NoTableWord.liftTimeout : NoTableWord.Statement .liftTimeout := by
  intro nbits w; simp [decodeTableWord]
theorem NoTableWord.lowerTimeout : NoTableWord.Statement .lowerTimeout := by
  intro nbits w; simp [decodeTableWord]
theorem NoTableWord.indexPulse (home : Bool) : NoTableWord.Statement (.indexPulse home) := by
  intro nbits w; simp [decodeTableWord]
theorem NoTableWord.rotateTimeout : NoTableWord.Statement .rotateTimeout := by
  intro nbits w; simp [decodeTableWord]
theorem NoTableWord.dropTimeout : NoTableWord.Statement .dropTimeout := by
  intro nbits w; simp [decodeTableWord]
theorem NoTableWord.settleEnd : NoTableWord.Statement .settleEnd := by
  intro nbits w; simp [decodeTableWord]
theorem NoTableWord.recoverTimeout : NoTableWord.Statement .recoverTimeout := by
  intro nbits w; simp [decodeTableWord]
theorem NoTableWord.trayRemoved : NoTableWord.Statement .trayRemoved := by
  intro nbits w; simp [decodeTableWord]
theorem NoTableWord.traySeated (tray96 : Bool) : NoTableWord.Statement (.traySeated tray96) := by
  intro nbits w; simp [decodeTableWord]
theorem NoTableWord.recordWordReturned : NoTableWord.Statement .recordWordReturned := by
  intro nbits w; simp [decodeTableWord]
theorem NoTableWord.zeroCross : NoTableWord.Statement .zeroCross := by
  intro nbits w; simp [decodeTableWord]
theorem NoTableWord.mainsLoss : NoTableWord.Statement .mainsLoss := by
  intro nbits w; simp [decodeTableWord]
theorem NoTableWord.substituteHalfCycle : NoTableWord.Statement .substituteHalfCycle := by
  intro nbits w; simp [decodeTableWord]
theorem NoTableWord.rampComplete : NoTableWord.Statement .rampComplete := by
  intro nbits w; simp [decodeTableWord]
theorem NoTableWord.lampFiring : NoTableWord.Statement .lampFiring := by
  intro nbits w; simp [decodeTableWord]
theorem NoTableWord.lampCurrent : NoTableWord.Statement .lampCurrent := by
  intro nbits w; simp [decodeTableWord]
theorem NoTableWord.warmingComplete : NoTableWord.Statement .warmingComplete := by
  intro nbits w; simp [decodeTableWord]
theorem NoTableWord.applyTakesEffect : NoTableWord.Statement .applyTakesEffect := by
  intro nbits w; simp [decodeTableWord]
theorem NoTableWord.curveWordReturned : NoTableWord.Statement .curveWordReturned := by
  intro nbits w; simp [decodeTableWord]
theorem NoTableWord.curveSwap : NoTableWord.Statement .curveSwap := by
  intro nbits w; simp [decodeTableWord]
theorem NoTableWord.lampMinuteTick : NoTableWord.Statement .lampMinuteTick := by
  intro nbits w; simp [decodeTableWord]
theorem NoTableWord.sensorReadCycle : NoTableWord.Statement .sensorReadCycle := by
  intro nbits w; simp [decodeTableWord]
theorem NoTableWord.sensorReadDone (sensor : Sensor) (read : SensorRead) : NoTableWord.Statement (.sensorReadDone sensor read) := by
  intro nbits w; simp [decodeTableWord]
theorem NoTableWord.fanTach : NoTableWord.Statement .fanTach := by
  intro nbits w; simp [decodeTableWord]
theorem NoTableWord.tachWatchExpiry : NoTableWord.Statement .tachWatchExpiry := by
  intro nbits w; simp [decodeTableWord]
theorem NoTableWord.runOnTimeReached : NoTableWord.Statement .runOnTimeReached := by
  intro nbits w; simp [decodeTableWord]
theorem NoTableWord.dwellLimitReached : NoTableWord.Statement .dwellLimitReached := by
  intro nbits w; simp [decodeTableWord]
theorem NoTableWord.carrierAcquired (edges : List CueEdge) : NoTableWord.Statement (.carrierAcquired edges) := by
  intro nbits w; simp [decodeTableWord]
theorem NoTableWord.carrierLost : NoTableWord.Statement .carrierLost := by
  intro nbits w; simp [decodeTableWord]
theorem NoTableWord.frameError (edges : List CueEdge) : NoTableWord.Statement (.frameError edges) := by
  intro nbits w; simp [decodeTableWord]
theorem NoTableWord.cueAdvance (frame : CueFrame) : NoTableWord.Statement (.cueAdvance frame) := by
  intro nbits w; simp [decodeTableWord]
theorem NoTableWord.cueReverse (frame : CueFrame) : NoTableWord.Statement (.cueReverse frame) := by
  intro nbits w; simp [decodeTableWord]
theorem NoTableWord.cueGoto (frame : CueFrame) : NoTableWord.Statement (.cueGoto frame) := by
  intro nbits w; simp [decodeTableWord]
theorem NoTableWord.cueDissolve (frame : CueFrame) : NoTableWord.Statement (.cueDissolve frame) := by
  intro nbits w; simp [decodeTableWord]
theorem NoTableWord.cueFade (frame : CueFrame) : NoTableWord.Statement (.cueFade frame) := by
  intro nbits w; simp [decodeTableWord]
theorem NoTableWord.cueLamp (frame : CueFrame) : NoTableWord.Statement (.cueLamp frame) := by
  intro nbits w; simp [decodeTableWord]
theorem NoTableWord.cueClip (frame : CueFrame) : NoTableWord.Statement (.cueClip frame) := by
  intro nbits w; simp [decodeTableWord]
theorem NoTableWord.cueClipStop (frame : CueFrame) : NoTableWord.Statement (.cueClipStop frame) := by
  intro nbits w; simp [decodeTableWord]
theorem NoTableWord.cueHold (frame : CueFrame) : NoTableWord.Statement (.cueHold frame) := by
  intro nbits w; simp [decodeTableWord]
theorem NoTableWord.cueMark (frame : CueFrame) : NoTableWord.Statement (.cueMark frame) := by
  intro nbits w; simp [decodeTableWord]
theorem NoTableWord.cueUnknownKind (kind : Nibble) (frame : CueFrame) : NoTableWord.Statement (.cueUnknownKind kind frame) := by
  intro nbits w; simp [decodeTableWord]
theorem NoTableWord.logWordLanded : NoTableWord.Statement .logWordLanded := by
  intro nbits w; simp [decodeTableWord]
theorem NoTableWord.holdTimerExpiry : NoTableWord.Statement .holdTimerExpiry := by
  intro nbits w; simp [decodeTableWord]
theorem NoTableWord.tapeRun (active : Bool) : NoTableWord.Statement (.tapeRun active) := by
  intro nbits w; simp [decodeTableWord]
theorem NoTableWord.tapeTimeTick : NoTableWord.Statement .tapeTimeTick := by
  intro nbits w; simp [decodeTableWord]
theorem NoTableWord.sampleWordReturned : NoTableWord.Statement .sampleWordReturned := by
  intro nbits w; simp [decodeTableWord]
theorem NoTableWord.sampleDue : NoTableWord.Statement .sampleDue := by
  intro nbits w; simp [decodeTableWord]
theorem NoTableWord.gainRampTick : NoTableWord.Statement .gainRampTick := by
  intro nbits w; simp [decodeTableWord]
theorem NoTableWord.keyFwd (press : Press) : NoTableWord.Statement (.keyFwd press) := by
  intro nbits w; simp [decodeTableWord]
theorem NoTableWord.keyRev (press : Press) : NoTableWord.Statement (.keyRev press) := by
  intro nbits w; simp [decodeTableWord]
theorem NoTableWord.keyDissolve (frame : RemoteFrame) : NoTableWord.Statement (.keyDissolve frame) := by
  intro nbits w; simp [decodeTableWord]
theorem NoTableWord.keyLamp (press : Press) : NoTableWord.Statement (.keyLamp press) := by
  intro nbits w; simp [decodeTableWord]
theorem NoTableWord.keyStop (frame : RemoteFrame) : NoTableWord.Statement (.keyStop frame) := by
  intro nbits w; simp [decodeTableWord]
theorem NoTableWord.keyHold (frame : RemoteFrame) : NoTableWord.Statement (.keyHold frame) := by
  intro nbits w; simp [decodeTableWord]
theorem NoTableWord.keyRelease (frame : RemoteFrame) : NoTableWord.Statement (.keyRelease frame) := by
  intro nbits w; simp [decodeTableWord]
theorem NoTableWord.keyFocusIn (press : Press) : NoTableWord.Statement (.keyFocusIn press) := by
  intro nbits w; simp [decodeTableWord]
theorem NoTableWord.keyFocusOut (press : Press) : NoTableWord.Statement (.keyFocusOut press) := by
  intro nbits w; simp [decodeTableWord]
theorem NoTableWord.keyClip (number : BitVec 2) (frame : RemoteFrame) : NoTableWord.Statement (.keyClip number frame) := by
  intro nbits w; simp [decodeTableWord]
theorem NoTableWord.keyOther (key : BitVec 6) (frame : RemoteFrame) : NoTableWord.Statement (.keyOther key frame) := by
  intro nbits w; simp [decodeTableWord]
theorem NoTableWord.panelKeyRelease (key : PanelKey) (inactiveFor : Nat) : NoTableWord.Statement (.panelKeyRelease key inactiveFor) := by
  intro nbits w; simp [decodeTableWord]
theorem NoTableWord.remoteRepeatTimeout : NoTableWord.Statement .remoteRepeatTimeout := by
  intro nbits w; simp [decodeTableWord]
theorem NoTableWord.focusTimeLimit : NoTableWord.Statement .focusTimeLimit := by
  intro nbits w; simp [decodeTableWord]
theorem NoTableWord.focusStall : NoTableWord.Statement .focusStall := by
  intro nbits w; simp [decodeTableWord]
theorem NoTableWord.acquisitionRunStart (edges : List CueEdge) : NoTableWord.Statement (.acquisitionRunStart edges) := by
  intro nbits w; simp [decodeTableWord]
theorem NoTableWord.alignerLock (edges : List CueEdge) : NoTableWord.Statement (.alignerLock edges) := by
  intro nbits w; simp [decodeTableWord]
theorem NoTableWord.alignerReturnToHunt (edges : List CueEdge) : NoTableWord.Statement (.alignerReturnToHunt edges) := by
  intro nbits w; simp [decodeTableWord]
theorem NoTableWord.remoteFrameAbandoned (elements : List LineElement) : NoTableWord.Statement (.remoteFrameAbandoned elements) := by
  intro nbits w; simp [decodeTableWord]

end Sys2Proof.Laws
end

