-- ==== Sys2Proof/Laws/Shadow.lean ====
section
/-! SUPPORT. What a lookup, a release of a pin and the serving of the lookups that wait can do to the Watch Table. -/

namespace Sys2Proof.Machine

/-- **What a lookup can do** (R54, R56 to R58): with no table it is answered "absent"; a hit is answered with the copy,
and its entry is the most recently used; a fetch under way is joined; a miss takes an entry, or waits for one. -/
theorem lookup_cases {kind : RecKind} {key : Nat} {pin : Bool} {s t : State} {r : LookupAnswer}
    (h : lookup kind key pin s = (t, r)) :
    (recordBase kind s = 0 ∧ t = s ∧ r = .absent) ∨
    (recordBase kind s ≠ 0 ∧ ∃ i d stale u, s.shadow.find kind key = some i ∧ s.shadow.entry i = .valid d stale u ∧
      t = putShadow { s.shadow.setEntry i (.valid { d with pins := d.pins + flagNat pin } stale s.shadow.useStamp) with
        useStamp := s.shadow.useStamp + 1 } s ∧ r = .copy d.copy) ∨
    (recordBase kind s ≠ 0 ∧ ∃ i d, s.shadow.find kind key = some i ∧ s.shadow.entry i = .filling d ∧
      t = putShadow (s.shadow.setEntry i (.filling { d with pins := d.pins + flagNat pin })) s ∧ r = .waiting) ∨
    (recordBase kind s ≠ 0 ∧ ∃ i, s.shadow.find kind key = some i ∧ s.shadow.entry i = .free ∧ t = s ∧ r = .waiting) ∨
    (recordBase kind s ≠ 0 ∧ ∃ i, s.shadow.find kind key = none ∧ s.shadow.victim = some i ∧
      t = putShadow { s.shadow.setEntry i (.filling {
        kind := kind, key := key, addr := recordAddr kind key (recordBase kind s), copy := [], pins := flagNat pin }) with
        fetchList := s.shadow.fetchList ++ [i] } s ∧ r = .waiting) ∨
    (recordBase kind s ≠ 0 ∧ s.shadow.find kind key = none ∧ s.shadow.victim = none ∧ t = s ∧ r = .waiting) := by
  unfold lookup at h
  split at h
  · rename_i hb; cases h; exact .inl ⟨hb, rfl, rfl⟩
  · rename_i hb
    refine .inr ?_
    dsimp only at h
    split at h
    · rename_i i hf
      split at h <;> rename_i he <;> cases h
      · exact .inl ⟨hb, i, _, _, _, hf, he, rfl, rfl⟩
      · exact .inr (.inl ⟨hb, i, _, hf, he, rfl, rfl⟩)
      · exact .inr (.inr (.inl ⟨hb, i, hf, he, rfl, rfl⟩))
    · rename_i hf
      split at h <;> rename_i hv <;> cases h
      · exact .inr (.inr (.inr (.inl ⟨hb, _, hf, hv, rfl, rfl⟩)))
      · exact .inr (.inr (.inr (.inr ⟨hb, hf, hv, rfl, rfl⟩)))

/-- A miss that finds no entry to take changes nothing (R58). -/
theorem lookup_of_full {kind : RecKind} {key : Nat} (pin : Bool) {s : State} (hf : s.shadow.find kind key = none)
    (hv : s.shadow.victim = none) : (lookup kind key pin s).1 = s := by
  unfold lookup
  simp only [hf, hv]
  split <;> rfl

/-- With no lookup waiting for an entry, none is served. -/
theorem serveWaiting_of_none {s : State} (h : waitingLookups s = []) : serveWaiting s = s := by
  simp [serveWaiting, h]

/-- With no entry to take, none is served (R58). -/
theorem serveWaiting_of_full {s : State} (h : s.shadow.victim = none) : serveWaiting s = s := by
  have hw : ∀ l ∈ waitingLookups s, s.shadow.find l.kind l.key = none := by
    intro l hl; simpa [waitingLookups] using (List.mem_filter.mp hl).2
  unfold serveWaiting
  generalize waitingLookups s = ls at hw
  induction ls with
  | nil => rfl
  | cons l ls ih =>
    rw [List.foldl_cons, lookup_of_full l.pin (hw l (by simp)) h]
    exact ih (fun k hk => hw k (by simp [hk]))

/-- A release that leaves a pin, or whose record is still fetched, only lowers the count (R62). -/
theorem releasePin_of_kept {kind : RecKind} {key : Nat} {s : State} (h : s.shadow.lastPin kind key = false) :
    releasePin kind key s = lowerPin kind key s := by simp [releasePin, h]

/-- A release with no lookup waiting for an entry only lowers the count (R62). -/
theorem releasePin_of_none {kind : RecKind} {key : Nat} {s : State} (h : waitingLookups (lowerPin kind key s) = []) :
    releasePin kind key s = lowerPin kind key s := by
  unfold releasePin; split
  · exact serveWaiting_of_none h
  · rfl

end Sys2Proof.Machine
end

