-- ==== Sys2Proof/Tests/Slice0.lean ====
section
/-! SUPPORT. The smoke test of the well-formedness checks, one-step tests whose expected results are the manual's, and,
for each statement with hypotheses, states and operands that meet them: one conjunct a clause, in the clauses' order,
at the edge of a range where the clause has one. -/

namespace Sys2Proof.Tests

open Sys2Proof.Machine

set_option maxRecDepth 20000

/-! ## States for the tests -/

/-- The state after reset with the Status Block written and nothing waiting. -/
def calm : State :=
  { State.reset with sw := { State.reset.sw with dirty := [], unwritten := [], rdy := true } }

def onHdr (f : Header → Header) : State := { calm with hdr := f calm.hdr }
def onSet (f : Settings → Settings) : State := onHdr fun h => { h with settings := f h.settings }
def onTray (f : Tray → Tray) : State := { calm with tray := f calm.tray }
def onLamp (f : Lamp → Lamp) : State := { calm with lamp := f calm.lamp }
def onThermal (f : Thermal → Thermal) : State := { calm with thermal := f calm.thermal }
def onCue (f : CueTrack → CueTrack) : State := { calm with cue := f calm.cue }
def onClip (f : ClipPlayer → ClipPlayer) : State := { calm with clip := f calm.clip }
def onRemote (f : Remote → Remote) : State := { calm with remote := f calm.remote }

/-- At a later time. -/
def State.at (t : Nat) (s : State) : State := { s with now := t }

/-- An access in the RAM. -/
def ramOf (who : Requester) (addr : Nat) (data : Word) : RamAccess :=
  { who := who, addr := addr, data := data, void := false, afterHand := false, preReset := false }

def inRam (a : RamAccess) (s : State) : State := { s with port := { s.port with ram := some a } }

/-- A command record. -/
def record (st : RecordState) (code : Byte) (p1 p2 p3 : Word) : CommandRecord :=
  { CommandRecord.idle with state := st, code := code, tag := 9, p1 := p1, p2 := p2, p3 := p3 }

def withRecord (r : CommandRecord) (s : State) : State := { s with hdr := { s.hdr with record := r } }

/-- The STATUS write that shows CMDW set. -/
def cmdw : RamAccess := ramOf .statusWriter 128 4

/-- The record's command is taken as the STATUS write lands. -/
def taking (code : Byte) (p1 p2 p3 : Word) (s : State) : State :=
  inRam cmdw (withRecord (record .accepted code p1 p2 p3) s)

/-- An action. -/
def action (req : ActionRequest) (src : Source) (ph : Phase) : Action :=
  { request := req, source := src, lit := false, phase := ph, restore := none, window := false, issued := false
    stopped := false, silent := false, completion := none }

def doing (x : Action) (s : State) : State := { s with cx := { s.cx with action := some x } }

/-- A request in hand, planned. -/
def asked (k : TrayKind) (p : Plan) : TrayRequest :=
  { kind := k, dark := true, plan := some p, examined := 0, stopRequested := false, skipping := false
    found := [], toFind := 0, homed := false }

/-- A lamp that is ON, with mains present and the last crossing at 0. -/
def burning (f : Lamp → Lamp) : State := onLamp fun l => f { l with mainsPresent := true, state := .on }

/-- A lamp in WARMING that has counted n of 200 half-cycles. -/
def warming (n : Nat) : State := onLamp fun l => { l with state := .warming, warmCount := n, warmTarget := 200 }

/-- A LAMP on of the host that waits for the lamp. -/
def warmingUp : Action := action (.lamp true) (.command 9) .warming

/-- An active ramp of the action, to a level. -/
def rampingTo (level : Nat) (s : State) : State :=
  let r : Ramp := { target := level * 65536, increment := 9, up := true, byAction := true, offMark := false }
  { s with lamp := { s.lamp with ramp := some r } }

/-- A READY tray at slot 0. -/
def ready (s : State) : State :=
  { s with tray := { s.tray with state := .ready, known := true, gate := .empty, bottomOn := true } }

/-- OPEN mode. -/
def opened (s : State) : State :=
  { s with hdr := { s.hdr with settings := { s.hdr.settings with changeMode := .opened } } }

/-- A slot table at 0x1000. -/
def slotTable (skip : Bool) (s : State) : State :=
  { s with hdr := { s.hdr with settings := { s.hdr.settings with slotBase := 0x1000, skip := skip } } }

/-- A clip table at 0x2000. -/
def clipTable (s : State) : State :=
  { s with hdr := { s.hdr with settings := { s.hdr.settings with clipBase := 0x2000 } } }

/-- A ring at the top of the RAM. -/
def ring (s : State) : State :=
  { s with hdr := { s.hdr with settings := { s.hdr.settings with ringBase := 0xFFE00 } } }

/-- A slide shown at slot 0, its record pinned. -/
def showing : State :=
  slotTable false (onTray fun t => { t with
    state := .ready, known := true, gate := .loaded, bottomOn := true, shownPin := some 0 })

/-- A slot record, VALID in entry i with this pin count. -/
def heldSlot (slot i pins : Nat) (stale : Bool) (s : State) : State :=
  { s with shadow := s.shadow.setEntry i (.valid {
    kind := .slot, key := slot, addr := 0x1000 + 4 * slot, copy := [0, 0], pins := pins } stale 0) }

/-- A slide is shown, whose record 9 stands in entry 5 with one pin. -/
def slideShown (stale : Bool) (s : State) : State :=
  let u := heldSlot 9 5 1 stale s
  { u with tray := { s.tray with shownPin := some 9 } }

/-- LIFT releases the pin of that slide in v. -/
abbrev letsGo (v : State) : Prop :=
  v.tray.shownPin = some 9 ∧ v.shadow.find .slot 9 = some 5 ∧ noLookupWaits (v.unshown 5)

/-- The request of a GOTO, planned forward. -/
def goingTo (target : Nat) : TrayRequest := asked (.goto target) { dir := .forward, dest := target, toGo := target }

/-- An action of the tape that waits for the transport. -/
def mover : Action := { action (.goto 1) (.tape 7) .moving with issued := true }

/-- An executor with a FADE of the tape under way. -/
def fading : Action := action (.fade 600 15) (.tape 12) .fading

/-- A LAMP on of the tape that waits for the lamp. -/
def tapeWarming : Action := action (.lamp true) (.tape 12) .warming

/-- A focus run. -/
def run (o : FocusOwner) (limit : Nat) : FocusRun := FocusRun.fresh true o limit 0

def focused (r : FocusRun) (s : State) : State := { s with remote := { s.remote with focus := some r } }

/-- A clip whose descriptor is latched. -/
def aClip : PlayingClip :=
  { clip := 5, source := .remote, desc := { start := 0x4000, length := 4000, rate := 1, gain := 128, loop := false } }

/-- The player in a state, playing aClip. -/
def playing (st : PlayerState) : State := onClip fun c => { c with state := st, playing := some aClip }

/-- A start request of the tape for clip 5 that waits for its descriptor. -/
def starting (queueMode : Bool) : StartRecord :=
  { request := { clip := 5, queueMode := queueMode, source := .tape 12 }, copy := none, pinned := true }

/-- The dwell timer at t, with the limit at 120. -/
def dwelling (t : Nat) : State := onThermal fun h => { h with dwellUs := t }

/-- The dwell timer counting, at t. -/
def counting (t : Nat) : State :=
  { dwelling t with
    tray := { calm.tray with gate := .loaded }
    lamp := { calm.lamp with mainsPresent := true, state := .on, lout := 641 } }

/-- A carrier state, with decoding enabled. -/
def tape (car : Carrier) (f : CueTrack → CueTrack) : State :=
  { onSet fun st => { st with decoding := true } with cue := f { calm.cue with carrier := car } }

/-- Run-on active since 0, in a power state. -/
def runningOn (p : PowerState) : State := onThermal fun h => { h with runOn := some 0, duty := 55, th := 44, power := p }

/-- The cue queue with n entries. -/
def queued (n : Nat) (s : State) : State :=
  { s with cx := { s.cx with
    queue := List.replicate n { kind := .lamp, param := 0, injected := false, tapeTime := 0 } } }

def pins : ResetPins :=
  { unit := 3, trayPresent := true, tray96 := true, armTop := false, armBottom := true, tapeRun := false
    keyFwd := true, keyRev := false, keyFocusIn := false, keyFocusOut := false, keyLamp := false }

/-! ## The smoke test: each check refuses a term that fails it -/

/-- The intervals of runs of so many chips, at the nominal 1,667 µs. -/
def runs (l : List Nat) : List Nat := l.map (1667 * ·)

/-- A MARK frame of unit 0 with parameter 0: its check is 2 × 10 = 20 = 0x14 (R130). Its 54 chips are 000111 001011
100110 001011 001011 001011 001101 010110 111000 (11.5), and its first run begins with the last chip of FILL. -/
def markFrame : CueFrame :=
  { u := 0, p2 := 0, p1 := 0, p0 := 0, c1 := 1, c0 := 4
    intervals := runs
      [4, 3, 2, 1, 1, 3, 2, 2, 3, 1, 1, 2, 2, 1, 1, 2, 2, 1, 1, 2, 2, 2, 1, 1, 1, 1, 1, 2, 1, 3, 3] }

/-- The runs of a frame of kind 11, groups 101001 and 011010 for K and C0, and of kind 0. -/
def runs11 : List Nat :=
  [4, 3, 2, 1, 1, 3, 1, 1, 2, 1, 2, 1, 1, 2, 2, 1, 1, 2, 2, 1, 1, 2, 2, 2, 1, 1, 1, 2, 1, 1, 1, 3, 3]
def runs0 : List Nat :=
  [4, 3, 2, 1, 1, 2, 2, 1, 1, 2, 2, 1, 1, 2, 2, 1, 1, 2, 2, 1, 1, 2, 2, 1, 1, 2, 2, 1, 1, 5, 3]

def remoteFrame : RemoteFrame := { sys := 5, toggle := 1, check := 0 }

theorem test_wf_reset_pins :
    (Instr.resetPinRelease pins).wf = true
      ∧ (Instr.resetPinRelease { pins with armTop := true, armBottom := true }).wf = false := by decide

theorem test_wf_bad_command :
    (Instr.badCommand 0x01 .lowLane).wf = true ∧ (Instr.badCommand 0x63 .lowLane).wf = false := by decide

theorem test_wf_header_write_other :
    (Instr.headerWriteOther 1 (.word 0)).wf = true ∧ (Instr.headerWriteOther 36 (.word 0)).wf = false
      ∧ (Instr.headerWriteOther 0 (.high 0)).wf = true ∧ (Instr.headerWriteOther 0 (.low 0)).wf = false
      ∧ (Instr.headerWriteOther 0 (.word 0)).wf = false := by decide

theorem test_wf_host_writes :
    (Instr.hostWriteWatched 128 (.write (.low 0))).wf = true
      ∧ (Instr.hostWriteWatched 127 (.write (.low 0))).wf = false
      ∧ (Instr.hostWriteWatched 65 .read).wf = true ∧ (Instr.hostWriteWatched 64 .read).wf = false
      ∧ (Instr.hostWriteWatched 66 .read).wf = false
      ∧ (Instr.hostWriteProtected 64 (.low 0)).wf = true
      ∧ (Instr.hostWriteProtected 63 (.low 0)).wf = false := by decide

theorem test_wf_edges :
    (Instr.carrierAcquired []).wf = false ∧ (Instr.frameError [{ tone := true, interval := 0 }]).wf = false
      ∧ (Instr.acquisitionRunStart []).wf = false ∧ (Instr.alignerLock []).wf = false
      ∧ (Instr.alignerReturnToHunt []).wf = false
      ∧ (Instr.alignerLock [{ tone := true, interval := 1667 }]).wf = true := by decide

theorem test_wf_cue_checks :
    (Instr.cueMark markFrame).wf = true
      ∧ (Instr.cueAdvance markFrame).wf = false ∧ (Instr.cueReverse markFrame).wf = false
      ∧ (Instr.cueGoto markFrame).wf = false ∧ (Instr.cueDissolve markFrame).wf = false
      ∧ (Instr.cueFade markFrame).wf = false ∧ (Instr.cueLamp markFrame).wf = false
      ∧ (Instr.cueClip markFrame).wf = false ∧ (Instr.cueClipStop markFrame).wf = false
      ∧ (Instr.cueHold markFrame).wf = false ∧ frameChecks 10 { markFrame with c0 := 5 } = false := by decide

theorem test_wf_cue_intervals :
    (Instr.cueMark { markFrame with intervals := markFrame.intervals.drop 1 }).wf = false
      ∧ (Instr.cueMark { markFrame with intervals := 0 :: markFrame.intervals.drop 1 }).wf = false := by decide

theorem test_wf_unknown_kind :
    (Instr.cueUnknownKind 10 markFrame).wf = false ∧ (Instr.cueUnknownKind 11 markFrame).wf = false
      ∧ (Instr.cueUnknownKind 11 { markFrame with c0 := 6, intervals := runs runs11 }).wf = true
      ∧ (Instr.cueUnknownKind 0 { markFrame with c1 := 0, c0 := 0, intervals := runs runs0 }).wf = true := by decide

theorem test_wf_presses :
    (Instr.keyFwd (.panel 19999)).wf = false ∧ (Instr.keyRev (.panel 19999)).wf = false
      ∧ (Instr.keyLamp (.panel 19999)).wf = false ∧ (Instr.keyFocusIn (.panel 19999)).wf = false
      ∧ (Instr.keyFocusOut (.panel 19999)).wf = false ∧ (Instr.keyFwd (.panel 20000)).wf = true
      ∧ (Instr.panelKeyRelease .fwd 19999).wf = false ∧ (Instr.panelKeyRelease .fwd 20000).wf = true := by decide

theorem test_wf_other_key :
    (Instr.keyOther 19 remoteFrame).wf = false ∧ (Instr.keyOther 20 remoteFrame).wf = true
      ∧ (Instr.keyOther 0 remoteFrame).wf = true := by decide

theorem test_wf_elements :
    (Instr.remoteFrameAbandoned []).wf = false ∧ (Instr.remoteFrameAbandoned [.mark 1]).wf = true := by decide

/-! ## One step, against the manual's worked sequences -/

/-- The state a command answers. -/
def after (c : Instr) (s : State) : State :=
  match exec c s with
  | .next t => t
  | .fault _ => s
  | .refused _ => s

/-- The lamp of 4.9: ON at L, M = 230, F = 96, curve points 18 and 19 at 2,210 and 2,330, and a slide of trim +16. -/
def lit (level : Nat) (window : Bool) : State :=
  let s := onLamp fun l => { l with
    mainsPresent := true, state := .on, q := level * 65536, m := 230, f := 96, window := window, darkOwed := window
    bank := (l.bank.setIfInBounds 18 2210).setIfInBounds 19 2330 }
  { s with
    now := 10000
    hdr := { s.hdr with settings := { s.hdr.settings with slotBase := 0x1000 } }
    tray := { s.tray with state := .ready, known := true, gate := .loaded, shownPin := some 0 }
    shadow := { s.shadow.setEntry 0
      (.valid { kind := .slot, key := 0, addr := 0x1000, copy := [0x0010, 0], pins := 1 } false 0) with useStamp := 1 } }

theorem test_zero_cross_worked_half_cycle :
    let l := (after .zeroCross (lit 600 false)).lamp
    l.lout = 606 ∧ l.k = 2322 ∧ l.firing = some { time := 10000 + 4331, k := 2322 } := by decide

/-- R83: LAMP_FIRE is pulsed as the delay passes, the next half-cycle begins without a pulse, and a trip before the delay
has passed leaves none to be made (R90). -/
theorem test_lamp_fire_pulse :
    let fr : Firing := { time := 14331, k := 2322 }
    let due := { lit 600 false with now := 14331, lamp := { (lit 600 false).lamp with firing := some fr } }
    let made := { lit 600 false with lamp := { (lit 600 false).lamp with fired := some fr } }
    (after .lampFiring due).lamp.fired = some fr ∧ (after .lampFiring due).lamp.firing = none
      ∧ (after .zeroCross made).lamp.fired = none
      ∧ (after (.sensorReadDone .lampHouse (.value 200)) due).lamp.firing = none := by decide

theorem test_zero_cross_window_open :
    (after .zeroCross (lit 96 false)).lamp.lout = 97 ∧ (after .zeroCross (lit 96 true)).lamp.lout = 96
      ∧ (after .zeroCross (lit 96 true)).lamp.darkSent = true
      ∧ (after .zeroCross (lit 96 false)).lamp.darkSent = false := by decide

/-- 4.9, A ramp at 50 Hz and at 60 Hz. -/
theorem test_ramp_increments :
    rampIncrement (96 * 65536) (600 * 65536) 15 10 = 220201 ∧ rampIncrement (96 * 65536) (600 * 65536) 15 12 = 183501
      ∧ hptOf 10000 = 10 ∧ hptOf 8333 = 12 := by decide

theorem test_ramp_last_step_clamps :
    let r : Ramp := { target := 39321600, increment := 220201, up := true, byAction := true, offMark := false }
    let l := (after .zeroCross
      { lit 0 false with lamp := { (lit 0 false).lamp with q := 39101405, ramp := some r } }).lamp
    l.q = 39321600 ∧ l.ramp = none ∧ l.rampDone = [{ byAction := true, offMark := false }] := by decide

/-- 4.9, An APPLY with a curve load: point 2 reads 35 and is raised to point 1. -/
theorem test_curve_word_is_raised :
    let s := inRam (ramOf .curveLoader 0x5046 35) (onLamp fun l => { l with
      spare := l.spare.setIfInBounds 1 40, loader := some { curve := .b, index := 2 } })
    (after .curveWordReturned s).lamp.spare[2] = 40 := by decide

/-- 5.9: the ceiling at 100 °C, and the trip at 120 °C. -/
theorem test_closed_booth :
    let s (th : Int) := after (.sensorReadDone .lampHouse (.value th)) (onThermal fun h => { h with
      firstTaken := true, zone := 3, duty := 100, th := 98, c := 927, ce := 927 })
    (s 100).thermal.c = 863 ∧ (s 100).thermal.ce = 863 ∧ (s 120).thermal.overTemp = true
      ∧ (s 120).lamp.state = .tripped ∧ (s 120).sw.latches = 0x0080 ∧ (s 84).thermal.duty = 80 := by decide

/-- 5.9: C rises to 895 at 1.25 s, and Ce climbs by 8 from the next half-cycle. -/
theorem test_effective_ceiling_slews :
    let s := after (.sensorReadDone .lampHouse (.value 99)) (onThermal fun h => { h with
      firstTaken := true, zone := 3, duty := 100, th := 101, c := 831, ce := 831 })
    s.thermal.c = 895 ∧ s.thermal.ce = 831 ∧ (after .zeroCross s).thermal.ce = 839 := by decide

/-- R203, R202: a NOP is accepted with its tag as the host writes CMD. -/
theorem test_nop_is_accepted :
    (after (.nop (.word 0x5A)) calm).hdr.record.state = .accepted
      ∧ (after (.nop (.word 0x5A)) calm).hdr.record.tag = 0x5A := by decide

/-- R28, R43: 800 ms of a lift without the limit; the second time is a jam. -/
theorem test_lift_limit :
    let s (retry : Bool) := after .liftTimeout (State.at 800000 (onTray fun t => { t with
      state := .lift, bottomOn := false, retry := retry }))
    (s false).tray.lowering = true ∧ (s false).tray.state = .lift ∧ (s true).tray.state = .jammed := by decide

/-- R27: each limit switch has its own level; with both active, the release of one leaves the arm at the other. -/
theorem test_arm_levels :
    let both := after (.armBottom true false) (after (.armTop true) (onTray fun t => { t with state := .ready }))
    (after (.armTop false) both).tray.arm = .bottom ∧ (after (.armBottom false false) both).tray.arm = .top
      ∧ (after (.armTop false) (after (.armBottom false false) both)).tray.arm = .between := by decide

/-- R38: slot 47 of 48, forward, with the home mark: the count is 0 and there is no slip. -/
theorem test_index_wraps_forward :
    let s := after (.indexPulse true) (onTray fun t => { t with
      state := .rotate, known := true, slot := 47
      request := some (asked (.advance 2) { dir := .forward, dest := 1, toGo := 2 }) })
    s.tray.slot = 0 ∧ s.tray.state = .rotate ∧ s.tray.known = true ∧ s.sw.latches = 0 := by decide

/-- R130, R134: the MARK frame of a unit 0 is counted good; with another check nibble it is counted bad. -/
theorem test_mark_frame_counts :
    let s := onCue fun c => { c with carrier := .present }
    let s : State := { s with hdr := { s.hdr with settings := { s.hdr.settings with decoding := true } } }
    (after (.cueMark markFrame) s).cue.good = 1
      ∧ (after (.cueMark { markFrame with c0 := 5 }) s).cue.bad = 1 := by decide

/-- R125: P moves from 1,667 by 5,100 for three chips to (7 × 1,667 × 3 + 5,100) / 24 = 1,671, rounded down, and by
1,600 for one chip to (7 × 1,671 + 1,600) / 8 = 1,662; an interval of 2,200 is no whole number of chips. A frame moves
it so with decoding disabled too (R147). -/
theorem test_frame_moves_the_period :
    let s := onCue fun c => { c with carrier := .present, period := 1667 }
    let p (l : List Nat) := (after (.cueMark { markFrame with intervals := l }) s).cue
    (p [5100]).period = 1671 ∧ (p [5100, 1600]).period = 1662 ∧ (p [5100, 1600, 2200]).period = 1662
      ∧ (p [5100]).good = 0 := by decide

/-- R173, 11.6: a HOLD of the remote, check (5 + 6 + 1) mod 16 = 12. -/
theorem test_remote_hold :
    (after (.keyHold { sys := 5, toggle := 1, check := 12 }) calm).deck.remote = true
      ∧ (after (.keyHold { sys := 5, toggle := 1, check := 11 }) calm).deck.remote = false := by decide

/-- R161, R166: an output of −3 × 255 × 192 / 65,536 is rounded toward minus infinity. -/
theorem test_sample_rounds_down :
    let s := onClip fun c => { c with
      state := .playing, fifo := [-3, 5]
      playing := some { clip := 1, source := .remote
                        desc := { start := 0x2000, length := 9, rate := 0, gain := 255, loop := false } } }
    (after .sampleDue s).clip.lastOutput = -3 ∧ (after .sampleDue s).clip.fifo = [5] := by decide

/-- R190, R200: a ring at 0x1000 of 64 records lies free; a slot table at 0x1080 would overlap it. -/
theorem test_base_check :
    (after (.ringBase (.word 0)) (onHdr fun h => { h with image := h.image.set 30 0x1000 })).hdr.settings.ringBase
        = 0x1000
      ∧ (after (.slotBase (.word 0)) (onHdr fun h => { h with
          image := h.image.set 24 0x1080, settings := { h.settings with ringBase := 0x1000 } })).hdr.settings.slotBase
        = 0 := by decide

/-- R38, R65: a home mark before slot 1 corrects the count to 0. The search from there passes slot 1, marked skip, and
ends at slot 2 again: the pin stays, and with it the copy held of a record that has turned stale. -/
theorem test_slip_keeps_the_destination_pin :
    let r : TrayRequest := { asked (.advance 1) { dir := .forward, dest := 2, toGo := 2 } with
      skipping := true, found := [2] }
    let e (key pins : Nat) (w : Word) : EntryData :=
      { kind := .slot, key := key, addr := 0x1000 + 4 * key, copy := [w, 0], pins := pins }
    let s : State := { onSet (fun st => { st with slotBase := 0x1000, skip := true }) with
      tray := { calm.tray with state := .rotate, known := true, slot := 0, destPin := some 2, request := some r }
      shadow := { (calm.shadow.setEntry 0 (.valid (e 1 0 0x0100) false 0)).setEntry 1 (.valid (e 2 1 0) true 1) with
        useStamp := 2 } }
    let t := after (.indexPulse true) s
    t.tray.slot = 0 ∧ t.tray.toGo = 2 ∧ t.tray.destPin = some 2 ∧ t.tray.wait = .none ∧ t.sw.latches ≠ 0
      ∧ t.shadow.entry 1 = .valid (e 2 1 0) true 3 := by decide

/-- A Watch Table whose 16 entries are all pinned, 0 to 14 for ever and 15 by the player, while the transport waits for
the record of slot 3 (R58, third case). -/
def crowded : State :=
  let e (kind : RecKind) (key : Nat) : WatchEntry :=
    .valid { kind := kind, key := key, addr := 0x2000 + 8 * key, copy := [0, 1, 1, 0x8000], pins := 1 } false key
  let table := Vector.ofFn fun i : Fin 16 => if i.val = 15 then e .clip 15 else e .slot (20 + i.val)
  let q : ClipEntry := { clip := 15, source := .linked, copy := [0, 1, 1, 0x8000], pinned := true }
  let s := onSet fun st => { st with slotBase := 0x1000, clipBase := 0x2000 }
  { s with
    shadow := { s.shadow with table := table }
    tray := { s.tray with
      state := .ready, known := true, destPin := some 3, wait := .destination
      request := some (asked (.goto 3) { dir := .forward, dest := 3, toGo := 3 }) }
    clip := { s.clip with queue := [q] } }

/-- R58: the lookup has found no entry, and the release that brings entry 15's pin count to 0 serves it: the entry is
given to the record of slot 3, with the pin the lookup asked for, and its fetch joins the list. -/
theorem test_release_serves_a_lookup :
    crowded.shadow.victim = none
      ∧ (lookup .slot 3 true crowded).2 = .waiting
      ∧ (let t := releasePin .clip 15 crowded
         t.shadow.fetchList = [15]
           ∧ t.shadow.entry 15 = .filling { kind := .slot, key := 3, addr := 0x100C, copy := [], pins := 1 }) := by
  and_intros <;> decide

/-- R185: a host read of a word of no register holds WAIT while the RAM is busy, and takes its word when it is free. -/
theorem test_host_read_of_a_word :
    let c : Instr := .hostWriteWatched 0x200 .read
    let s : State := { calm with mem := [(0x400, 0x34), (0x401, 0x12)] }
    (after c s).port.ram.map (·.data) = some 0x1234 ∧ (after c (inRam cmdw s)).waitLine = true
      ∧ (after c (inRam cmdw s)).port.ram = some cmdw := by decide

/-- R192: a host read of LAMP_MIN low goes before the write of LAMP_MIN high, which is the next access of the RAM. -/
theorem test_host_goes_before_the_status_writer :
    let s : State := { calm with lamp := { calm.lamp with minutes := 65536 }, sw := { calm.sw with dirty := [16] } }
    let c : Instr := .hostWriteWatched 79 .read
    (after c s).waitLine = false ∧ (after c s).port.ram.map (·.addr) = some 158
      ∧ (after .hostAccessEnd (after c s)).port.ram.map (·.addr) = some 160 := by decide

/-- R127: a frame in progress fails, and the transition that follows 600 ms of silence starts an acquisition run at
itself; one 500 ms after the last valid transition, taken first, finds the carrier. -/
theorem test_silence_loses_the_carrier :
    let s := onCue fun c => { c with
      carrier := .present, lastTransition := 1000, lastValid := 1000, locked := true, frame := .awaitingEnd }
    let t (i : Nat) : CueTrack := (after (.acquisitionRunStart [{ tone := true, interval := i }]) s).cue
    (t 600000).carrier = .acquiring ∧ (t 600000).runStart = 601000 ∧ (t 600000).frame = .between
      ∧ (t 600000).bad = 1 ∧ (t 500001).carrier = .acquiring ∧ (t 500000).carrier = .present := by decide

/-! ## Steps, the RESET pin -/

theorem witness_StepRunsTheFrontCommand :
    ({ calm with pending := [.fanTach, .zeroCross] } : State).pending = .fanTach :: [.zeroCross] := by decide

theorem witness_EmptyQueueIsAClockTick :
    (let s := counting 119999999
     s.pending = [] ∧ Settled s ∧ s.tray.gate = .loaded ∧ s.lamp.mainsPresent = true
       ∧ s.hdr.settings.pc < s.lamp.lout ∧ s.hdr.settings.dwellLimit ≠ 0 ∧ s.thermal.dwellFlag = false
       ∧ (s.lamp.state = .warming ∨ s.lamp.state = .on))
      ∧ (let s := { counting 0 with lamp := { (counting 0).lamp with lout := 640 } }
         s.pending = [] ∧ Settled s ∧ ¬(s.hdr.settings.pc < s.lamp.lout))
      ∧ (let s : State := { tape .present fun c => { c with tapeUs := 9999 } with
            deck := { calm.deck with tapeRun := true } }
         s.pending = [] ∧ Settled s ∧ s.cue.carrier = .present ∧ s.deck.tapeRun = true)
      ∧ (calm.pending = [] ∧ Settled calm ∧ calm.tray.gate ≠ .loaded ∧ calm.lamp.state.lit = false
          ∧ calm.cue.carrier ≠ .present)
      ∧ (({ calm with resetHeld := true } : State).pending = []
          ∧ ({ calm with resetHeld := true } : State).resetHeld = true) := by and_intros <;> decide

/-- A host read in the RAM. -/
def hostRead (addr : WordAddr) : HostAccess := { addr := addr, kind := .read, cls := .read, inRam := true }

theorem witness_PinAssertDropsTheOwnAccesses :
    (inRam cmdw calm).port.hostWaits = false
      ∧ (let k : HostAccess := { hostRead 0 with kind := .write (.word 7), cls := .header, inRam := false }
         let s := { inRam cmdw calm with port := { (inRam cmdw calm).port with access := some k } }
         s.port.access = some k ∧ k.inRam = false ∧ s.port.inRamOf .host = none) := by and_intros <;> decide

/-- The part with its pin held. -/
def held : State := { calm with resetHeld := true }

theorem witness_ExecutorAfterThePin : held.resetHeld = true := by decide

theorem witness_ShadowAfterThePin : held.resetHeld = true := by decide

theorem witness_ClipPlayerAfterThePin : held.resetHeld = true := by decide

theorem witness_ThermalControllerAfterThePin : held.resetHeld = true := by decide

theorem witness_HeldPinPassesHostAccessesOnly :
    (held.resetHeld = true ∧ held.port.access = none ∧ held.port.ram = none ∧ held.port.reqs = Requests.empty)
      ∧ (inStatusBlock 63 = false ∧ inStatusBlock 128 = false) ∧ (inStatusBlock 64 = true ∧ inStatusBlock 127 = true)
      ∧ ((hostRead 64).inRam = true ∧ (hostRead 64).kind = .read ∧ (ramOf .host 128 7).who = .host
          ∧ held.port.backlog = [])
      ∧ (actsWhileHeld .zeroCross = false ∧ actsWhileHeld .statusBlockWriteLanded = false
          ∧ actsWhileHeld (.keyFwd (.panel 20000)) = false) := by and_intros <;> decide

/-! ## Commands of the host -/

theorem witness_CommandIsAccepted :
    commandOf (.badCommand 0x64 .lowLane) = some (0x64, .lowLane) ∧ (0x64 : Byte) ≠ codeStop ∧ (0x64 : Byte) ≠ codeReset
      ∧ HostReady calm ∧ calm.cx.pendingCmd = false ∧ calm.hdr.record.state = .free := by and_intros <;> decide

theorem witness_CommandIsRejected :
    let s := withRecord (record .closing codeNop 0 0 0) calm
    commandOf (.wake (.word 3)) = some (codeWake, .word 3) ∧ codeWake ≠ codeStop ∧ codeWake ≠ codeReset
      ∧ HostReady s ∧ s.hdr.record.state ≠ .free := by and_intros <;> decide

theorem witness_StopActsAtTheTrigger_idle :
    let s := focused (run .remote 4000000) (withRecord (record .accepted codeClip 0 0 0) calm)
    HostReady s ∧ noSource s ∧ s.cx.action = none ∧ (∀ f, s.remote.focus = some f → f.owner ≠ .command)
      ∧ (s.hdr.record.state = .accepted → s.hdr.record.code ∉ executorCodes ∧ s.hdr.record.code ≠ codeFocus) := by
  refine ⟨by decide, by decide, by decide, ?_, by decide⟩
  rintro f ⟨⟩
  decide

theorem witness_StopActsAtTheTrigger :
    (let s := withRecord (record .accepted codeFocus 0 0 0) calm
     HostReady s ∧ noSource s ∧ s.cx.action = none ∧ s.remote.focus = none ∧ s.hdr.record.state = .accepted
       ∧ (s.hdr.record.code ∈ executorCodes ∨ s.hdr.record.code = codeFocus))
      ∧ (let s := focused (run .command 10000) (withRecord (record .active codeFocus 0 0 0) calm)
         HostReady s ∧ s.remote.focus = some (run .command 10000) ∧ noSource s ∧ s.cx.action = none
           ∧ (run .command 10000).owner = .command ∧ s.hdr.record.state = .active ∧ s.hdr.record.code = codeFocus)
      ∧ (let y := action (.fade 600 15) (.command 9) .fading
         let s := rampingTo 600 (doing y (withRecord (record .active codeFade 600 15 0) calm))
         HostReady s ∧ s.cx.action = some y ∧ y.phase ≠ .moving ∧ y.phase ≠ .warming ∧ endsAlone s y
           ∧ s.hdr.record.state ≠ .accepted ∧ s.remote.focus = none ∧ s.thermal.power = .normal
           ∧ s.lamp.ramp ≠ none)
      ∧ (let s := doing warmingUp (withRecord (record .active codeLamp 1 0 0) (warming 199))
         HostReady s ∧ awaitsLamp s warmingUp ∧ s.hdr.record.state ≠ .accepted ∧ s.remote.focus = none)
      ∧ (let y : Action := { action (.goto 3) (.command 9) .moving with issued := true }
         let s := doing y (withRecord (record .active codeGoto 3 0 0)
           (onTray fun t => { t with state := .lift, known := true, request := some (goingTo 3) }))
         HostReady s ∧ s.cx.action = some y ∧ y.phase = .moving ∧ y.issued = true ∧ y.stopped = false
           ∧ s.tray.request = some (goingTo 3) ∧ (goingTo 3).stopRequested = false ∧ s.tray.state = .lift
           ∧ s.remote.focus = none ∧ s.hdr.record.state = .active ∧ s.cx.pendingCmd = false) := by and_intros <;> decide

/-- An action in MOVING whose request is in hand, in this state of the transport. -/
def stoppable (y : Action) (st : TrayState) (p2 : RecordState) : State :=
  doing y (withRecord (record p2 codeGoto 3 0 0)
    (onTray fun t => { t with state := st, known := true, request := some (goingTo 3) }))

theorem witness_StopActsAtTheTrigger_moving :
    (let y : Action := { action (.goto 3) (.command 9) .moving with window := true }
     let s := doing y (withRecord (record .active codeGoto 3 0 0) (ready calm))
     HostReady s ∧ s.cx.action = some y ∧ y.phase = .moving ∧ y.issued = false ∧ endsAlone s y
       ∧ s.hdr.record.state ≠ .accepted ∧ s.remote.focus = none)
      ∧ (let y : Action := { action (.goto 3) .remote .moving with issued := true }
         (HostReady (stoppable y .rotate .free) ∧ (stoppable y .rotate .free).tray.state = .rotate)
           ∧ (HostReady (stoppable y .recover .closing) ∧ (stoppable y .recover .closing).hdr.record.state ≠ .accepted))
      ∧ (let y : Action := { action (.goto 3) (.tape 5) .moving with issued := true }
         let s : State := { stoppable y .rotate .active with cx := { (doing y calm).cx with pendingCmd := true } }
         HostReady s ∧ s.cx.action = some y ∧ y.stopped = false ∧ s.tray.request = some (goingTo 3)
           ∧ (goingTo 3).stopRequested = false ∧ s.tray.state = .rotate ∧ s.cx.pendingCmd = true
           ∧ s.hdr.record.state = .active)
      ∧ (let y : Action := { action (.goto 3) (.command 9) .moving with issued := true, stopped := true }
         let s := stoppable y .drop .active
         HostReady s ∧ s.cx.action = some y ∧ y.stopped = true ∧ s.cx.pendingCmd = false
           ∧ s.hdr.record.state ≠ .accepted)
      ∧ (let y : Action := { action (.goto 3) (.command 9) .moving with issued := true }
         let s := stoppable y .ready .active
         HostReady s ∧ awaitsTray s y (goingTo 3) ∧ s.tray.state = .ready ∧ s.hdr.record.state ≠ .accepted)
      ∧ (let y := action (.fade 600 15) (.tape 5) .fading
         let s : State := { rampingTo 600 (doing y (withRecord (record .active codeLamp 1 0 0) calm)) with
           cx := { (doing y calm).cx with pendingCmd := true } }
         HostReady s ∧ s.cx.action = some y ∧ y.source.isCommand = false ∧ s.cx.pendingCmd = true
           ∧ s.cx.queue = [] ∧ s.remote.netCount = 0 ∧ s.remote.oneShot = none ∧ logRoom s
           ∧ s.hdr.record.state = .active ∧ s.thermal.power = .normal) := by and_intros <;> decide

/-- A start request in hand, from this source. -/
def startingFrom (src : ClipSource) : StartRecord :=
  { starting false with request := { (starting false).request with source := src } }

/-- RESET with no request in hand, and with a start request. -/
theorem witness_ResetActsAtTheTrigger :
    (let s := withRecord (record .accepted codeGoto 3 0 0) showing
     HostReady s ∧ s.clip.requests = [] ∧ s.cx.action = none ∧ s.tray.request = none ∧ s.clip.start = none
       ∧ s.hdr.record.state = .accepted ∧ s.tray.gate = .loaded ∧ s.tray.known = true ∧ s.hdr.settings.slotBase ≠ 0)
      ∧ (let r : Ramp := { target := 0, increment := 9, up := false, byAction := false, offMark := true }
         let s := withRecord (record .active codeApply 0 0 0)
           { burning (fun l => { l with ramp := some r }) with
             thermal := { calm.thermal with power := .standbyPending, duty := 55 } }
         HostReady s ∧ s.clip.requests = [] ∧ s.cx.action = none ∧ s.tray.request = none ∧ s.clip.start = none
           ∧ s.hdr.record.state = .active ∧ s.thermal.power = .standbyPending ∧ s.lamp.state = .on
           ∧ s.lamp.offMarked = true)
      ∧ (let s := onClip fun c => { c with start := some (starting false) }
         HostReady s ∧ s.clip.requests = [] ∧ s.cx.action = none ∧ s.tray.request = none
           ∧ s.clip.start = some (starting false) ∧ (starting false).request.source = .tape 12 ∧ logRoom s)
      ∧ (let s := onClip fun c => { c with start := some (startingFrom .injected) }
         HostReady s ∧ s.clip.start = some (startingFrom .injected)
           ∧ (startingFrom .injected).request.source = .injected ∧ logRoom s)
      ∧ (let s := withRecord (record .active codeClip 5 0 0) (onClip fun c => { c with
            start := some (startingFrom (.command 9)) })
         HostReady s ∧ s.clip.start = some (startingFrom (.command 9))
           ∧ ((startingFrom (.command 9)).request.source = .remote ∨ (startingFrom (.command 9)).request.source = .linked
             ∨ ∃ tag, (startingFrom (.command 9)).request.source = .command tag)) := by
  refine ⟨by decide, by decide, by decide, by decide, by decide, by decide, .inr (.inr ⟨9, rfl⟩)⟩

/-- RESET with an action under way. -/
theorem witness_ResetActsAtTheTrigger_action :
    (let s := rampingTo 600 (doing fading calm)
     HostReady s ∧ s.clip.requests = [] ∧ s.cx.action = some fading ∧ fading.phase ≠ .moving ∧ s.tray.request = none
       ∧ s.clip.start = none ∧ logRoom s)
      ∧ (let x : Action := { action (.goto 3) (.command 9) .moving with window := true }
         let s := doing x (withRecord (record .active codeGoto 3 0 0) (ready calm))
         HostReady s ∧ s.cx.action = some x ∧ x.issued = false ∧ s.tray.request = none ∧ logRoom s)
      ∧ (let s := doing mover (onTray fun t => { t with state := .lift, known := true, request := some (goingTo 3) })
         HostReady s ∧ s.cx.action = some mover ∧ mover.phase = .moving ∧ mover.issued = true
           ∧ s.tray.request = some (goingTo 3) ∧ s.tray.wait = .none ∧ s.clip.start = none ∧ s.tray.state = .lift
           ∧ mover.stopped = false ∧ (goingTo 3).stopRequested = false)
      ∧ (let x : Action := { action (.goto 3) (.command 9) .moving with issued := true, stopped := true }
         let q : TrayRequest := { goingTo 3 with stopRequested := true }
         let s := doing x (withRecord (record .active codeGoto 3 0 0)
           (onTray fun t => { t with state := .recover, request := some q }))
         HostReady s ∧ s.cx.action = some x ∧ x.issued = true ∧ s.tray.request = some q ∧ s.tray.wait = .none
           ∧ s.tray.state = .recover ∧ x.stopped = true ∧ q.stopRequested = true)
      ∧ (let s := doing mover (slotTable false (ready (onTray fun t => { t with
            wait := .destination, destPin := some 3, request := some (goingTo 3) })))
         HostReady s ∧ awaitsTray s mover (goingTo 3) ∧ mover.stopped = false ∧ (goingTo 3).stopRequested = false
           ∧ s.tray.state = .ready ∧ s.clip.start = none) := by and_intros <;> decide

/-- The record's command, which a STOP has given its abort mark, is taken as the STATUS write lands. -/
def takingMarked (code : Byte) : State :=
  inRam cmdw (withRecord { record .accepted code 0 0 0 with abortMark := true } calm)

theorem witness_SimpleCommandsWhenTaken_marked :
    (TakesMarked (takingMarked codeLamp) cmdw codeLamp ∧ codeLamp ∈ executorCodes)
      ∧ TakesMarked (takingMarked codeFocus) cmdw codeFocus := by and_intros <;> decide

theorem witness_SimpleCommandsWhenTaken :
    (TakesNext (taking codeNop 0 0 0 calm) cmdw codeNop ∧ TakesNext (taking codeHold 0 0 0 calm) cmdw codeHold
        ∧ TakesNext (taking codeRelease 0 0 0 calm) cmdw codeRelease
        ∧ TakesNext (taking 0x64 0 0 0 calm) cmdw 0x64 ∧ (0x64 : Byte) ∉ definedCodes)
      ∧ TakesNext (taking codeLampMinutes 59 0 0 (onSet fun st => { st with lifeLimit := 1 })) cmdw codeLampMinutes
      ∧ (let s := taking codeLampMinutes 60 0 0
          { onSet (fun st => { st with lifeLimit := 1 }) with lamp := { calm.lamp with lifeReported := true } }
         TakesNext s cmdw codeLampMinutes ∧ s.hdr.settings.lifeLimit ≠ 0 ∧ s.hdr.settings.lifeLimit * 60 ≤ 60
           ∧ s.lamp.lifeReported = true)
      ∧ (let s := taking codeLampMinutes 60 0 0 (onSet fun st => { st with lifeLimit := 1 })
         TakesNext s cmdw codeLampMinutes ∧ s.hdr.settings.lifeLimit ≠ 0 ∧ s.hdr.settings.lifeLimit * 60 ≤ 60
           ∧ s.lamp.lifeReported = false) := by and_intros <;> decide

theorem witness_ExecutorCommandsPend :
    (TakesNext (taking codeLamp 1 0 0 (doing fading calm)) cmdw codeLamp ∧ codeLamp ∈ executorCodes
        ∧ busyAction (taking codeLamp 1 0 0 (doing fading calm)) fading)
      ∧ (let s := taking codeGoto 48 0 0 (onThermal fun h => { h with power := .standby, duty := 0 })
         s.cx.action = none ∧ TakesNext s cmdw codeGoto ∧ codeGoto ∈ executorCodes ∧ s.thermal.power ≠ .normal)
      ∧ (let s := taking codeDissolve 15 0 0 (burning fun l => { l with lout := 600 })
         s.cx.action = none ∧ s.thermal.power = .normal ∧ TakesNext s cmdw codeDissolve ∧ s.lamp.dark = false
           ∧ s.tray.state = .trayOut)
      ∧ (let s := taking codeGoto 48 0 0 (ready calm)
         s.cx.action = none ∧ TakesNext s cmdw codeGoto ∧ s.tray.state ≠ .trayOut
           ∧ s.tray.n ≤ s.hdr.record.p1.toNat)
      ∧ (let s := taking codeGoto 47 0 0 (onTray fun t => { t with state := .jammed })
         s.cx.action = none ∧ TakesNext s cmdw codeGoto ∧ s.tray.state = .jammed
           ∧ s.hdr.record.p1.toNat < s.tray.n)
      ∧ (let s := taking codeFade 1024 2551 0 calm
         s.cx.action = none ∧ s.thermal.power = .normal ∧ TakesNext s cmdw codeFade) := by and_intros <;> decide

theorem witness_ExecutorCommandsPend_warming :
    (let s := taking codeFade 0 0 0 (doing tapeWarming (warming 199))
     s.cx.action = some tapeWarming ∧ tapeWarming.phase = .warming ∧ TakesNext s cmdw codeFade
       ∧ codeFade ∈ executorCodes ∧ codeFade ≠ codeLamp)
      ∧ (let s := taking codeLamp 1 0 0 (doing tapeWarming (warming 199))
         s.cx.action = some tapeWarming ∧ TakesNext s cmdw codeLamp ∧ s.hdr.record.p1 ≠ 0)
      ∧ (let s := taking codeLamp 0 0 0 (doing tapeWarming (warming 199))
         s.cx.action = some tapeWarming ∧ tapeWarming.source.isCommand = false ∧ s.lamp.state = .warming
           ∧ s.thermal.power = .normal ∧ noSource s ∧ logRoom s ∧ TakesNext s cmdw codeLamp
           ∧ s.hdr.record.p1 = 0) := by and_intros <;> decide

theorem witness_ExecutorCommandsPend_lamp :
    (let s := taking codeLamp 1 0 0 calm
     s.cx.action = none ∧ TakesNext s cmdw codeLamp ∧ s.hdr.record.p1.toNat ≠ 0 ∧ s.thermal.fanFault = false
       ∧ s.thermal.sensorFault = false ∧ s.lamp.state = .off)
      ∧ (let s := taking codeLamp 1 0 0
            { onThermal (fun h => { h with th := 69 }) with lamp := { calm.lamp with state := .tripped } }
         TakesNext s cmdw codeLamp ∧ s.lamp.state = .tripped ∧ s.thermal.th < s.hdr.settings.tr)
      ∧ (let s := taking codeLamp 1 0 0 (warming 199)
         TakesNext s cmdw codeLamp ∧ s.lamp.state = .warming)
      ∧ (let s := taking codeLamp 1 0 0
            { onThermal (fun h => { h with th := 70 }) with lamp := { calm.lamp with state := .tripped } }
         TakesNext s cmdw codeLamp ∧ s.lamp.state = .tripped ∧ s.hdr.settings.tr ≤ s.thermal.th)
      ∧ (TakesNext (taking codeLamp 1 0 0 (burning id)) cmdw codeLamp ∧ (burning id).lamp.state = .on)
      ∧ (let s := taking codeLamp 0 0 0 (burning id)
         s.cx.action = none ∧ TakesNext s cmdw codeLamp ∧ s.hdr.record.p1.toNat = 0 ∧ s.lamp.state = .on)
      ∧ (TakesNext (taking codeLamp 0 0 0 (warming 199)) cmdw codeLamp ∧ (warming 199).lamp.state = .warming)
      ∧ (TakesNext (taking codeLamp 0 0 0 calm) cmdw codeLamp ∧ calm.lamp.state = .off)
      ∧ (let s := taking codeDissolve 2551 0 0 calm
         s.cx.action = none ∧ TakesNext s cmdw codeDissolve ∧ s.lamp.dark = true)
      ∧ (let s := taking codeDissolve 0 0 0 (ready (burning fun l => { l with lout := 600 }))
         TakesNext s cmdw codeDissolve ∧ s.lamp.dark = false ∧ s.tray.state ≠ .trayOut) := by and_intros <;> decide

theorem witness_ExecutorCommandsPend_change :
    (let s := taking codeAdvance 48 0 0 (ready (burning fun l => { l with lout := 600, q := 600 * 65536 }))
     s.cx.action = none ∧ TakesNext s cmdw codeAdvance ∧ s.hdr.settings.changeMode = .dark ∧ s.lamp.dark = false
       ∧ s.tray.state ≠ .trayOut ∧ s.tray.state ≠ .jammed)
      ∧ (let s := taking codeAdvance 0 0 0 (opened (ready calm))
         s.cx.action = none ∧ TakesNext s cmdw codeAdvance ∧ s.hdr.settings.changeMode = .opened ∧ liftsAtOnce s)
      ∧ (let s := taking codeAdvance 48 0 0 (ready calm)
         TakesNext s cmdw codeAdvance ∧ s.hdr.settings.changeMode = .dark ∧ s.lamp.dark = true
           ∧ s.lamp.window = false ∧ liftsAtOnce s)
      ∧ (let s := taking codeGoto 47 0 0 (ready (burning fun l => { l with lout := 600, q := 600 * 65536 }))
         TakesNext s cmdw codeGoto ∧ s.hdr.record.p1.toNat < s.tray.n ∧ s.hdr.settings.changeMode = .dark
           ∧ s.lamp.dark = false ∧ s.tray.state ≠ .trayOut ∧ s.tray.state ≠ .jammed)
      ∧ (let s := taking codeGoto 24 0 0 (opened (ready calm))
         TakesNext s cmdw codeGoto ∧ s.hdr.record.p1.toNat < s.tray.n ∧ s.hdr.settings.changeMode = .opened
           ∧ liftsAtOnce s)
      ∧ (let s := taking codeGoto 25 0 0 (ready calm)
         TakesNext s cmdw codeGoto ∧ s.hdr.record.p1.toNat < s.tray.n ∧ s.hdr.settings.changeMode = .dark
           ∧ s.lamp.dark = true ∧ s.lamp.window = false ∧ liftsAtOnce s)
      ∧ (let s := taking codeClearJam 0 0 0 (onTray fun t => { t with state := .jammed, bottomOn := false })
         s.cx.action = none ∧ TakesNext s cmdw codeClearJam ∧ s.tray.state = .jammed ∧ s.tray.request = none
           ∧ s.tray.bottomOn = false)
      ∧ (let s := taking codeClearJam 0 0 0 (onTray fun t => { t with state := .unhomed })
         s.cx.action = none ∧ TakesNext s cmdw codeClearJam ∧ s.tray.state = .unhomed
           ∧ s.tray.request = none) := by and_intros <;> decide

/-- An UNHOMED tray, its arm at the bottom limit or not. -/
def unhomed (bottom : Bool) : State := opened (onTray fun t => { t with state := .unhomed, bottomOn := bottom })

theorem witness_ExecutorCommandsPend_waits :
    (let s := taking codeReverse 3 0 0 (opened (ready calm))
     s.cx.action = none ∧ TakesNext s cmdw codeReverse ∧ (TrayKind.reverse 3).plannable s.tray.n = true
       ∧ s.hdr.settings.changeMode = .opened ∧ liftsAtOnce s)
      ∧ (let s := taking codeReverse 3 0 0 (opened (ready (onTray fun t => { t with topOn := true })))
         TakesNext s cmdw codeReverse ∧ s.hdr.settings.changeMode = .opened ∧ s.tray.topOn = true
           ∧ s.tray.state = .ready ∧ s.tray.request = none ∧ s.hdr.settings.slotBase = 0
           ∧ s.hdr.settings.skip = false ∧ (Plan.of s.tray.n s.tray.slot (.reverse 3)).toGo ≠ 0)
      ∧ (let s := taking codeGoto 47 0 0 (opened (slotTable true (ready calm)))
         TakesNext s cmdw codeGoto ∧ (TrayKind.goto 47).plannable s.tray.n = true ∧ s.hdr.settings.changeMode = .opened
           ∧ s.tray.state = .ready ∧ s.tray.request = none ∧ s.tray.slot < s.tray.n
           ∧ slotMisses (Plan.of s.tray.n s.tray.slot (.goto 47)).dest 0 s)
      ∧ (let s := taking codeAdvance 3 0 0 (opened (slotTable false (ready calm)))
         TakesNext s cmdw codeAdvance ∧ s.hdr.settings.skip = false ∧ s.tray.slot < s.tray.n
           ∧ slotMisses (Plan.of s.tray.n s.tray.slot (.advance 3)).dest 0 s)
      ∧ (let s := taking codeReverse 2 0 0 (opened (slotTable true (ready calm)))
         TakesNext s cmdw codeReverse ∧ s.hdr.settings.changeMode = .opened ∧ s.tray.state = .ready
           ∧ s.tray.request = none ∧ s.hdr.settings.skip = true ∧ codeReverse ≠ codeGoto ∧ 1 < s.tray.n
           ∧ slotMisses (nextPos s.tray.n (TrayKind.reverse 2).dir s.tray.slot) 0 s)
      ∧ (let s := taking codeGoto 3 0 0 (unhomed false)
         TakesNext s cmdw codeGoto ∧ s.hdr.settings.changeMode = .opened ∧ s.tray.state = .unhomed
           ∧ s.tray.request = none ∧ s.tray.bottomOn = false)
      ∧ (let s := taking codeAdvance 3 0 0 (unhomed true)
         TakesNext s cmdw codeAdvance ∧ s.tray.state = .unhomed ∧ s.tray.bottomOn = true ∧ s.tray.topOn = false)
      ∧ (let s := taking codeLamp 1 0 0 (onThermal fun h => { h with fanFault := true, duty := 100 })
         s.cx.action = none ∧ TakesNext s cmdw codeLamp ∧ s.hdr.record.p1.toNat ≠ 0 ∧ s.thermal.power = .normal
           ∧ ¬(s.thermal.fanFault = false ∧ s.thermal.sensorFault = false) ∧ s.lamp.state = .off) := by
  and_intros <;> decide

/-- The lift that a command taken begins, of a change in OPEN mode, or in DARK mode with its window open. -/
def lifting (req : ActionRequest) (dark : Bool) (s : State) : State :=
  { (statusShown cmdw s).active.doing
      { freshAction req (.command 9) false .moving with issued := true, window := dark } with
    tray := s.tray.lifted (TrayRequest.planned req.trayKind dark (Plan.of s.tray.n s.tray.slot req.trayKind)) s.now }

theorem witness_ExecutorCommandsPend_releases :
    (let s := taking codeReverse 3 0 0 (slideShown false (opened (ready calm)))
     TakesNext s cmdw codeReverse ∧ liftsAtOnce s ∧ letsGo (lifting (.reverse 3) false s))
      ∧ (let s := taking codeReverse 3 0 0 (slideShown true (opened (ready (onTray fun t => { t with topOn := true }))))
         let v := lifting (.reverse 3) false s
         TakesNext s cmdw codeReverse ∧ s.tray.topOn = true
           ∧ letsGo { v with tray := { v.tray with gate := .empty, state := .rotate } })
      ∧ (let s := taking codeAdvance 48 0 0 (slideShown false (ready calm))
         let v := lifting (.advance 47) true s
         TakesNext s cmdw codeAdvance ∧ s.lamp.dark = true ∧ s.lamp.window = false ∧ liftsAtOnce s
           ∧ letsGo { v with lamp := { s.lamp with window := true, darkOwed := false, darkSent := false } })
      ∧ (let s := taking codeAdvance 3 0 0 (unhomed true)
         let u := slideShown false s
         TakesNext u cmdw codeAdvance ∧ u.tray.state = .unhomed ∧ u.tray.bottomOn = true ∧ u.tray.topOn = false
           ∧ letsGo { (statusShown cmdw u).active.doing
                { freshAction (.advance 3) (.command 9) false .moving with issued := true } with
              tray := { u.tray with
                state := .homing, homingStep := .lift, timerStart := s.now, lowering := false, wait := .none
                repin := false, retry := false, request := some (TrayRequest.fresh (.advance 3) false) } }) := by
  and_intros <;> decide

theorem witness_ExecutorCommandsPend_finds :
    (let s := taking codeGoto 47 0 0 (heldSlot 47 15 0 true (opened (slotTable true (ready calm))))
     TakesNext s cmdw codeGoto ∧ (TrayKind.goto 47).plannable s.tray.n = true ∧ s.tray.state = .ready
       ∧ s.tray.request = none ∧ s.tray.slot < s.tray.n ∧ slotFound (Plan.of s.tray.n s.tray.slot (.goto 47)).dest 15 s
       ∧ (s.shadow.entry 15).isValid = true ∧ s.tray.topOn = false ∧ s.tray.shownPin = none)
      ∧ (let s := taking codeGoto 47 0 0 (slideShown true (heldSlot 47 15 0 false (opened (slotTable true (ready calm)))))
         let v : State := { lifting (.goto 47) false s with shadow := s.shadow.pinned 15 }
         TakesNext s cmdw codeGoto ∧ slotFound 47 15 s ∧ (s.shadow.entry 15).isValid = true ∧ s.tray.topOn = false
           ∧ letsGo { v with tray := { v.tray with destPin := some 47 } })
      ∧ (let u := opened (slotTable false (ready calm))
         let e : EntryData := { kind := .slot, key := 1, addr := 0x1004, copy := [], pins := 0 }
         let s := taking codeAdvance 0 0 0 { u with
           shadow := { u.shadow.setEntry 0 (.filling e) with fetchList := [0] } }
         TakesNext s cmdw codeAdvance ∧ s.hdr.settings.skip = false
           ∧ slotFound (Plan.of s.tray.n s.tray.slot (.advance 1)).dest 0 s ∧ (s.shadow.entry 0).isValid = false) := by
  and_intros <;> decide

theorem witness_PowerCommandsWhenTaken :
    (TakesNext (taking codeWake 0 0 0 calm) cmdw codeWake ∧ (taking codeWake 0 0 0 calm).thermal.power = .normal)
      ∧ (let s := taking codeWake 0 0 0 (onThermal fun h => { h with power := .standby, duty := 0 })
         TakesNext s cmdw codeWake ∧ s.thermal.power ≠ .normal)
      ∧ (let s := taking codeWake 0 0 0 (onThermal fun h => { h with power := .standby, fanFault := true, duty := 100 })
         TakesNext s cmdw codeWake ∧ s.thermal.power ≠ .normal ∧ s.thermal.fanFault = true)
      ∧ (let s := taking codeStandby 0 0 0 (onThermal fun h => { h with power := .standbyPending, runOn := some 0 })
         TakesNext s cmdw codeStandby ∧ s.thermal.power ≠ .normal)
      ∧ (let s := taking codeStandby 0 0 0 calm
         TakesNext s cmdw codeStandby ∧ s.thermal.power = .normal ∧ stopsPlainly s.clip ∧ s.cx.action = none
           ∧ s.lamp.state = .off ∧ s.thermal.runOn = none)
      ∧ (let s := taking codeStandby 0 0 0 (focused (run .remote 4000000)
           { burning id with clip := (playing .playing).clip })
         TakesNext s cmdw codeStandby ∧ stopsPlainly s.clip ∧ s.cx.action = none ∧ s.lamp.state = .on
           ∧ s.clip.state = .playing ∧ s.remote.focus ≠ none)
      ∧ (let s := taking codeStandby 0 0 0 (rampingTo 600 (doing fading { burning id with cx :=
            { calm.cx with queue := [{ kind := .lamp, param := 0, injected := false, tapeTime := 0 }] } }))
         TakesNext s cmdw codeStandby ∧ s.thermal.power = .normal ∧ stopsPlainly s.clip ∧ s.cx.action = some fading
           ∧ fading.source.isCommand = false ∧ logRoom s ∧ fading.phase ≠ .moving ∧ fading.phase ≠ .warming
           ∧ s.cx.queue ≠ [])
      ∧ (let s := taking codeStandby 0 0 0 (doing tapeWarming (warming 9))
         TakesNext s cmdw codeStandby ∧ stopsPlainly s.clip ∧ s.cx.action = some tapeWarming
           ∧ tapeWarming.source.isCommand = false ∧ logRoom s ∧ tapeWarming.phase = .warming)
      ∧ (let s := taking codeStandby 0 0 0 (doing mover (onTray fun t => { t with
            state := .rotate, request := some (goingTo 1) }))
         TakesNext s cmdw codeStandby ∧ s.thermal.power = .normal ∧ stopsPlainly s.clip ∧ s.cx.action = some mover
           ∧ mover.phase = .moving ∧ mover.issued = true ∧ mover.stopped = false
           ∧ s.tray.request = some (goingTo 1) ∧ (goingTo 1).stopRequested = false ∧ s.tray.state = .rotate) := by
  and_intros <;> decide

theorem witness_ApplyWhenTaken :
    let table := onSet fun st => { st with curveBase := 0x5000 }
    let load (s : State) (c : CurveSel) : State :=
      { s with lamp := { s.lamp with loader := some { curve := c, index := 32 } } }
    let a := taking codeApply 0 0 0
    (TakesNext (a calm) cmdw codeApply ∧ calm.lamp.loader = none ∧ calm.hdr.settings.curveBase = 0)
      ∧ (TakesNext (a table) cmdw codeApply ∧ table.lamp.loader = none ∧ table.hdr.settings.curveBase ≠ 0
          ∧ table.lamp.curve ≠ .loaded table.hdr.pend.sel)
      ∧ (TakesNext (a (load table .a)) cmdw codeApply ∧ (load table .a).hdr.pend.sel = .a)
      ∧ (TakesNext (a (load table .b)) cmdw codeApply ∧ CurveSel.b ≠ table.hdr.pend.sel)
      ∧ (TakesNext (a (load calm .b)) cmdw codeApply ∧ CurveSel.b ≠ calm.hdr.pend.sel
          ∧ calm.hdr.settings.curveBase = 0) := by
  and_intros <;> decide

theorem witness_FocusAndInjectWhenTaken :
    (let s := taking codeFocus 0 9 0 (onThermal fun h => { h with power := .standby, duty := 0 })
     TakesNext s cmdw codeFocus ∧ s.thermal.power ≠ .normal)
      ∧ (let s := taking codeFocus 1 4001 0 calm
         TakesNext s cmdw codeFocus ∧ s.thermal.power = .normal ∧ s.remote.focus = none)
      ∧ (let s := taking codeFocus 0 9 0 (focused (run .panel 4000000) calm)
         TakesNext s cmdw codeFocus ∧ s.thermal.power = .normal ∧ ∀ f ∈ s.remote.focus, f.owner ≠ .command)
      ∧ (let s := taking codeInject 16 15 4095 calm
         TakesNext s cmdw codeInject ∧ 15 < s.hdr.record.p1.toNat)
      ∧ (let s := taking codeInject 15 15 4095 (onThermal fun h => { h with power := .standby, duty := 0 })
         TakesNext s cmdw codeInject
           ∧ ¬(15 < s.hdr.record.p1.toNat ∨ 15 < s.hdr.record.p2.toNat ∨ 4095 < s.hdr.record.p3.toNat)
           ∧ s.thermal.power ≠ .normal)
      ∧ (let s := taking codeInject 14 10 0 calm
         TakesNext s cmdw codeInject ∧ s.thermal.power = .normal ∧ addressed s.hdr.record.p1.toNat s = false
           ∧ s.hdr.settings.foreignLog = false)
      ∧ (let s := taking codeInject 14 15 4095 (ring (onSet fun st => { st with foreignLog := true }))
         TakesNext s cmdw codeInject ∧ s.thermal.power = .normal ∧ addressed s.hdr.record.p1.toNat s = false
           ∧ s.hdr.settings.foreignLog = true ∧ logRoom s ∧ s.hdr.settings.ringBase ≠ 0)
      ∧ (let s := taking codeInject 15 10 4095 calm
         TakesNext s cmdw codeInject
           ∧ ¬(15 < s.hdr.record.p1.toNat ∨ 15 < s.hdr.record.p2.toNat ∨ 4095 < s.hdr.record.p3.toNat)
           ∧ s.thermal.power = .normal ∧ addressed s.hdr.record.p1.toNat s = true
           ∧ s.hdr.record.p2.toNat = 10 ∧ logRoom s) := by and_intros <;> decide

/-- An INJECT to every unit that is taken from here. -/
abbrev injects (p2 p3 : Word) (s : State) : Prop :=
  let u := taking codeInject 15 p2 p3 s
  TakesNext u cmdw codeInject ∧ ¬(15 < (15 : Word).toNat ∨ 15 < p2.toNat ∨ 4095 < p3.toNat)
    ∧ u.thermal.power = .normal ∧ addressed 15 u = true ∧ logRoom u

theorem witness_FocusAndInjectWhenTaken_cues :
    injects 15 4095 calm ∧ injects 9 0 calm
      ∧ (injects 8 0 (playing .playing) ∧ (playing .playing).clip.playing = some aClip
          ∧ stopsPlainly (playing .playing).clip)
      ∧ (injects 7 63 (clipTable calm) ∧ clipMisses 63 0 (taking codeInject 15 7 63 (clipTable calm)))
      ∧ (injects 3 48 calm ∧ SeqKind.code .goto = 3 ∧ calm.tray.n ≤ 48)
      ∧ (injects 3 47 (queued 7 (doing fading calm)) ∧ 47 < calm.tray.n
          ∧ busyAction (taking codeInject 15 3 47 (queued 7 (doing fading calm))) fading
          ∧ (queued 7 (doing fading calm)).cx.queue.length < 8)
      ∧ (injects 6 0 (queued 8 (doing fading calm)) ∧ SeqKind.code .lamp = 6
          ∧ busyAction (taking codeInject 15 6 0 (queued 8 (doing fading calm))) fading
          ∧ 8 ≤ (queued 8 (doing fading calm)).cx.queue.length)
      ∧ (injects 5 0xF00 calm ∧ calm.cx.action = none) := by and_intros <;> decide

/-- The descriptor of clip 63, one sample long. -/
def cutRecord : EntryData :=
  { kind := .clip, key := 63, addr := 0x21F8, copy := [0x0100, 0, 1, 0x0040], pins := 0 }

/-- A CUT of clip 63 is taken by a player in this state, with this entry 15. -/
def cutting (st : PlayerState) (e : WatchEntry) : State :=
  let s := clipTable (playing st)
  taking codeClip 63 0 0 { s with shadow := s.shadow.setEntry 15 e }

/-- The premises that the clauses of such a CUT share. -/
abbrev cuts (s : State) : Prop :=
  TakesNext s cmdw codeClip ∧ s.hdr.record.p1.toNat = 63 ∧ s.hdr.record.p2 = 0 ∧ s.thermal.power = .normal
    ∧ s.clip.start = none ∧ s.clip.requests = [] ∧ s.clip.queue = [] ∧ s.hdr.settings.clipBase ≠ 0

theorem witness_ClipCommandsWhenTaken :
    (TakesNext (taking codeClip 64 0 0 calm) cmdw codeClip ∧ 63 < (64 : Word).toNat)
      ∧ (let s := taking codeClip 63 0 0 (onThermal fun h => { h with power := .standby, duty := 0 })
         TakesNext s cmdw codeClip ∧ s.hdr.record.p1.toNat ≤ 63 ∧ s.thermal.power ≠ .normal)
      ∧ (let s := taking codeClip 63 1 0 calm
         TakesNext s cmdw codeClip ∧ s.hdr.record.p1.toNat ≤ 63 ∧ s.thermal.power = .normal ∧ s.hdr.record.p2 ≠ 0
           ∧ s.clip.start = none ∧ s.clip.requests = [] ∧ s.hdr.settings.clipBase = 0)
      ∧ (let s := taking codeClip 63 0 0 (clipTable calm)
         TakesNext s cmdw codeClip ∧ s.hdr.record.p1.toNat ≤ 63 ∧ s.hdr.record.p2 = 0 ∧ clipMisses 63 0 s)
      ∧ (let s := cutting .idle (.valid cutRecord true 0)
         cuts s ∧ s.clip.state = .idle ∧ s.shadow.find .clip 63 = some 15
           ∧ s.shadow.entry 15 = .valid cutRecord true 0 ∧ (descriptorIn 0x0100 0 1 0x0040).passes
           ∧ noLookupWaits { s with shadow := (s.shadow.pinned 15).released 15 })
      ∧ (let s := cutting .playing .free
         cuts s ∧ s.clip.state = .playing ∧ s.clip.playing = some aClip ∧ s.shadow.find .clip 63 = none
           ∧ s.shadow.victim = some 0)
      ∧ (let s := cutting .playing (.filling { cutRecord with copy := [0x0100] })
         cuts s ∧ s.clip.state = .playing ∧ s.clip.playing = some aClip ∧ s.shadow.find .clip 63 = some 15
           ∧ (s.shadow.entry 15).isValid = false)
      ∧ (let s := cutting .playing (.valid cutRecord false 0)
         cuts s ∧ s.clip.state = .playing ∧ s.clip.playing = some aClip ∧ s.shadow.find .clip 63 = some 15
           ∧ s.shadow.entry 15 = .valid cutRecord false 0 ∧ cutRecord.copy = [0x0100, 0, 1, 0x0040]
           ∧ (descriptorIn 0x0100 0 1 0x0040).passes)
      ∧ (let s := taking codeClipStop 0 0 0 calm
         TakesNext s cmdw codeClipStop ∧ s.clip.state = .idle ∧ s.clip.start = none ∧ s.clip.requests = []
           ∧ s.clip.queue = [])
      ∧ (let s := taking codeClipStop 0 0 0 (playing .playing)
         s.clip.playing = some aClip ∧ TakesNext s cmdw codeClipStop ∧ s.clip.state = .playing
           ∧ s.clip.priming = false ∧ s.clip.start = none ∧ s.clip.requests = [] ∧ s.clip.queue = []) := by and_intros <;> decide

/-- A record that is CLOSING, with result words yet to land. -/
def closing (l : List Nat) : CommandRecord := { record .closing codeNop 0 0 0 with handed := true, toLand := l }

theorem witness_StatusBlockWritesLand :
    (let a : RamAccess := { ramOf .statusWriter 134 0 with afterHand := true }
     let s := inRam a (withRecord (closing [3, 4, 5]) calm)
     Settled s ∧ s.port.ram = some a ∧ a.who = .statusWriter ∧ a.addr = 128 + 2 * 3 ∧ a.afterHand = true
       ∧ 3 ∉ s.sw.unwritten ∧ s.hdr.record.handed = true ∧ 3 ∈ s.hdr.record.toLand
       ∧ removeIndex 3 s.hdr.record.toLand ≠ [])
      ∧ (let a : RamAccess := { ramOf .statusWriter 138 0 with afterHand := true }
         let s := inRam a (withRecord (closing [5]) calm)
         Settled s ∧ s.port.ram = some a ∧ a.addr = 128 + 2 * 5 ∧ a.afterHand = true ∧ 5 ∉ s.sw.unwritten
           ∧ s.hdr.record.handed = true ∧ 5 ∈ s.hdr.record.toLand ∧ removeIndex 5 s.hdr.record.toLand = [])
      ∧ (let a := ramOf .statusWriter 128 0
         let s := inRam a (withRecord (closing []) calm)
         Settled s ∧ s.port.ram = some a ∧ a.afterHand = false ∧ 0 ∉ s.sw.unwritten ∧ bitOf a.data 2 = false
           ∧ s.hdr.record.state = .closing ∧ s.cx.pendingCmd = false)
      ∧ (let a := ramOf .statusWriter 128 0
         let s := inRam a (withRecord { record .accepted codeNop 0 0 0 with discardMark := true } calm)
         Settled s ∧ s.port.ram = some a ∧ a.afterHand = false ∧ 0 ∉ s.sw.unwritten ∧ bitOf a.data 2 = false
           ∧ s.hdr.record.state = .accepted ∧ s.hdr.record.discardMark = true ∧ s.cx.pendingCmd = false)
      ∧ (let s := inRam cmdw (withRecord { record .accepted codeNop 0 0 0 with discardMark := true } calm)
         Settled s ∧ s.port.ram = some cmdw ∧ cmdw.afterHand = false ∧ 0 ∉ s.sw.unwritten
           ∧ bitOf cmdw.data 2 = true ∧ s.hdr.record.state = .accepted ∧ s.hdr.record.discardMark = true)
      ∧ (let a := ramOf .statusWriter 132 0x8001
         let s := inRam a calm
         Settled s ∧ s.port.ram = some a ∧ a.who = .statusWriter ∧ a.afterHand = false ∧ a.addr = 132
           ∧ 2 ∉ s.sw.unwritten)
      ∧ (let a := ramOf .statusWriter 254 5
         let s := inRam a { calm with sw := { calm.sw with unwritten := [63], rdy := false } }
         Settled s ∧ s.port.ram = some a ∧ a.who = .statusWriter ∧ a.afterHand = false ∧ a.addr = 128 + 2 * 63
           ∧ 63 ∈ s.sw.unwritten ∧ removeIndex 63 s.sw.unwritten = [])
      ∧ (let a := ramOf .statusWriter 128 0
         let s := inRam a { calm with sw := { calm.sw with unwritten := [0, 1], rdy := false } }
         Settled s ∧ s.port.ram = some a ∧ a.addr = 128 + 2 * 0 ∧ 0 ∈ s.sw.unwritten
           ∧ (s.hdr.record.state = .free ∨ s.hdr.record.state = .active))
      ∧ (let a := ramOf .statusWriter 132 0x8001
         let s := inRam a { calm with sw := { calm.sw with unwritten := [2], rdy := false } }
         Settled s ∧ s.port.ram = some a ∧ a.addr = 128 + 2 * 2 ∧ 2 ∈ s.sw.unwritten
           ∧ a.data &&& s.hdr.settings.irqMask = 0) := by and_intros <;> decide
/-! ## Header settings -/

theorem witness_SettingsTakeEffect : HostReady calm := by decide

theorem witness_ThermalSettingsTakeEffect : HostReady calm := by decide

theorem witness_CueOptionsTakeEffect : HostReady calm := by decide

/-- A lamp of 60 minutes, reported or not. -/
def anHour (reported : Bool) : State := onLamp fun l => { l with minutes := 60, lifeReported := reported }

theorem witness_LimitsAndMaskTakeEffect :
    (HostReady calm ∧ (writtenWord 21 (.low 120) calm).toNat = 120 ∧ calm.hdr.settings.dwellLimit = 120)
      ∧ (writtenWord 21 (.word 0) calm).toNat = 0
      ∧ (HostReady (dwelling 10000000) ∧ (writtenWord 21 (.word 1) (dwelling 10000000)).toNat = 1
          ∧ 10 * 1000000 ≤ (dwelling 10000000).thermal.dwellUs)
      ∧ (HostReady (dwelling 899999999) ∧ (writtenWord 21 (.word 901) (dwelling 899999999)).toNat = 901
          ∧ (dwelling 899999999).thermal.dwellUs < 900 * 1000000)
      ∧ ((writtenWord 36 (.word 0) calm).toNat = 0 ∧ calm.lamp.minutes < (writtenWord 36 (.word 1) calm).toNat * 60)
      ∧ (HostReady (anHour true) ∧ (writtenWord 36 (.word 1) (anHour true)).toNat * 60 ≤ (anHour true).lamp.minutes
          ∧ (anHour true).lamp.lifeReported = true)
      ∧ (HostReady (anHour false) ∧ (writtenWord 36 (.word 1) (anHour false)).toNat * 60 ≤ (anHour false).lamp.minutes
          ∧ (anHour false).lamp.lifeReported = false) := by and_intros <;> decide

/-- The image of a header word set. -/
def imaged (i : Nat) (v : Word) (s : State) : State :=
  { s with hdr := { s.hdr with image := s.hdr.image.setIfInBounds i v } }

/-- A curve region at 0x03000, with this load in flight. -/
def curved (ld : Option Loading) : State :=
  let s := onSet fun st => { st with curveBase := 0x3000 }
  { s with lamp := { s.lamp with loader := ld } }

theorem witness_BaseIsChecked :
    (let s := imaged 24 0x00FE calm
     HostReady s ∧ s.hdr.settings.regionOk .slot 0x000FE = false
       ∧ (writtenWord 25 (.word 0) s).toNat * 65536 + (s.hdr.imageOf 24).toNat = 0x000FE)
      ∧ (let s := imaged 24 0x0100 calm
         HostReady s ∧ s.hdr.settings.regionOk .slot 0x00100 = true ∧ (0x00100 : Nat) ≠ s.hdr.settings.base .slot
           ∧ (writtenWord 25 (.word 0) s).toNat * 65536 + (s.hdr.imageOf 24).toNat = 0x00100)
      ∧ (let s := clipTable calm
         HostReady s ∧ s.hdr.settings.regionOk .clip 0 = true ∧ 0 ≠ s.hdr.settings.base .clip
           ∧ s.shadow.fillingKeys .clip = [] ∧ noLookupWaits s
           ∧ (writtenWord 27 (.word 0) s).toNat * 65536 + (s.hdr.imageOf 26).toNat = 0)
      ∧ (let s := imaged 28 0xFF7C calm
         HostReady s ∧ s.hdr.settings.regionOk .curve 0xFFF7C = true ∧ 0xFFF7C ≠ s.hdr.settings.base .curve
           ∧ s.lamp.loader = none
           ∧ (writtenWord 29 (.word 0xF) s).toNat * 65536 + (s.hdr.imageOf 28).toNat = 0xFFF7C)
      ∧ (let u := onLamp fun l => { l with loader := some { curve := .b, index := 33 } }
         let s := imaged 28 0x0100 u
         HostReady s ∧ s.hdr.settings.regionOk .curve 0x00100 = true ∧ 0x00100 ≠ s.hdr.settings.base .curve
           ∧ s.lamp.loader = some { curve := .b, index := 33 }
           ∧ (writtenWord 29 (.word 0) s).toNat * 65536 + (s.hdr.imageOf 28).toNat = 0x00100)
      ∧ (let s := curved (some { curve := .a, index := 0 })
         HostReady s ∧ s.hdr.settings.regionOk .curve 0 = true ∧ 0 ≠ s.hdr.settings.base .curve
           ∧ s.lamp.loader = some { curve := .a, index := 0 }
           ∧ (writtenWord 29 (.word 0) s).toNat * 65536 + (s.hdr.imageOf 28).toNat = 0)
      ∧ (let s := imaged 30 0xFE00 calm
         HostReady s ∧ s.hdr.settings.regionOk .ring 0xFFE00 = true ∧ 0xFFE00 ≠ s.hdr.settings.base .ring
           ∧ (writtenWord 31 (.word 0xF) s).toNat * 65536 + (s.hdr.imageOf 30).toNat = 0xFFE00) := by
  and_intros <;> decide

theorem witness_RingSizeAndRingRd :
    (HostReady calm ∧ (writtenWord 32 (.word 4097) calm).toNat = 4097 ∧ 4096 ≠ calm.hdr.settings.ringSize
        ∧ calm.hdr.settings.sizeOk 4096 = true)
      ∧ (HostReady (ring calm) ∧ (writtenWord 32 (.word 65) (ring calm)).toNat = 65
          ∧ (ring calm).hdr.settings.sizeOk 65 = false)
      ∧ (calm.hdr.settings.ringSize ≤ (writtenWord 33 (.word 64) calm).toNat)
      ∧ ((writtenWord 33 (.word 63) calm).toNat < calm.hdr.settings.ringSize) := by and_intros <;> decide

/-! ## Other accesses of the host -/

theorem witness_WatchedWriteIsCompared :
    (HostReady calm ∧ 128 ≤ (128 : WordAddr).toNat ∧ inRing calm.hdr.settings 128 = false)
      ∧ (HostReady (ring calm) ∧ 128 ≤ (0x7FEFF : WordAddr).toNat ∧ inRing (ring calm).hdr.settings 0x7FEFF = false)
      ∧ (let s := curved (some { curve := .b, index := 5 })
         HostReady s ∧ 128 ≤ (0x1841 : WordAddr).toNat ∧ inRing s.hdr.settings 0x1841 = false) := by
  and_intros <;> decide

theorem witness_PlainAndProtectedWrites :
    (HostReady calm ∧ otherHeaderWrite 63 (.word 1) = true ∧ otherHeaderWrite 0 (.high 1) = true)
      ∧ (inStatusBlock 64 = true ∧ inStatusBlock 127 = true)
      ∧ (HostReady (ring calm) ∧ 128 ≤ (0x7FF00 : WordAddr).toNat ∧ inRing (ring calm).hdr.settings 0x7FF00 = true
          ∧ inRing (ring calm).hdr.settings 0x7FFFF = true) := by decide

/-- The host, the Status Writer and the Record Shadow ask for the RAM, with the guard count at g. -/
def asking (g : Nat) (s : State) : State :=
  let k : HostAccess := { hostRead 64 with inRam := false }
  { s with port := { s.port with
    access := some k, guard := g
    reqs := { s.port.reqs with statusWriter := some 0, recordShadow := some 0x1004 } } }

theorem witness_StoreChangesItsBytesOnly :
    (Memory.wf [] = true ∧ Memory.wf [(0, 1), (1048575, 0xFF)] = true)
      ∧ ((.logWriter : Requester) ≠ .host ∧ (.logWriter : Requester) ≠ .clipPlayer)
      ∧ calm.port.access = none
      ∧ ({ calm.port with access := some (hostRead 79) } : Port).access = some (hostRead 79)
      ∧ (let s := asking 7 calm
         s.port.ram = none ∧ choose s.port s.clip.urgent = some .host)
      ∧ (let s := asking 8 calm
         s.port.ram = none ∧ choose s.port s.clip.urgent = some .statusWriter)
      ∧ (let s := inRam cmdw (asking 8 calm)
         s.port.ram ≠ none)
      ∧ choose calm.port calm.clip.urgent = none := by and_intros <;> decide

/-- A host access in the RAM, whose word is 7. -/
def inAccess (k : HostAccess) : State :=
  { calm with port := { calm.port with access := some k, ram := some (ramOf .host 0 7) } }

theorem witness_ReadsAndTheirNotices :
    HostReady calm
      ∧ (Settled (inRam cmdw calm) ∧ (inRam cmdw calm).port.access = none ∧ (inRam cmdw calm).port.ram = some cmdw)
      ∧ (Settled (inAccess (hostRead 64)) ∧ (inAccess (hostRead 64)).port.access = some (hostRead 64)
          ∧ (hostRead 64).inRam = true ∧ (inAccess (hostRead 64)).port.ram = some (ramOf .host 0 7)
          ∧ (ramOf .host 0 7).who = .host
          ∧ (inAccess (hostRead 64)).port.backlog = [] ∧ (hostRead 64).kind = .read)
      ∧ (Settled (inAccess (hostRead 66)) ∧ (hostRead 66).kind = .read ∧ (hostRead 66).addr.toNat = 66)
      ∧ (Settled (inAccess (hostRead 65)) ∧ (hostRead 65).addr.toNat ≠ 64 ∧ (hostRead 65).addr.toNat ≠ 66)
      ∧ (let k : HostAccess := { hostRead 64 with kind := .write (.low 1), cls := .protectedArea }
         Settled (inAccess k) ∧ (inAccess k).port.access = some k ∧ k.inRam = true ∧ k.kind = .write (.low 1)) := by
  and_intros <;> decide

/-- The Log Writer with k words of a record landed. -/
def logging (k : Nat) : State :=
  { ring calm with log := { calm.log with writing := some k, staging := [.cue (plainFlags false) 0 10 0 0] } }

/-- A record of a cue. -/
def aRecord : LogRecord := .cue (plainFlags false) 0 10 0 0

/-- The last word of the first of n staged records is landing, with the write index at w. -/
def staged (n w : Nat) (s : State) : State :=
  { ring s with log := { s.log with writing := some 3, staging := List.replicate n aRecord, w := w } }

theorem witness_CorrectionsAndLogWordsLand :
    (let a := ramOf .headerMonitor 126 5
     Settled (inRam a calm) ∧ (inRam a calm).port.ram = some a ∧ a.who = .headerMonitor)
      ∧ (let a := ramOf .headerMonitor 126 5
         let s := inRam a (logging 3)
         Settled s ∧ s.port.ram = some a ∧ s.log.writing = some 3
           ∧ s.log.staging = .cue (plainFlags false) 0 10 0 0 :: [] ∧ 3 < 4)
      ∧ (let a : RamAccess := { ramOf .logWriter 0xFFE00 5 with void := true }
         Settled (inRam a calm) ∧ (inRam a calm).port.ram = some a ∧ a.who = .logWriter ∧ a.void = true)
      ∧ (let a := ramOf .logWriter 0xFFE04 5
         Settled (inRam a (logging 2)) ∧ (inRam a (logging 2)).port.ram = some a ∧ a.who = .logWriter
           ∧ a.void = false ∧ (logging 2).log.writing = some 2 ∧ 2 < 3)
      ∧ (let a := ramOf .logWriter 0xFFE06 5
         Settled (inRam a (logging 3)) ∧ (inRam a (logging 3)).port.ram = some a ∧ a.who = .logWriter
           ∧ a.void = false ∧ (logging 3).log.writing = some 3 ∧ (logging 3).log.staging.length ≤ 1)
      ∧ (let a := ramOf .logWriter 0xFFE06 5
         let s := inRam a (staged 3 61 calm)
         Settled s ∧ s.port.ram = some a ∧ s.log.writing = some 3 ∧ s.hdr.settings.ringBase ≠ 0
           ∧ s.log.staging = aRecord :: aRecord :: [aRecord]
           ∧ ¬(((s.log.w + 1) % s.hdr.settings.ringSize + 1) % s.hdr.settings.ringSize = s.log.pendingRd.getD s.log.rd))
      ∧ (let a := ramOf .logWriter 0xFFE06 5
         let s := inRam a (staged 2 62 calm)
         Settled s ∧ s.port.ram = some a ∧ s.log.writing = some 3 ∧ s.hdr.settings.ringBase ≠ 0
           ∧ s.log.staging = [aRecord, aRecord]
           ∧ ((s.log.w + 1) % s.hdr.settings.ringSize + 1) % s.hdr.settings.ringSize
               = s.log.pendingRd.getD s.log.rd) := by and_intros <;> decide

/-! ## The tray -/

theorem witness_DarkEventIssuesTheRequest :
    (let s := onLamp fun l => { l with darkSent := true }
     Settled s ∧ s.lamp.darkSent = true ∧ s.cx.action = none)
      ∧ (let x : Action := { action (.goto 24) (.command 9) .moving with window := true }
         let s := doing x (ready (onLamp fun l => { l with darkSent := true, window := true }))
         Settled s ∧ s.lamp.darkSent = true ∧ s.cx.action = some x ∧ x.phase = .moving ∧ x.window = true
           ∧ x.issued = false ∧ x.request = .goto 24 ∧ s.tray.state = .ready ∧ s.tray.request = none
           ∧ s.lamp.dark = true ∧ 24 < s.tray.n ∧ s.tray.slot < s.tray.n ∧ s.hdr.settings.slotBase = 0
           ∧ s.tray.topOn = false ∧ s.tray.shownPin = none)
      ∧ (let x : Action := { action (.goto 24) (.command 9) .moving with window := true }
         let s := slideShown true (doing x (ready (onLamp fun l => { l with darkSent := true, window := true })))
         Settled s ∧ s.lamp.darkSent = true ∧ s.lamp.dark = true
           ∧ letsGo { s with
              lamp := { s.lamp with darkSent := false }
              cx := { s.cx with action := some { x with issued := true } }
              tray := s.tray.lifted (TrayRequest.planned (.goto 24) true (Plan.goto 48 0 24)) s.now }) := by
  and_intros <;> decide

/-- The tray in a state with its time limit begun at 0. -/
def trayIn (st : TrayState) (f : Tray → Tray) : State := onTray fun t => f { t with state := st, known := true }

/-- The tray in a step of homing. -/
def homing (st : HomingStep) (f : Tray → Tray) : State := trayIn .homing fun t => f { t with homingStep := st }

theorem witness_ArmTopEndsTheLift :
    (let s := trayIn .lift fun t => { t with request := some (goingTo 1) }
     Settled s ∧ s.tray.state = .lift ∧ s.tray.lowering = false ∧ s.tray.stopping = false ∧ s.tray.toGo ≠ 0)
      ∧ (let s := trayIn .lift fun t => { t with request := some (goingTo 0) }
         Settled s ∧ s.tray.state = .lift ∧ s.tray.lowering = false ∧ s.tray.toGo = 0)
      ∧ (let s := trayIn .lift fun t => { t with lowering := true, request := some (goingTo 1) }
         Settled s ∧ s.tray.state = .lift ∧ s.tray.lowering = true)
      ∧ (let s := homing .lift id
         Settled s ∧ s.tray.state = .homing ∧ s.tray.homingStep = .lift ∧ s.tray.lowering = false)
      ∧ (Settled calm ∧ calm.tray.state ≠ .lift ∧ calm.tray.state ≠ .homing) := by and_intros <;> decide

/-- The transport in a state since 0, at t, with that action's request. -/
def moving (time : Nat) (st : TrayState) (f : Tray → Tray) : State :=
  doing mover (State.at time (trayIn st fun t => f { t with request := some (goingTo 1) }))

theorem witness_ArmBottomEndsTheDrop :
    (let s := trayIn .drop fun t => { t with request := some (goingTo 0) }
     Settled s ∧ s.tray.state = .drop)
      ∧ (let s := homing .drop id
         Settled s ∧ s.tray.state = .homing ∧ s.tray.homingStep = .drop)
      ∧ (let s := trayIn .lift fun t => { t with lowering := true, request := some (goingTo 1) }
         Settled s ∧ s.tray.state = .lift ∧ s.tray.lowering = true ∧ s.tray.topOn = false)
      ∧ (let s := trayIn .lift fun t => { t with lowering := true, topOn := true, request := some (goingTo 1) }
         Settled s ∧ s.tray.state = .lift ∧ s.tray.lowering = true ∧ s.tray.topOn = true ∧ s.tray.stopping = false
           ∧ s.tray.toGo ≠ 0)
      ∧ (let s := doing mover (trayIn .recover fun t => { t with request := some (goingTo 1) })
         Settled s ∧ s.tray.state = .recover ∧ awaitsTray s mover (goingTo 1))
      ∧ (let s := homing .lower id
         Settled s ∧ s.tray.state = .homing ∧ s.tray.homingStep = .lower ∧ s.tray.topOn = false ∧ s.tray.shownPin = none)
      ∧ (let s := slideShown true (homing .lower id)
         Settled s ∧ s.tray.state = .homing ∧ s.tray.homingStep = .lower ∧ s.tray.topOn = false
           ∧ letsGo { s with tray := { s.tray with
              bottomOn := true, homingStep := .lift, retry := false, lowering := false, timerStart := s.now } })
      ∧ (Settled calm ∧ calm.tray.state ≠ .lift ∧ calm.tray.state ≠ .homing ∧ calm.tray.state ≠ .drop
          ∧ calm.tray.state ≠ .recover) := by and_intros <;> decide

theorem witness_TrayTimeLimits :
    (let s := moving 800000 .lift id
     Settled s ∧ s.tray.lifting = true ∧ 800000 ≤ s.now - s.tray.timerStart ∧ s.tray.retry = false
       ∧ s.tray.bottomOn = false)
      ∧ (let s := moving 800000 .lift fun t => { t with retry := true }
         Settled s ∧ s.tray.lifting = true ∧ 800000 ≤ s.now - s.tray.timerStart ∧ s.tray.retry = true
           ∧ awaitsTray s mover (goingTo 1))
      ∧ (let s := moving 799999 .lift id
         Settled s ∧ s.now - s.tray.timerStart < 800000)
      ∧ (let s := moving 600000 .homing fun t => { t with homingStep := .lower }
         Settled s ∧ s.tray.loweringNow = true ∧ 600000 ≤ s.now - s.tray.timerStart ∧ awaitsTray s mover (goingTo 1))
      ∧ (let s := moving 599999 .homing fun t => { t with homingStep := .lower }
         Settled s ∧ s.now - s.tray.timerStart < 600000)
      ∧ (let s := moving 400000 .rotate id
         Settled s ∧ s.tray.turning = true ∧ 400000 ≤ s.now - s.tray.timerStart ∧ awaitsTray s mover (goingTo 1))
      ∧ (let s := moving 399999 .rotate id
         Settled s ∧ s.now - s.tray.timerStart < 400000)
      ∧ (let s := moving 600000 .drop id
         Settled s ∧ s.tray.dropping = true ∧ 600000 ≤ s.now - s.tray.timerStart ∧ awaitsTray s mover (goingTo 1))
      ∧ (let s := moving 599999 .drop id
         Settled s ∧ s.now - s.tray.timerStart < 600000)
      ∧ (let s := moving 800000 .recover id
         Settled s ∧ s.tray.state = .recover ∧ 800000 ≤ s.now - s.tray.timerStart ∧ awaitsTray s mover (goingTo 1))
      ∧ (let s := moving 799999 .recover id
         Settled s ∧ s.now - s.tray.timerStart < 800000) := by and_intros <;> decide

/-- A tray that rotates forward from a slot, with positions to go. -/
def rotating (slot toGo : Nat) (stop : Bool) : State :=
  trayIn .rotate fun t => { t with
    slot := slot
    request := some { asked (.goto 1) { dir := .forward, dest := 1, toGo := toGo } with stopRequested := stop } }

/-- That tray's request. -/
def turn (toGo : Nat) (stop : Bool) : TrayRequest :=
  { asked (.goto 1) { dir := .forward, dest := 1, toGo := toGo } with stopRequested := stop }

theorem witness_IndexPulse :
    (let s := rotating 47 2 false
     Settled s ∧ s.tray.state = .rotate ∧ s.tray.wait = .none ∧ s.tray.request = some (turn 2 false)
       ∧ (turn 2 false).plan = some { dir := .forward, dest := 1, toGo := 2 } ∧ (s.tray.slot + 1) % s.tray.n = 0
       ∧ (turn 2 false).stopRequested = false ∧ (2 : Nat) - 1 ≠ 0)
      ∧ (let s := rotating 0 1 false
         Settled s ∧ s.tray.state = .rotate ∧ s.tray.wait = .none ∧ s.tray.request = some (turn 1 false)
           ∧ (1 : Nat) - 1 = 0)
      ∧ (let s := rotating 0 9 true
         Settled s ∧ s.tray.request = some (turn 9 true) ∧ (turn 9 true).stopRequested = true)
      ∧ (let s := rotating 46 3 false
         Settled s ∧ s.tray.request = some (turn 3 false) ∧ (turn 3 false).kind = .goto 1
           ∧ (s.tray.slot + 1) % s.tray.n ≠ 0)
      ∧ (let r : TrayRequest := { turn 3 true with kind := .advance 3, skipping := true }
         let s := onTray fun t => { t with state := .rotate, known := true, slot := 46, request := some r }
         Settled s ∧ s.tray.wait = .none ∧ s.tray.request = some r ∧ r.stopRequested = true ∧ r.kind = .advance 3
           ∧ r.plan = some { dir := .forward, dest := 1, toGo := 3 } ∧ (s.tray.slot + 1) % s.tray.n ≠ 0)
      ∧ (let r : TrayRequest := { turn 1 false with kind := .advance 3 }
         let s := onTray fun t => { t with state := .rotate, known := true, slot := 46, request := some r }
         Settled s ∧ s.tray.wait = .none ∧ s.tray.request = some r ∧ r.stopRequested = false ∧ r.kind = .advance 3
           ∧ r.skipping = false ∧ r.plan = some { dir := .forward, dest := 1, toGo := 1 }
           ∧ (s.tray.slot + 1) % s.tray.n ≠ 0 ∧ s.tray.destPin = none ∧ s.hdr.settings.slotBase = 0)
      ∧ (let r : TrayRequest := { turn 3 false with kind := .advance 3, skipping := true, found := [1], examined := 46 }
         let s := slotTable true (onTray fun t => { t with state := .rotate, known := true, slot := 46, request := some r })
         Settled s ∧ s.tray.wait = .none ∧ s.tray.request = some r ∧ r.stopRequested = false ∧ r.kind = .advance 3
           ∧ r.skipping = true ∧ r.plan = some { dir := .forward, dest := 1, toGo := 3 }
           ∧ (s.tray.slot + 1) % s.tray.n ≠ 0 ∧ r.examined < s.tray.n - 1
           ∧ slotMisses (nextPos s.tray.n r.kind.dir 0) 0 s)
      ∧ (let s := moving 0 .homing fun t => { t with homingStep := .rotate }
         Settled s ∧ s.tray.state = .homing ∧ s.tray.homingStep = .rotate ∧ s.tray.homingCount + 1 ≠ s.tray.n + 2)
      ∧ (let s := moving 0 .homing fun t => { t with homingStep := .rotate, homingCount := 49 }
         Settled s ∧ s.tray.state = .homing ∧ s.tray.homingStep = .rotate
           ∧ s.tray.homingCount + 1 = s.tray.n + 2 ∧ awaitsTray s mover (goingTo 1))
      ∧ (Settled calm ∧ calm.tray.turning = false) := by and_intros <;> decide

/-- The tray in SETTLE since 0, with its request in hand, over slot 1. -/
def settling (gate : Gate) (slot : Nat) (r : TrayRequest) : State :=
  trayIn .settle fun t => { t with
    gate := gate, slot := slot, bottomOn := true, request := some r
    destPin := if gate = .loaded then some slot else none }

/-- The settling over slot 1 is over, with this action waiting. -/
def settled (gate : Gate) (x : Action) (s : State) : State :=
  let u := doing x (State.at 150000 s)
  { u with tray := (settling gate 1 (goingTo 1)).tray }

/-- The actions that wait for a change: one with nothing to restore, one that was stopped, one with a level to restore. -/
def movers : List Action := [mover, { mover with stopped := true }, { mover with restore := some 600 }]

/-- Of these, the ones that hand a linked clip on. -/
def goingOn : List Action := [mover, { mover with restore := some 600 }]

/-- The pin of the destination is that of the slide shown. -/
def shown (s : State) : State :=
  { s with tray := Tray.answered { s.tray with state := .ready, shownPin := s.tray.destPin, destPin := none } }

/-- The change has ended with the pin of the destination released. -/
def rested (s : State) : State :=
  let u := releaseDest s
  { u with tray := Tray.answered { u.tray with state := .ready } }

/-- A clip table, and a slot record of this slot that is held in entry i with this pin count and links clip 5. -/
def linking (slot i pins : Nat) (s : State) : State :=
  let u := clipTable s
  { u with
    hdr := { u.hdr with settings := { u.hdr.settings with slotBase := 0x1000 } }
    shadow := { u.shadow.setEntry i (.valid {
      kind := .slot, key := slot, addr := 0x1000 + 4 * slot, copy := [0, 0x85], pins := pins } false 0) with
        useStamp := 1 } }

/-- The record of this slot is being underway in entry i, with this pin count. -/
def underway (slot i pins : Nat) (s : State) : State :=
  { s with shadow := { s.shadow.setEntry i (.filling {
    kind := .slot, key := slot, addr := 0x1000 + 4 * slot, copy := [], pins := pins }) with fetchList := [i] } }

theorem witness_SettlingEndsTheChange :
    (let s := State.at 149999 (settling .loaded 1 (goingTo 1))
     Settled s ∧ s.tray.settling = true ∧ s.now - s.tray.timerStart < 150000)
      ∧ (∀ x ∈ movers,
         let s := settled .loaded x calm
         Settled s ∧ s.tray.state = .settle ∧ 150000 ≤ s.now - s.tray.timerStart ∧ awaitsTray s x (goingTo 1)
           ∧ s.tray.gate = .loaded ∧ s.tray.destPin = some s.tray.slot ∧ (shown s).linkedClip = none
           ∧ s.thermal.power = .normal)
      ∧ (∀ x ∈ goingOn,
         let s := settled .loaded x (linking 1 0 1 calm)
         Settled s ∧ awaitsTray s x (goingTo 1) ∧ s.tray.destPin = some s.tray.slot ∧ x.stopped = false
           ∧ (shown s).linkedClip = some 5 ∧ clipMisses 5 1 (shown s))
      ∧ (∀ x ∈ movers,
         let s := settled .empty x calm
         Settled s ∧ s.tray.state = .settle ∧ 150000 ≤ s.now - s.tray.timerStart ∧ awaitsTray s x (goingTo 1)
           ∧ s.tray.gate = .empty ∧ (goingTo 1).skipping = false ∧ s.tray.destPin = none
           ∧ s.thermal.power = .normal) := by
  and_intros <;> decide

/-- A slide seated at slot 1 with no pin held, of a request that was planned to slot dest, with this action waiting. -/
def seatedPlain (x : Action) (dest : Nat) (s : State) : State :=
  let u := doing x (State.at 150000 s)
  { u with tray := { (settling .loaded 1 (goingTo dest)).tray with destPin := none } }

/-- The request of a GOTO 7 that has been stopped. -/
def stoppedAtOne : TrayRequest := { goingTo 7 with stopRequested := true }

/-- That request seated a slide at slot 1, with the record of slot 7 pinned in entry 4. -/
def seatedElsewhere (x : Action) (stale : Bool) (s : State) : State :=
  let u := heldSlot 7 4 1 stale (slotTable false (seatedPlain x 7 s))
  { u with tray := { u.tray with destPin := some 7, request := some stoppedAtOne } }

theorem witness_SettlingEndsTheChange_plain :
    (∀ x ∈ movers,
     let s := seatedPlain x 1 calm
     Settled s ∧ s.tray.state = .settle ∧ 150000 ≤ s.now - s.tray.timerStart ∧ awaitsTray s x (goingTo 1)
       ∧ s.tray.gate = .loaded ∧ s.tray.destPin = none ∧ s.hdr.settings.slotBase = 0 ∧ s.thermal.power = .normal
       ∧ (goingTo 1).plan = some { dir := .forward, dest := 1, toGo := 1 })
      ∧ (∀ x ∈ movers,
         let s := seatedPlain x 1 (slotTable false calm)
         Settled s ∧ awaitsTray s x (goingTo 1) ∧ s.tray.destPin = none ∧ s.tray.repin = false ∧ s.tray.slot = 1
           ∧ (rested s).linkedClip = none)
      ∧ (∀ x ∈ movers,
         let s := seatedPlain x 7 (slotTable false calm)
         Settled s ∧ awaitsTray s x (goingTo 7) ∧ s.tray.destPin = none ∧ (7 : Nat) ≠ s.tray.slot
           ∧ slotMisses s.tray.slot 0 (releaseDest s))
      ∧ (∀ x ∈ movers,
         let u := seatedPlain x 1 (slotTable false calm)
         let s : State := { u with tray := { u.tray with repin := true } }
         Settled s ∧ awaitsTray s x (goingTo 1) ∧ s.tray.destPin = none ∧ s.tray.repin = true
           ∧ slotMisses s.tray.slot 0 (releaseDest s)) := by
  and_intros <;> decide

theorem witness_SettlingEndsTheChange_elsewhere :
    (∀ stale : Bool,
     let s := seatedElsewhere mover stale calm
     s.tray.destPin = some 7 ∧ s.shadow.find .slot 7 = some 4 ∧ noLookupWaits (s.undestined 4))
      ∧ (∀ x ∈ movers,
         let u := seatedElsewhere x true calm
         let s : State := { u with hdr := calm.hdr }
         Settled s ∧ awaitsTray s x stoppedAtOne ∧ s.hdr.settings.slotBase = 0 ∧ s.thermal.power = .normal)
      ∧ (∀ x ∈ movers,
         let s := seatedElsewhere x false calm
         Settled s ∧ s.tray.state = .settle ∧ 150000 ≤ s.now - s.tray.timerStart ∧ awaitsTray s x stoppedAtOne
           ∧ stoppedAtOne.plan = some { dir := .forward, dest := 7, toGo := 7 } ∧ s.tray.gate = .loaded
           ∧ s.tray.destPin = some 7 ∧ s.tray.slot ≠ 7 ∧ slotMisses s.tray.slot 0 (releaseDest s))
      ∧ (∀ x ∈ movers,
         let s := underway 1 0 0 (seatedElsewhere x false calm)
         Settled s ∧ awaitsTray s x stoppedAtOne ∧ slotFound s.tray.slot 0 (releaseDest s))
      ∧ (∀ x ∈ goingOn,
         let s := linking 1 3 0 (seatedElsewhere x false calm)
         let v : State := { rested s with
           shadow := (releaseDest s).shadow.pinned 3, tray := { (rested s).tray with shownPin := some 1 } }
         Settled s ∧ awaitsTray s x stoppedAtOne ∧ slotFound s.tray.slot 3 (releaseDest s)
           ∧ v.linkedClip = some 5 ∧ clipMisses 5 0 v ∧ x.stopped = false) := by
  and_intros <;> decide

/-- A skipping ADVANCE that has examined n positions. -/
def skippingOn (n : Nat) : TrayRequest := { goingTo 1 with kind := .advance 1, skipping := true, examined := n }

/-- An empty drop of that request at slot 1 has settled. -/
def emptied (n : Nat) : State :=
  State.at 150000 { settling .empty 1 (skippingOn n) with cx := (doing mover calm).cx }

/-- The lift of this request begins as that drop has settled. -/
def onward (s : State) (r : TrayRequest) : State :=
  let u := releaseDest s
  { u with tray := { Tray.lifted r s.now u.tray with repin := s.tray.repin } }

theorem witness_SettlingEndsTheChange_goesOn :
    (let s := slotTable true (emptied 46)
     Settled s ∧ s.tray.state = .settle ∧ 150000 ≤ s.now - s.tray.timerStart ∧ s.tray.gate = .empty
       ∧ s.tray.request = some (skippingOn 46) ∧ (skippingOn 46).kind = .advance 1 ∧ (skippingOn 46).skipping = true
       ∧ s.tray.slot ≠ 0 ∧ s.tray.slot < s.tray.n ∧ s.tray.known = true ∧ (skippingOn 46).stopRequested = false
       ∧ (skippingOn 46).examined < s.tray.n - 1
       ∧ slotMisses (nextPos s.tray.n (skippingOn 46).kind.dir s.tray.slot) 0 (releaseDest s))
      ∧ (let s := emptied 46
         Settled s ∧ (skippingOn 46).examined < s.tray.n - 1 ∧ s.hdr.settings.slotBase = 0
           ∧ nextPos s.tray.n (skippingOn 46).kind.dir s.tray.slot = 2 ∧ (s.tray.presence[2]?).getD .unknown ≠ .empty
           ∧ s.tray.shownPin = none ∧ s.tray.topOn = false)
      ∧ (let s := emptied 47
         Settled s ∧ s.tray.request = some (skippingOn 47) ∧ s.tray.n - 1 ≤ (skippingOn 47).examined
           ∧ s.hdr.settings.slotBase = 0 ∧ s.tray.shownPin = none ∧ s.tray.topOn = false)
      ∧ (let s := slideShown true (emptied 46)
         Settled s ∧ s.hdr.settings.slotBase = 0 ∧ s.tray.topOn = false ∧ letsGo (onward s { skippingOn 46 with
           plan := some { dir := .forward, dest := 2, toGo := 1 }, examined := 47, found := [2] }))
      ∧ (let s := slideShown false (emptied 47)
         Settled s ∧ s.hdr.settings.slotBase = 0 ∧ s.tray.topOn = false ∧ letsGo (onward s { skippingOn 47 with
           plan := some { dir := .forward, dest := 0, toGo := 47 }, toFind := 1 })) := by and_intros <;> decide

/-- Homing has settled, with this action and its request waiting. -/
def homed (x : Action) (r : TrayRequest) : State :=
  doing x (State.at 150000 (homing .settle fun t => { t with gate := .empty, bottomOn := true, request := some r }))

/-- That settling found a slide at slot 0, in a part with a slot table. -/
def homedLoaded (x : Action) (r : TrayRequest) : State :=
  let s := slotTable false (homed x r)
  { s with tray := { s.tray with gate := .loaded } }

/-- The tray as a GOTO begins its lift after homing. -/
def homedGoing (target : Nat) (s : State) : Tray :=
  { s.tray with
    state := .lift, known := true, slot := 0, retry := false, lowering := false, timerStart := s.now, wait := .none
    request := some { goingTo target with homed := true, plan := some (Plan.goto s.tray.n 0 target) } }

/-- A GOTO 0 has ended after homing, with the pin of its destination in entry 2 released from this table. -/
def endedHere (sh : Shadow) (pin : Option Nat) (s : State) : State :=
  { s with
    shadow := sh.released 2
    tray := { s.tray with
      state := .ready, known := true, slot := 0, shownPin := pin, request := none, wait := .none, repin := false
      remaining := 0, lastSlot := 0 } }

theorem witness_SettlingEndsTheChange_homing :
    (let r : TrayRequest := { goingTo 1 with stopRequested := true }
     (∀ x ∈ movers,
      let s := homed x r
      Settled s ∧ s.tray.state = .homing ∧ s.tray.homingStep = .settle ∧ 150000 ≤ s.now - s.tray.timerStart
        ∧ awaitsTray s x r ∧ s.tray.gate ≠ .loaded ∧ r.stopRequested = true ∧ s.thermal.power = .normal)
       ∧ (∀ x ∈ movers,
          let s := homedLoaded x r
          Settled s ∧ awaitsTray s x r ∧ s.tray.gate = .loaded ∧ slotMisses 0 0 s)
       ∧ (∀ x ∈ movers,
          let s := underway 0 2 0 (homedLoaded x r)
          Settled s ∧ awaitsTray s x r ∧ s.tray.gate = .loaded ∧ slotFound 0 2 s)
       ∧ (∀ x ∈ goingOn,
          let s := linking 0 2 0 (homedLoaded x r)
          let v : State := { s with
            shadow := s.shadow.pinned 2
            tray := Tray.answered { s.tray with state := .ready, known := true, slot := 0, shownPin := some 0 } }
          Settled s ∧ awaitsTray s x r ∧ s.tray.gate = .loaded ∧ slotFound 0 2 s ∧ v.linkedClip = some 5
            ∧ clipMisses 5 0 v ∧ x.stopped = false))
      ∧ (∀ x ∈ movers,
         let s := homed x (goingTo 0)
         Settled s ∧ awaitsTray s x (goingTo 0) ∧ (goingTo 0).stopRequested = false ∧ (goingTo 0).kind = .goto 0
           ∧ 0 < s.tray.n ∧ s.tray.destPin = none ∧ s.hdr.settings.slotBase = 0 ∧ s.thermal.power = .normal)
      ∧ (let s := homedLoaded mover (goingTo 0)
         Settled s ∧ awaitsTray s mover (goingTo 0) ∧ s.tray.gate = .loaded ∧ s.tray.destPin = none
           ∧ slotMisses 0 0 s)
      ∧ (let s := slotTable false (homed mover (goingTo 0))
         Settled s ∧ awaitsTray s mover (goingTo 0) ∧ s.tray.gate ≠ .loaded ∧ slotMisses 0 0 s)
      ∧ (∀ x ∈ movers,
         let s := heldSlot 0 2 0 false (homedLoaded x (goingTo 0))
         let v := endedHere ((s.shadow.pinned 2).pinned 2) (some 0) s
         Settled s ∧ awaitsTray s x (goingTo 0) ∧ s.tray.gate = .loaded ∧ slotFound 0 2 s
           ∧ (s.shadow.entry 2).isValid = true ∧ noLookupWaits v ∧ v.linkedClip = none)
      ∧ (∀ x ∈ goingOn,
         let s := linking 0 2 0 (homedLoaded x (goingTo 0))
         let v := endedHere ((s.shadow.pinned 2).pinned 2) (some 0) s
         Settled s ∧ awaitsTray s x (goingTo 0) ∧ s.tray.gate = .loaded ∧ slotFound 0 2 s
           ∧ (s.shadow.entry 2).isValid = true ∧ noLookupWaits v ∧ v.linkedClip = some 5 ∧ clipMisses 5 0 v
           ∧ x.stopped = false)
      ∧ (∀ x ∈ movers,
         let s := heldSlot 0 2 0 true (slotTable false (homed x (goingTo 0)))
         Settled s ∧ awaitsTray s x (goingTo 0) ∧ s.tray.gate ≠ .loaded ∧ slotFound 0 2 s
           ∧ (s.shadow.entry 2).isValid = true ∧ noLookupWaits (endedHere (s.shadow.pinned 2) none s))
      ∧ (let s := underway 0 2 0 (homedLoaded mover (goingTo 0))
         Settled s ∧ awaitsTray s mover (goingTo 0) ∧ s.tray.gate = .loaded ∧ s.tray.destPin = none
           ∧ slotFound 0 2 s ∧ (s.shadow.entry 2).isValid = false)
      ∧ (let s := underway 0 2 0 (slotTable false (homed mover (goingTo 0)))
         Settled s ∧ awaitsTray s mover (goingTo 0) ∧ s.tray.gate ≠ .loaded ∧ slotFound 0 2 s
           ∧ (s.shadow.entry 2).isValid = false)
      ∧ (let s := homed mover (goingTo 47)
         Settled s ∧ awaitsTray s mover (goingTo 47) ∧ (goingTo 47).kind = .goto 47 ∧ 47 < s.tray.n
           ∧ s.hdr.settings.slotBase = 0 ∧ s.tray.topOn = false ∧ s.tray.shownPin = none)
      ∧ (let s := slideShown false (homed mover (goingTo 47))
         Settled s ∧ awaitsTray s mover (goingTo 47) ∧ s.hdr.settings.slotBase = 0 ∧ s.tray.topOn = false
           ∧ letsGo { s with tray := (homedGoing 47 s) })
      ∧ (let s := heldSlot 47 15 0 true (heldSlot 0 3 0 false (homedLoaded mover (goingTo 47)))
         let v : State := { s with
           shadow := (s.shadow.pinned 3).pinned 15
           tray := { homedGoing 47 s with shownPin := some 0, destPin := some 47 } }
         Settled s ∧ awaitsTray s mover (goingTo 47) ∧ s.tray.gate = .loaded ∧ slotFound 0 3 s
           ∧ s.shadow.find .slot 47 = some 15 ∧ (s.shadow.entry 15).isValid = true ∧ s.tray.topOn = false
           ∧ noLookupWaits (v.unshown 3))
      ∧ (let u := heldSlot 0 3 0 false (homedLoaded mover (goingTo 1))
         let e : EntryData := { kind := .slot, key := 1, addr := 0x1004, copy := [], pins := 0 }
         let s : State := { u with shadow := { u.shadow.setEntry 0 (.filling e) with fetchList := [0] } }
         Settled s ∧ awaitsTray s mover (goingTo 1) ∧ s.tray.gate = .loaded ∧ slotFound 0 3 s
           ∧ s.shadow.find .slot 1 = some 0 ∧ (s.shadow.entry 0).isValid = false) := by and_intros <;> decide

theorem witness_TrayRemovedAndSeated :
    (Settled (ready calm) ∧ (ready calm).tray.state ≠ .trayOut ∧ (ready calm).tray.request = none)
      ∧ (let s := moving 0 .rotate id
         Settled s ∧ s.tray.state ≠ .trayOut ∧ awaitsTray s mover (goingTo 1))
      ∧ (Settled calm ∧ calm.tray.state = .trayOut) := by and_intros <;> decide

/-! ## Records -/

/-- The slot record 3, with some words copied. -/
def filling (copy : List Word) : EntryData := { kind := .slot, key := 3, addr := 0x100C, copy := copy, pins := 1 }

/-- The entry whose fetch has ended, and the table with it. -/
def fetched (d : EntryData) (w : Word) (s : State) : State :=
  { s with shadow := { s.shadow.setEntry 0 (.valid { d with copy := d.copy ++ [w] } false s.shadow.useStamp) with
    fetchList := [], useStamp := s.shadow.useStamp + 1 } }

/-- Entry 0 under fetch, and the word of a record in the RAM. -/
def fetching (copy : List Word) (s : State) : State :=
  inRam (ramOf .recordShadow 0x100C 0x00F0)
    { s with shadow := { s.shadow.setEntry 0 (.filling (filling copy)) with fetchList := [0] } }

theorem witness_RecordWordReturns :
    (let a : RamAccess := { ramOf .recordShadow 0x100C 0 with void := true }
     Settled (inRam a calm) ∧ (inRam a calm).port.ram = some a ∧ a.who = .recordShadow ∧ a.void = true)
      ∧ (let s := fetching [] calm
         Settled s ∧ s.port.ram = some (ramOf .recordShadow 0x100C 0x00F0) ∧ s.shadow.fetchList = [0]
           ∧ s.shadow.entry 0 = .filling (filling []) ∧ ((filling []).copy ++ [0x00F0]).length < recordLength .slot)
      ∧ (let s := fetching [0x0010] calm
         Settled s ∧ s.shadow.fetchList = [0] ∧ s.shadow.entry 0 = .filling (filling [0x0010])
           ∧ recordLength .slot ≤ ((filling [0x0010]).copy ++ [0x00F0]).length ∧ s.tray.wait = .none
           ∧ s.clip.start = none ∧ noLookupWaits (fetched (filling [0x0010]) 0x00F0 s))
      ∧ (let s := fetching [0x0010] (ready (onTray fun t => { t with
            wait := .destination, destPin := some 3, request := some (goingTo 3) }))
         Settled s ∧ s.tray.request = some (goingTo 3)
           ∧ (goingTo 3).plan = some { dir := .forward, dest := 3, toGo := 3 } ∧ s.shadow.fetchList = [0]
           ∧ s.shadow.entry 0 = .filling (filling [0x0010]) ∧ (filling [0x0010]).kind = .slot
           ∧ (filling [0x0010]).key = 3 ∧ s.tray.wait = .destination ∧ s.tray.state = .ready
           ∧ s.tray.shownPin = none ∧ s.tray.topOn = false
           ∧ noLookupWaits (fetched (filling [0x0010]) 0x00F0 s))
      ∧ (let s := slideShown true (fetching [0x0010] (ready (onTray fun t => { t with
            wait := .destination, destPin := some 3, request := some (goingTo 3) })))
         let done := fetched (filling [0x0010]) 0x00F0 s
         Settled s ∧ s.shadow.fetchList = [0] ∧ s.shadow.entry 0 = .filling (filling [0x0010])
           ∧ s.tray.wait = .destination ∧ s.tray.topOn = false ∧ noLookupWaits done
           ∧ letsGo { done with tray := { s.tray with
              state := .lift, retry := false, lowering := false, timerStart := s.now, wait := .none } }) := by
  and_intros <;> decide

/-- The record of slot 0 returns to a request that homing has left nothing to rotate, with this gate and first word. -/
def homedHere (gate : Gate) (w : Word) : State :=
  let e : EntryData := { kind := .slot, key := 0, addr := 0x1000, copy := [w], pins := if gate = .loaded then 2 else 1 }
  let s := clipTable (slotTable false (ready (onTray fun t => { t with
    wait := .destination, destPin := some 0, shownPin := if gate = .loaded then some 0 else none
    request := some { goingTo 0 with homed := true } })))
  let u := doing mover (inRam (ramOf .recordShadow 0x1002 0x0085)
    { s with shadow := { s.shadow.setEntry 0 (.filling e) with fetchList := [0] } })
  { u with tray := { u.tray with gate := gate } }

/-- The premises that the clauses of such a request share. -/
abbrev waitsHere (gate : Gate) (w : Word) : Prop :=
  let s := homedHere gate w
  let e : EntryData := { kind := .slot, key := 0, addr := 0x1000, copy := [w], pins := if gate = .loaded then 2 else 1 }
  let done := fetched e 0x0085 s
  let r : TrayRequest := { goingTo 0 with homed := true }
  Settled s ∧ s.port.ram = some (ramOf .recordShadow 0x1002 0x0085) ∧ s.shadow.fetchList = [0]
    ∧ s.shadow.entry 0 = .filling e ∧ 2 ≤ (e.copy ++ [0x0085]).length ∧ s.tray.wait = .destination
    ∧ s.tray.state = .ready ∧ noLookupWaits done ∧ awaitsTray s mover r ∧ r.homed = true
    ∧ r.plan = some { dir := .forward, dest := 0, toGo := 0 } ∧ mover.stopped = false ∧ mover.restore = none
    ∧ s.hdr.settings.slotBase ≠ 0 ∧ s.tray.destPin = some e.key ∧ done.shadow.find .slot e.key = some 0

theorem witness_RecordWordReturns_homed :
    waitsHere .empty 0
      ∧ (waitsHere .loaded 0 ∧ (homedHere .loaded 0).tray.shownPin = some 0
          ∧ slotLinkedClip [0, 0x0005] = none ∧ slotLinkedClip [0, 0x0085] = some 5
          ∧ (homedHere .loaded 0).clip.state = .idle ∧ (homedHere .loaded 0).hdr.settings.clipBase ≠ 0
          ∧ (fetched (filling [0]) 0 (homedHere .loaded 0)).shadow.victim = some 1) := by and_intros <;> decide

/-- A search for n positions that waits for the record of slot 3, of a request that has examined m; its record word
returns, after this one. -/
def searching (n m : Nat) (found : List Nat) (w : Word) : State :=
  fetching [w] (slotTable true (ready (onTray fun t => { t with
    wait := .search { pos := 3, find := n, found := found }
    request := some { skippingOn m with plan := none } })))

theorem witness_RecordWordReturns_search :
    (let s := searching 1 0 [] 0x0100
     Settled s ∧ s.port.ram = some (ramOf .recordShadow 0x100C 0x00F0)
       ∧ s.tray.request = some { skippingOn 0 with plan := none } ∧ s.shadow.fetchList = [0]
       ∧ s.shadow.entry 0 = .filling (filling [0x0100]) ∧ (filling [0x0100]).kind = .slot
       ∧ s.tray.wait = .search { pos := 3, find := 1, found := [] } ∧ s.tray.state = .ready
       ∧ noLookupWaits (fetched (filling [0x0100]) 0x00F0 s)
       ∧ slotSkip ((filling [0x0100]).copy ++ [0x00F0]) = true ∧ (skippingOn 0).examined + 1 < s.tray.n - 1
       ∧ s.shadow.find .slot (nextPos s.tray.n (skippingOn 0).kind.dir 3) = none ∧ s.shadow.victim = some 1)
      ∧ (let s := searching 2 45 [1] 0x0010
         Settled s ∧ s.tray.wait = .search { pos := 3, find := 2, found := [1] }
           ∧ noLookupWaits (fetched (filling [0x0010]) 0x00F0 s)
           ∧ (s.tray.presence[3]?).getD .unknown ≠ .empty
           ∧ slotSkip ((filling [0x0010]).copy ++ [0x00F0]) = false ∧ (skippingOn 45).examined + 1 < s.tray.n - 1)
      ∧ (let s := searching 1 46 [] 0x0010
         Settled s ∧ s.hdr.settings.slotBase ≠ 0 ∧ s.shadow.find .slot (filling [0x0010]).key = some 0
           ∧ noLookupWaits (fetched (filling [0x0010]) 0x00F0 s)
           ∧ s.tray.shownPin = none ∧ s.tray.topOn = false)
      ∧ (let s := slideShown false (searching 1 46 [] 0x0010)
         let done := fetched (filling [0x0010]) 0x00F0 s
         Settled s ∧ s.hdr.settings.slotBase ≠ 0 ∧ done.shadow.find .slot 3 = some 0 ∧ noLookupWaits done
           ∧ s.tray.topOn = false
           ∧ letsGo { done with
              shadow := done.shadow.pinned 0
              tray := { s.tray with
                state := .lift, retry := false, lowering := false, timerStart := s.now, wait := .none, destPin := some 3
                request := some { skippingOn 47 with
                  plan := some { dir := .forward, dest := 3, toGo := 3 }, found := [3], toFind := 0 } } })
      ∧ (let s := searching 1 46 [] 0x0100
         Settled s ∧ s.tray.n - 1 ≤ (skippingOn 46).examined + 1 ∧ s.shadow.find .slot 0 = none
           ∧ s.shadow.victim = some 1 ∧ noLookupWaits (fetched (filling [0x0100]) 0x00F0 s)) := by
  and_intros <;> decide

/-- The descriptor of clip 5 under fetch, whose start has this low word. -/
def descriptor (w0 w1 : Word) : EntryData := { kind := .clip, key := 5, addr := 0x2028, copy := [w0, w1, 1], pins := 1 }

/-- The last word of that descriptor returns to a player in this state. -/
def describing (w0 w1 : Word) (queueMode : Bool) (st : PlayerState) (queue : List ClipEntry) : State :=
  inRam (ramOf .recordShadow 0x202E 0x8040)
    { clipTable (onClip fun c => { c with state := st, queue := queue, start := some (starting queueMode) }) with
      shadow := { calm.shadow.setEntry 0 (.filling (descriptor w0 w1)) with fetchList := [0] } }

/-- The premises that the clauses of a start record share. -/
abbrev describes (w0 w1 : Word) (queueMode : Bool) (st : PlayerState) (queue : List ClipEntry) : Prop :=
  let s := describing w0 w1 queueMode st queue
  let done := fetched (descriptor w0 w1) 0x8040 s
  Settled s ∧ s.port.ram = some (ramOf .recordShadow 0x202E 0x8040) ∧ s.shadow.fetchList = [0]
    ∧ s.shadow.entry 0 = .filling (descriptor w0 w1) ∧ s.clip.start = some (starting queueMode)
    ∧ done.shadow.find .clip 5 = some 0 ∧ noLookupWaits done ∧ s.clip.requests = [] ∧ logRoom s

def aQueued : ClipEntry := { clip := 7, source := .linked, copy := [0, 1, 1, 0x8000], pinned := false }

/-- One sample at 0x00100, the lowest start; one at 0xFFFFF would be odd, so 0xFFFFE is the highest; 0x000FE fails. -/
theorem witness_RecordWordReturns_clip :
    (describes 0x0101 0 false .fetching [] ∧ (descriptorIn 0x0101 0 1 0x8040).passes)
      ∧ (describes 0x00FE 0 false .fetching [] ∧ ¬(descriptorIn 0x00FE 0 1 0x8040).passes)
      ∧ (describes 0xFFFE 0xF false .fadingOut [] ∧ (descriptorIn 0xFFFE 0xF 1 0x8040).passes)
      ∧ (describes 0x0100 0 true .playing (List.replicate 3 aQueued) ∧ (descriptorIn 0x0100 0 1 0x8040).passes)
      ∧ describes 0x0100 0 true .idle []
      ∧ describes 0x00FE 0 false .fadingOut []
      ∧ describes 0x0100 0 true .playing (List.replicate 4 aQueued) := by and_intros <;> decide

/-! ## Mains, light and lamp -/

/-- A lamp with mains present, the last crossing at 0, at a time. -/
def crossingAt (time : Nat) (f : Lamp → Lamp) : State := State.at time (burning f)

/-- A LAMP on of the host waits for the lamp. -/
def lampOnWaits (s : State) : State := doing warmingUp (withRecord (record .active codeLamp 1 0 0) s)

/-- A crossing now would be accepted (R72). -/
abbrev acceptsCrossing (s : State) : Prop :=
  s.lamp.mainsPresent = true ∧ 7500 ≤ s.now - s.lamp.lastCross ∧ s.now - s.lamp.lastCross ≤ 11000

theorem witness_HalfCycleEvents :
    (let s := State.at 7500 (burning id)
     Settled s ∧ plainHalfCycle s ∧ s.lamp.mainsPresent = true ∧ 7500 ≤ s.now - s.lamp.lastCross
       ∧ s.now - s.lamp.lastCross ≤ 11000)
      ∧ (let s := State.at 11001 (burning id)
         Settled s ∧ s.lamp.mainsPresent = true ∧ 11000 < s.now - s.lamp.lastCross)
      ∧ (let s := onLamp fun l => { l with state := .warming, warmCount := 198, warmTarget := 200 }
         Settled s ∧ plainHalfCycle s ∧ s.lamp.mainsPresent = false)
      ∧ (let s := State.at 15000 (burning fun l => { l with judging := true, failures := 2 })
         Settled s ∧ plainHalfCycle s ∧ s.lamp.mainsPresent = true ∧ 15000 ≤ s.now - s.lamp.lastCross)
      ∧ (Settled (State.at 14999 (burning id)) ∧ (14999 : Nat) - (burning id).lamp.lastCross < 15000)
      ∧ (let s := State.at 10000 calm
         Settled s ∧ plainHalfCycle s ∧ s.lamp.mainsPresent = false ∧ s.lamp.nextSub ≤ s.now)
      ∧ (Settled (State.at 9999 calm) ∧ (State.at 9999 calm).now < calm.lamp.nextSub)
      ∧ (let s := crossingAt 7500 fun l => { l with state := .warming, warmCount := 199, warmTarget := 200 }
         Settled s ∧ acceptsCrossing s ∧ nothingToApply s ∧ (s.lamp.judging = true → s.lamp.failures ≠ 3)
           ∧ s.lamp.state = .warming ∧ s.lamp.warmTarget ≤ s.lamp.warmCount + 1 ∧ noLampOn s)
      ∧ (let s := lampOnWaits (crossingAt 11000 fun l =>
            { l with state := .warming, warmCount := 199, warmTarget := 200 })
         Settled s ∧ acceptsCrossing s ∧ nothingToApply s ∧ s.lamp.state = .warming
           ∧ s.lamp.warmTarget ≤ s.lamp.warmCount + 1 ∧ awaitsLamp s warmingUp)
      ∧ (let s := crossingAt 10000 fun l => { l with judging := true, failures := 3 }
         Settled s ∧ acceptsCrossing s ∧ nothingToApply s ∧ s.lamp.judging = true ∧ s.lamp.failures = 3
           ∧ s.lamp.state.lit = true ∧ noLampOn s)
      ∧ (let s := lampOnWaits (crossingAt 10000 fun l =>
            { l with state := .warming, warmCount := 9, warmTarget := 200, judging := true, failures := 3 })
         Settled s ∧ acceptsCrossing s ∧ nothingToApply s ∧ s.lamp.judging = true ∧ s.lamp.failures = 3
           ∧ s.lamp.state.lit = true ∧ awaitsLamp s warmingUp) := by and_intros <;> decide

/-- A ramp's completion event on its way. -/
def rampSent (d : RampDone) (s : State) : State := { s with lamp := { s.lamp with rampDone := [d] } }

theorem witness_RampCompletionArrives :
    (let s := rampSent { byAction := false, offMark := false } calm
     Settled s ∧ s.lamp.rampDone = { byAction := false, offMark := false } :: [] ∧ s.lamp.state ≠ .failed)
      ∧ (let s := rampSent { byAction := false, offMark := true }
            { burning id with thermal := { calm.thermal with power := .standbyPending, duty := 100 } }
         Settled s ∧ s.lamp.rampDone = { byAction := false, offMark := true } :: [] ∧ s.lamp.state = .on
           ∧ s.thermal.power = .standbyPending)
      ∧ (let s := rampSent { byAction := false, offMark := true } (onLamp fun l => { l with state := .failed })
         Settled s ∧ s.lamp.state = .failed ∧ s.thermal.power ≠ .standbyPending)
      ∧ (let s := rampSent { byAction := false, offMark := true }
            { onLamp fun l => { l with state := .failed } with
              thermal := { calm.thermal with power := .standbyPending, duty := 55, runOn := some 0 } }
         Settled s ∧ s.lamp.state = .failed ∧ s.thermal.power = .standbyPending ∧ s.thermal.runOn ≠ none)
      ∧ (let s := rampSent { byAction := false, offMark := true }
            { onLamp fun l => { l with state := .failed } with
              thermal := { calm.thermal with power := .standbyPending } }
         Settled s ∧ s.lamp.state = .failed ∧ s.thermal.power = .standbyPending ∧ s.thermal.runOn = none)
      ∧ (let x := action (.fade 600 15) (.command 9) .fading
         let s := rampSent { byAction := true, offMark := false }
           (doing x (withRecord (record .active codeFade 600 15 0) calm))
         Settled s ∧ s.lamp.rampDone = { byAction := true, offMark := false } :: [] ∧ s.cx.action = some x
           ∧ x.phase = .fading ∧ endsAlone s x)
      ∧ (let x := action (.lamp false) (.command 9) .fading
         let s := rampSent { byAction := true, offMark := true }
           (doing x (withRecord (record .active codeLamp 0 0 0) (burning id)))
         Settled s ∧ s.lamp.rampDone = { byAction := true, offMark := true } :: [] ∧ s.cx.action = some x
           ∧ x.phase = .fading ∧ endsAlone s x ∧ s.lamp.state = .on)
      ∧ (let x := action (.dissolve 15) (.tape 9) .fadingIn
         let s := rampSent { byAction := true, offMark := false } (doing x calm)
         Settled s ∧ s.cx.action = some x ∧ x.phase = .fadingIn ∧ endsAlone s x)
      ∧ (let x : Action := { action (.goto 1) .remote .restoring with completion := some (0, 1) }
         let s := rampSent { byAction := true, offMark := false } (doing x calm)
         Settled s ∧ s.cx.action = some x ∧ x.phase = .restoring ∧ endsAlone s x) := by and_intros <;> decide

theorem witness_RampCompletionArrives_moving :
    (let x : Action := { action (.goto 1) (.command 9) .blanking with restore := some 600 }
     let s := rampSent { byAction := true, offMark := false }
       (doing x (withRecord (record .active codeGoto 1 0 0) (ready (burning fun l => { l with lout := 97, f := 96 }))))
     Settled s ∧ s.lamp.rampDone = { byAction := true, offMark := false } :: [] ∧ s.cx.action = some x
       ∧ x.phase = .blanking ∧ s.lamp.dark = false)
      ∧ (let x := action (.dissolve 15) (.tape 9) .fadingOut
         let s := rampSent { byAction := true, offMark := false }
           (doing x (ready (burning fun l => { l with lout := 96, f := 96 })))
         Settled s ∧ s.cx.action = some x ∧ x.phase = .fadingOut ∧ s.tray.state ≠ .trayOut ∧ s.tray.state ≠ .jammed
           ∧ s.lamp.dark = true ∧ liftsAtOnce s ∧ x.request.trayKind.plannable s.tray.n = true)
      ∧ (let x := action (.advance 1) (.tape 9) .blanking
         let s := slideShown false (rampSent { byAction := true, offMark := false }
           (doing x (ready (burning fun l => { l with lout := 96, f := 96 }))))
         Settled s ∧ s.cx.action = some x ∧ x.phase = .blanking ∧ s.lamp.dark = true ∧ liftsAtOnce s
           ∧ letsGo { s.doing { x with phase := .moving, window := true, issued := true } with
              lamp := { s.lamp with rampDone := [], window := true, darkOwed := false, darkSent := false }
              tray := s.tray.lifted (TrayRequest.planned (.advance 1) true (Plan.of 48 0 (.advance 1))) s.now })
      ∧ (let x := action (.dissolve 15) (.tape 9) .fadingOut
         let s := rampSent { byAction := true, offMark := false } (doing x calm)
         Settled s ∧ s.cx.action = some x ∧ x.phase = .fadingOut ∧ endsAlone s x ∧ s.tray.state = .trayOut)
      ∧ (let x := action (.dissolve 15) (.tape 9) .fadingOut
         let s := rampSent { byAction := true, offMark := false } (doing x (onTray fun t => { t with state := .jammed }))
         Settled s ∧ s.cx.action = some x ∧ endsAlone s x ∧ s.tray.state = .jammed)
      ∧ (let x := action (.advance 1) .remote .blanking
         let s := rampSent { byAction := true, offMark := false } (doing x calm)
         Settled s ∧ s.cx.action = some x ∧ x.phase = .blanking ∧ s.lamp.dark = true ∧ s.tray.request = none
           ∧ endsAlone s x ∧ s.tray.state = .trayOut)
      ∧ (let x := action (.advance 1) .remote .blanking
         let s := rampSent { byAction := true, offMark := false } (doing x (onTray fun t => { t with state := .jammed }))
         Settled s ∧ s.cx.action = some x ∧ s.tray.request = none ∧ endsAlone s x ∧ s.tray.state = .jammed
           ∧ x.request.trayKind ≠ .clearJam) := by and_intros <;> decide

theorem witness_WarmingAndFirings :
    (let s := warming 200
     Settled s ∧ s.lamp.state = .warming ∧ s.lamp.warmTarget ≤ s.lamp.warmCount ∧ noLampOn s)
      ∧ (let s := lampOnWaits (warming 200)
         Settled s ∧ s.lamp.state = .warming ∧ s.lamp.warmTarget ≤ s.lamp.warmCount ∧ awaitsLamp s warmingUp)
      ∧ (let s := warming 199
         Settled s ∧ ¬(s.lamp.state = .warming ∧ s.lamp.warmTarget ≤ s.lamp.warmCount))
      ∧ (let s := State.at 4331 (burning fun l => { l with firing := some { time := 4331, k := 400 } })
         Settled s ∧ s.lamp.firing = some { time := 4331, k := 400 } ∧ 4331 ≤ s.now)
      ∧ (let s := State.at 4331 (onLamp fun l => { l with firing := some { time := 4331, k := 400 } })
         Settled s ∧ s.lamp.state.lit = false ∧ s.lamp.firing = some { time := 4331, k := 400 } ∧ 4331 ≤ s.now)
      ∧ (let s := State.at 4330 (burning fun l => { l with firing := some { time := 4331, k := 400 } })
         Settled s ∧ s.lamp.firing = some { time := 4331, k := 400 } ∧ s.now < 4331)
      ∧ (Settled (burning id) ∧ (burning id).lamp.firing = none ∧ (burning id).lamp.judging = false)
      ∧ (let s := burning fun l => { l with judging := true, failures := 3 }
         Settled s ∧ s.lamp.judging = true)
      ∧ (let s := onLamp fun l => { l with minuteUs := 59999999 }
         Settled s ∧ s.lamp.minuteUs < 60000000)
      ∧ (let s := onLamp fun l => { l with minuteUs := 60000000, minutes := 16777215 }
         Settled s ∧ 60000000 ≤ s.lamp.minuteUs ∧ s.hdr.settings.lifeLimit = 0)
      ∧ (let s : State := { onSet fun st => { st with lifeLimit := 1 } with
            lamp := { calm.lamp with minuteUs := 60000000, minutes := 59 } }
         Settled s ∧ 60000000 ≤ s.lamp.minuteUs ∧ s.hdr.settings.lifeLimit ≠ 0
           ∧ s.hdr.settings.lifeLimit * 60 ≤ min 16777215 (s.lamp.minutes + 1)
           ∧ s.lamp.lifeReported = false) := by and_intros <;> decide

/-- A load of curve B at an index, with an apply record. -/
def loading (i : Nat) (p : Option PendingSettings) : State :=
  onLamp fun l => { l with loader := some { curve := .b, index := i }, applyRec := p }

theorem witness_ApplyAndCurveLoads :
    (let s := onLamp fun l => { l with applyRec := some PendingSettings.default }
     Settled s ∧ s.lamp.applyRec = some PendingSettings.default ∧ s.lamp.loader = none)
      ∧ (Settled calm ∧ calm.lamp.applyRec = none)
      ∧ (Settled (loading 33 (some PendingSettings.default))
          ∧ (loading 33 (some PendingSettings.default)).lamp.applyRec = some PendingSettings.default
          ∧ (loading 33 (some PendingSettings.default)).lamp.loader = some { curve := .b, index := 33 })
      ∧ (Settled (loading 33 none) ∧ (loading 33 none).lamp.applyRec = none)
      ∧ (let a : RamAccess := { ramOf .curveLoader 0x5000 0xFFFF with void := true }
         Settled (inRam a calm) ∧ (inRam a calm).port.ram = some a ∧ a.who = .curveLoader ∧ a.void = true)
      ∧ (let a := ramOf .curveLoader 0x5000 0xFFFF
         let s := inRam a (loading 32 none)
         Settled s ∧ s.port.ram = some a ∧ a.who = .curveLoader ∧ a.void = false
           ∧ s.lamp.loader = some { curve := .b, index := 32 }) := by and_intros <;> decide

theorem witness_ApplyAndCurveLoads_no_swap :
    Settled (loading 32 none) ∧ ∀ x, (loading 32 none).lamp.loader = some x → x.index ≠ 33 := by
  refine ⟨by decide, ?_⟩
  rintro x ⟨⟩
  decide

/-! ## Cooling -/

theorem witness_SensorReadings :
    (let s := State.at 250000 calm
     Settled s ∧ s.thermal.nextRead ≤ s.now)
      ∧ (Settled (State.at 249999 calm) ∧ (State.at 249999 calm).now < calm.thermal.nextRead)
      ∧ (Settled calm ∧ calm.thermal.zone ≤ 3 ∧ 44 < calm.hdr.settings.tt ∧ calm.thermal.runOn = none)
      ∧ (Settled calm ∧ 119 < calm.hdr.settings.tt ∧ calm.thermal.firstTaken = false ∧ 45 ≤ 119
          ∧ calm.lamp.state = .off ∧ calm.thermal.runOn = none ∧ calm.thermal.power ≠ .standby)
      ∧ (let s := State.at 60000000 (runningOn .normal)
         Settled s ∧ s.thermal.zone ≤ 3 ∧ s.thermal.runOn.map (fun start => decide (60000000 ≤ s.now - start)) = some true
           ∧ 44 < 45 ∧ s.thermal.power ≠ .standbyPending)
      ∧ (let s := State.at 60000000 (runningOn .standbyPending)
         Settled s ∧ s.thermal.runOn.map (fun start => decide (60000000 ≤ s.now - start)) = some true
           ∧ 44 < s.hdr.settings.tt ∧ s.thermal.power = .standbyPending ∧ s.lamp.state.lit = false
           ∧ s.thermal.duty ≠ 0)
      ∧ (let s := burning id
         Settled s ∧ noLampOn s ∧ s.thermal.zone ≤ 3 ∧ s.hdr.settings.tt ≤ 120 ∧ s.thermal.overTemp = false
           ∧ s.lamp.state.lit = true)
      ∧ (let s := lampOnWaits (warming 9)
         Settled s ∧ awaitsLamp s warmingUp ∧ s.thermal.zone ≤ 3
           ∧ s.hdr.settings.tt ≤ 120 ∧ s.thermal.overTemp = false ∧ s.lamp.state.lit = true)
      ∧ (let s := onThermal fun h => { h with power := .standby, duty := 0 }
         Settled s ∧ noLampOn s ∧ s.hdr.settings.tt ≤ 120 ∧ s.thermal.overTemp = false ∧ s.lamp.state.lit = false
           ∧ s.thermal.power ≠ .standbyPending)
      ∧ (let s := runningOn .standbyPending
         Settled s ∧ noLampOn s ∧ s.lamp.state.lit = false ∧ s.thermal.runOn ≠ none)
      ∧ (Settled calm ∧ (200 : Nat) ≤ 200) := by and_intros <;> decide

theorem witness_FailedReadings :
    (SensorRead.value 201 = .noAnswer ∨ SensorRead.value 201 = .badCheck
        ∨ ∃ v, SensorRead.value 201 = .value v ∧ (v < 0 ∨ 200 < v))
      ∧ (Settled (doing fading (burning id)) ∧ noLampOn (doing fading (burning id)) ∧ calm.thermal.power = .normal
          ∧ (burning id).lamp.state ≠ .tripped)
      ∧ (let s := onThermal fun h => { h with failTh := 2, failTg := 2 }
         Settled s ∧ s.thermal.failTh < 3 ∧ s.thermal.failTg < 3)
      ∧ (let s := onThermal fun h => { h with failTh := 3, failTg := 3 }
         Settled s ∧ s.thermal.failTh = 3 ∧ s.thermal.failTg = 3)
      ∧ (let s := onThermal fun h => { h with failTh := 4, failTg := 4, duty := 100 }
         Settled s ∧ s.thermal.failTh = 4 ∧ s.thermal.failTg = 4) :=
  ⟨.inr (.inr ⟨201, rfl, by decide⟩), by decide, by decide, by decide, by decide⟩

theorem witness_FanAndThermalTimers :
    (Settled calm ∧ noLampOn calm ∧ calm.thermal.duty ≠ 0)
      ∧ (let s := onThermal fun h => { h with power := .standby, duty := 0 }
         Settled s ∧ noLampOn s ∧ s.thermal.duty = 0)
      ∧ (let s := State.at 2000000 (onThermal fun h => { h with fanFault := true, duty := 100 })
         Settled s ∧ s.thermal.duty ≠ 0 ∧ 2000000 ≤ s.now - s.thermal.tachStart ∧ s.thermal.fanFault = true)
      ∧ (let s := State.at 2000000 (doing fading (burning id))
         Settled s ∧ noLampOn s ∧ s.thermal.duty ≠ 0 ∧ 2000000 ≤ s.now - s.thermal.tachStart
           ∧ s.thermal.fanFault = false ∧ s.lamp.state ≠ .tripped ∧ s.thermal.power = .normal)
      ∧ (Settled (State.at 1999999 calm) ∧ (1999999 : Nat) - calm.thermal.tachStart < 2000000)
      ∧ (let s := State.at 60000000 (runningOn .normal)
         Settled s ∧ noLampOn s ∧ s.thermal.runOn = some 0 ∧ 60000000 ≤ s.now - 0 ∧ s.thermal.th < 45
           ∧ s.thermal.failTh ≠ 4 ∧ s.thermal.power = .normal)
      ∧ (let s := State.at 60000000 (runningOn .standbyPending)
         Settled s ∧ s.thermal.runOn = some 0 ∧ 60000000 ≤ s.now - 0 ∧ s.thermal.th < 45 ∧ s.thermal.failTh ≠ 4
           ∧ s.thermal.power = .standbyPending ∧ s.lamp.state.lit = false ∧ s.thermal.duty ≠ 0)
      ∧ (let s := State.at 59999999 (runningOn .normal)
         Settled s ∧ s.thermal.runOn = some 0 ∧ s.now - 0 < 60000000)
      ∧ (let s := counting 120000000
         Settled s ∧ noLampOn s ∧ s.dwellCounts = true
           ∧ s.hdr.settings.dwellLimit * 1000000 ≤ s.thermal.dwellUs)
      ∧ (let s := counting 119999999
         Settled s ∧ ¬(s.dwellCounts = true ∧ s.hdr.settings.dwellLimit * 1000000 ≤ s.thermal.dwellUs)) := by
  and_intros <;> decide

/-! ## The cue track and the tape deck -/

/-- A transition after an interval. -/
def edge (tone : Bool) (interval : Nat) : CueEdge := { tone := tone, interval := interval }

/-- A deviation of a fourth of the period either way makes a one-chip interval (R128). -/
def oneChip (c : CueTrack) (i : Nat) : Prop := 4 * (i - c.period) ≤ c.period ∧ 4 * (c.period - i) ≤ c.period

theorem witness_TransitionsAndTheAligner :
    (let s := onThermal fun h => { h with power := .standbyPending, runOn := some 0 }
     Settled s ∧ s.thermal.power ≠ .normal)
      ∧ (Settled calm ∧ calm.thermal.power = .normal ∧ calm.cue.carrier = .absent)
      ∧ (let s := tape .acquiring id
         Settled s ∧ s.cue.carrier = .acquiring ∧ ¬(1282 ≤ (edge true 1281).interval) ∧ ¬((2382 : Nat) ≤ 2381))
      ∧ (let s := tape .acquiring fun c => { c with lastTransition := 98717, runIntervals := [1667] }
         Settled s ∧ s.cue.carrier = .acquiring ∧ 1282 ≤ (edge true 1282).interval
           ∧ s.cue.lastTransition + 1282 - s.cue.runStart < 100000)
      ∧ (let s := tape .acquiring fun c => { c with lastTransition := 97619, runIntervals := [1667] }
         Settled s ∧ s.cue.carrier = .acquiring ∧ (edge true 2381).interval ≤ 2381
           ∧ 100000 ≤ s.cue.lastTransition + 2381 - s.cue.runStart)
      ∧ (let s := tape .present id
         Settled s ∧ s.cue.carrier = .present ∧ s.cue.frame = .between
           ∧ 500000 < s.cue.lastTransition + (edge true 500001).interval - s.cue.lastValid)
      ∧ (let s := tape .present fun c => { c with
            lastTransition := 499000, locked := true, frame := .collecting, fields := [3] }
         Settled s ∧ s.cue.carrier = .present ∧ s.cue.frame ≠ .between ∧ s.hdr.settings.errorLog = false
           ∧ 500000 < s.cue.lastTransition + (edge true 1600).interval - s.cue.lastValid)
      ∧ (let s := tape .present fun c => { c with locked := true, group := [true] }
         Settled s ∧ s.cue.carrier = .present ∧ 0 < s.cue.period ∧ 7 * s.cue.period < (edge true 500000).interval
           ∧ s.cue.lastTransition + (edge true 500000).interval - s.cue.lastValid ≤ 500000)
      ∧ (let s := tape .present fun c => { c with period := 1600, window :=
            [true, false, true, false, true, false, true, false, true, false, true, false, false, false, false, true, true] }
         Settled s ∧ s.cue.carrier = .present ∧ s.cue.lastTransition + 2000 - s.cue.lastValid ≤ 500000
           ∧ (4 * (2000 - s.cue.period) ≤ s.cue.period ∧ 4 * (s.cue.period - 2000) ≤ s.cue.period)
           ∧ 0 < s.cue.period ∧ s.cue.locked = false ∧ s.cue.window.length = 17
           ∧ bitsNat (s.cue.window ++ [(edge true 2000).tone]) = 0b101010101010000111
           ∧ s.hdr.settings.decoding = true)
      ∧ (let s := tape .present fun c => { c with
            period := 1600, locked := true, group := [true, true, true, true, true] }
         let g := s.cue.group ++ [(edge true 1200).tone]
         Settled s ∧ s.cue.carrier = .present ∧ s.cue.lastTransition + 1200 - s.cue.lastValid ≤ 500000 ∧ (4 * (1200 - s.cue.period) ≤ s.cue.period ∧ 4 * (s.cue.period - 1200) ≤ s.cue.period)
           ∧ s.cue.locked = true ∧ g.length = 6 ∧ s.cue.spoiled = false ∧ s.hdr.settings.decoding = true
           ∧ s.cue.frame = .between ∧ classifyGroup g ≠ .fill ∧ classifyGroup g ≠ .start)
      ∧ (let s := tape .present fun c => { c with
            period := 1600, locked := true, frame := .collecting, group := [true, true, true, true, true] }
         let g := s.cue.group ++ [(edge true 1600).tone]
         Settled s ∧ s.cue.carrier = .present ∧ s.cue.lastTransition + 1600 - s.cue.lastValid ≤ 500000
           ∧ s.cue.frame = .collecting ∧ classifyGroup g = .invalid
           ∧ s.hdr.settings.errorLog = false) := by and_intros <;> decide

/-- An ADVANCE 3 to unit u: the check is u + 2 × 1 + 5 × 3. Of its intervals the first is given. -/
def advance3 (u c1 c0 : Nibble) : CueFrame :=
  { u := u, p2 := 0, p1 := 0, p0 := 3, c1 := c1, c0 := c0, intervals := [5100] }

/-- A GOTO 48: the check is 2 × 3 + 4 × 3 = 18. -/
def goto48 : CueFrame := { u := 0, p2 := 0, p1 := 3, p0 := 0, c1 := 1, c0 := 2, intervals := [5100] }

/-- A busy executor and a carrier. -/
def busyTape : State := doing fading (tape .present id)

/-- The last accepted frame was that one, at 0. -/
def heardBefore (l : List Nat) (t : Nat) (s : State) : State :=
  State.at t { s with cue := { s.cue with lastAccepted := some { nibbles := l, endTime := 0 } } }

theorem witness_SequencedCues :
    (let s := queued 7 busyTape
     Settled s ∧ busyAction s fading ∧ hears 1 (advance3 0 1 1) s ∧ ¬repeats (CueFrame.nibbles (advance3 0 1 1) 1) s
       ∧ addressed (0 : Nibble).toNat s = true ∧ s.cx.queue.length < 8 ∧ logRoom s)
      ∧ (let s := queued 8 busyTape
         Settled s ∧ busyAction s fading ∧ hears 1 (advance3 15 2 0) s ∧ ¬repeats (CueFrame.nibbles (advance3 15 2 0) 1) s
           ∧ addressed (15 : Nibble).toNat s = true ∧ 8 ≤ s.cx.queue.length ∧ logRoom s)
      ∧ (let s := tape .present id
         Settled s ∧ hears 3 goto48 s ∧ ¬repeats (CueFrame.nibbles goto48 3) s
           ∧ addressed goto48.u.toNat s = true ∧ s.tray.n ≤ 16 * goto48.p1.toNat ∧ logRoom s)
      ∧ (let s := tape .present id
         Settled s ∧ hears 1 (advance3 14 1 15) s ∧ ¬repeats (CueFrame.nibbles (advance3 14 1 15) 1) s
           ∧ addressed (14 : Nibble).toNat s = false ∧ s.hdr.settings.foreignLog = false)
      ∧ (let u := ring (tape .present id)
         let s : State := { u with hdr := { u.hdr with settings := { u.hdr.settings with foreignLog := true } } }
         Settled s ∧ hears 1 (advance3 14 1 15) s ∧ ¬repeats (CueFrame.nibbles (advance3 14 1 15) 1) s
           ∧ addressed (14 : Nibble).toNat s = false ∧ s.hdr.settings.foreignLog = true ∧ logRoom s
           ∧ s.hdr.settings.ringBase ≠ 0)
      ∧ (let s := heardBefore (CueFrame.nibbles (advance3 0 1 1) 1) 400000 (tape .present id)
         Settled s ∧ hears 1 (advance3 0 1 1) s ∧ repeats (CueFrame.nibbles (advance3 0 1 1) 1) s)
      ∧ (¬repeats (CueFrame.nibbles (advance3 0 1 1) 1) (heardBefore (CueFrame.nibbles (advance3 0 1 1) 1) 400001 busyTape))
      ∧ (let s := tape .present id
         Settled s ∧ s.cue.carrier = .present ∧ s.hdr.settings.decoding = true ∧ s.cue.frame = .between
           ∧ frameChecks 1 (advance3 0 1 2) = false ∧ s.hdr.settings.errorLog = false)
      ∧ (let u := ring (tape .present id)
         let s : State := { u with hdr := { u.hdr with settings := { u.hdr.settings with errorLog := true } } }
         Settled s ∧ s.cue.carrier = .present ∧ s.hdr.settings.decoding = true ∧ s.cue.frame = .between
           ∧ frameChecks 1 (advance3 0 1 2) = false ∧ s.hdr.settings.errorLog = true ∧ logRoom s)
      ∧ (Settled calm ∧ calm.cue.carrier ≠ .present)
      ∧ (let s := onCue fun c => { c with carrier := .present }
         Settled s ∧ s.cue.carrier = .present ∧ s.hdr.settings.decoding = false)
      ∧ (let s := tape .present id
         let fr : CueFrame := { u := 0, p2 := 15, p1 := 0, p0 := 3, c1 := 4, c0 := 6, intervals := [5100] } -- 10 + 45 + 15 = 70
         Settled s ∧ s.cx.action = none ∧ hears 5 fr s ∧ ¬repeats (CueFrame.nibbles fr 5) s
           ∧ addressed fr.u.toNat s = true ∧ logRoom s ∧ s.thermal.power = .normal)
      ∧ (let s := tape .present id
         Settled s ∧ s.cx.action = none ∧ hears 1 (advance3 0 1 1) s
           ∧ ¬repeats (CueFrame.nibbles (advance3 0 1 1) 1) s ∧ addressed (0 : Nibble).toNat s = true
           ∧ s.thermal.power = .normal ∧ s.tray.state = .trayOut ∧ s.hdr.settings.ringBase = 0) := by
  and_intros <;> decide

/-- A frame of unit 0 with a parameter below 16 and the check given. -/
def small (p0 c1 c0 : Nibble) : CueFrame := { u := 0, p2 := 0, p1 := 0, p0 := p0, c1 := c1, c0 := c0, intervals := [5100] }

theorem witness_ImmediateCues :
    (let s := tape .present id
     Settled s ∧ hears 10 markFrame s ∧ ¬repeats (CueFrame.nibbles markFrame 10) s ∧ addressed markFrame.u.toNat s = true
       ∧ logRoom s)
      ∧ (let s := { ring (tape .present id) with log := { calm.log with
            writing := some 0, staging := List.replicate 4 aRecord } }
         Settled s ∧ hears 10 markFrame s ∧ ¬repeats (CueFrame.nibbles markFrame 10) s
           ∧ addressed markFrame.u.toNat s = true ∧ logFull s)
      ∧ (let s := { ring (tape .present id) with log := { calm.log with w := 63, rd := 0 } }
         Settled s ∧ hears 10 markFrame s ∧ logFull s ∧ s.log.staging = [])
      ∧ (let s := tape .present id
         unknownKind 11 = true ∧ hears 11 (small 0 1 6) s ∧ ¬repeats (CueFrame.nibbles (small 0 1 6) 11) s)
      ∧ (let s := ring (tape .present id)
         let s : State := { s with log := { s.log with
           writing := some 0, staging := List.replicate 3 (.cue (plainFlags false) 0 10 0 0) } }
         Settled s ∧ hears 9 (small 1 1 7) s ∧ ¬repeats (CueFrame.nibbles (small 1 1 7) 9) s ∧ logRoom s)
      ∧ (let s : State := { tape .present id with clip := (playing .playing).clip }
         Settled s ∧ hears 8 (small 0 1 0) s ∧ ¬repeats (CueFrame.nibbles (small 0 1 0) 8) s ∧ s.clip.state = .playing
           ∧ s.clip.playing = some aClip ∧ s.clip.priming = false ∧ s.clip.start = none ∧ s.clip.requests = []
           ∧ s.clip.queue = [])
      ∧ (let s := clipTable (tape .present id)
         Settled s ∧ hears 7 (small 5 2 7) s ∧ ¬repeats (CueFrame.nibbles (small 5 2 7) 7) s ∧ (5 : Nat) / 64 % 2 = 0
           ∧ clipMisses 5 0 s) := by and_intros <;> decide

theorem witness_CarrierLossAndTapeTimers :
    (let s := State.at 500000 (tape .present id)
     Settled s ∧ s.cue.carrier = .present ∧ 500000 ≤ s.now - s.cue.lastValid ∧ s.cue.frame = .between)
      ∧ (let s := State.at 500000 (tape .present fun c => { c with frame := .collecting, fields := [3] })
         Settled s ∧ s.cue.carrier = .present ∧ 500000 ≤ s.now - s.cue.lastValid ∧ s.cue.frame ≠ .between
           ∧ s.hdr.settings.errorLog = false)
      ∧ (let s := State.at 500000 (tape .present fun c => { c with frame := .awaitingEnd, fields := [3] })
         let s : State := { s with hdr := { s.hdr with settings := { s.hdr.settings with errorLog := true } } }
         Settled s ∧ s.cue.carrier = .present ∧ 500000 ≤ s.now - s.cue.lastValid ∧ s.cue.frame ≠ .between
           ∧ s.hdr.settings.errorLog = true ∧ logRoom s)
      ∧ (let s := State.at 499999 (tape .present id)
         Settled s ∧ ¬(s.cue.carrier = .present ∧ 500000 ≤ s.now - s.cue.lastValid))
      ∧ (let s : State := State.at 700 { calm with deck := { calm.deck with cue := true, holdUntil := some 700 } }
         Settled s ∧ s.deck.holdUntil = some 700 ∧ 700 ≤ s.now)
      ∧ (let s : State := State.at 699 { calm with deck := { calm.deck with cue := true, holdUntil := some 700 } }
         Settled s ∧ s.deck.holdUntil = some 700 ∧ s.now < 700)
      ∧ (let s : State := { tape .present fun c => { c with tapeUs := 10000, tapeTime := 65535 } with
            deck := { calm.deck with tapeRun := true } }
         Settled s ∧ s.cue.carrier = .present ∧ s.deck.tapeRun = true ∧ 10000 ≤ s.cue.tapeUs)
      ∧ (Settled calm ∧ ¬(calm.cue.carrier = .present ∧ calm.deck.tapeRun = true ∧ 10000 ≤ calm.cue.tapeUs)) := by
  and_intros <;> decide

/-! ## Sound clips -/

/-- A gain ramp from g0 to gt, n ticks gone. -/
def gainRamp (g0 gt n : Nat) : GainRamp := { g0 := g0, gt := gt, ticks := n, start := 0 }

/-- That clip, looping. -/
def loopingClip : PlayingClip := { aClip with desc := { aClip.desc with loop := true } }

/-- The last word of a pass is in the RAM, with n of its samples still to fetch, for a clip that loops or not. -/
def lastWord (n : Nat) (loop : Bool) (queue : List ClipEntry) : State :=
  inRam (ramOf .clipPlayer 0x4000 0x80FF) (onClip fun c => { c with
    state := .playing, playing := some (if loop then loopingClip else aClip), toFetch := n, priming := true
    inFlight := true, fifo := List.replicate 30 1, queue := queue })

theorem witness_SamplesAndGain :
    (let a : RamAccess := { ramOf .clipPlayer 0x4000 0x80FF with void := true }
     Settled (inRam a calm) ∧ (inRam a calm).port.ram = some a ∧ a.who = .clipPlayer ∧ a.void = true)
      ∧ (let a := ramOf .clipPlayer 0x4000 0x80FF
         let s : State := inRam a { playing .playing with clip := { (playing .playing).clip with
           toFetch := 3, priming := true, inFlight := true, fifo := List.replicate 30 1 } }
         Settled s ∧ s.port.ram = some a ∧ a.void = false ∧ 2 < s.clip.toFetch ∧ s.clip.fetchDone = false
           ∧ s.clip.priming = true ∧ 32 ≤ (s.clip.fifo ++ [-1, -128]).length)
      ∧ (let s := lastWord 1 true []
         Settled s ∧ s.port.ram = some (ramOf .clipPlayer 0x4000 0x80FF) ∧ s.clip.fetchDone = false
           ∧ s.clip.playing = some loopingClip ∧ s.clip.toFetch = 1 ∧ loopingClip.desc.loop = true ∧ s.clip.queue = [])
      ∧ (let s := lastWord 2 true [aQueued]
         Settled s ∧ s.clip.playing = some loopingClip ∧ s.clip.toFetch = 2 ∧ s.clip.queue ≠ [])
      ∧ (let s := lastWord 1 false []
         Settled s ∧ s.clip.playing = some aClip ∧ s.clip.toFetch = 1 ∧ aClip.desc.loop = false
           ∧ s.clip.priming = true)
      ∧ (let s : State := { playing .playing with clip := { (playing .playing).clip with fifo := [-3] } }
         Settled s ∧ s.clip.playing = some aClip ∧ s.clip.priming = false
           ∧ s.clip.sampleBase + s.clip.samples * 1000000 / sampleRate 1 ≤ s.now ∧ s.clip.state = .playing
           ∧ s.clip.fifo = -3 :: [] ∧ s.clip.fetchDone = false)
      ∧ (let s : State := { playing .playing with clip := { (playing .playing).clip with
            fifo := [-3], fetchDone := true } }
         Settled s ∧ s.clip.playing = some aClip ∧ s.clip.state = .playing ∧ s.clip.fifo = [-3]
           ∧ s.clip.fetchDone = true ∧ s.clip.queue = [])
      ∧ (let s : State := { playing .playing with clip := { (playing .playing).clip with
            fifo := [-3], fetchDone := true, queue := [aQueued] } }
         Settled s ∧ s.clip.fifo = [-3] ∧ s.clip.fetchDone = true ∧ s.clip.queue = aQueued :: [])
      ∧ (let s : State := State.at 90 { playing .fadingOut with clip := { (playing .fadingOut).clip with
            fifo := [-3, 4], fetchDone := true, fadeCount := 2, samples := 1 } }
         Settled s ∧ s.clip.playing = some aClip
           ∧ s.clip.sampleBase + s.clip.samples * 1000000 / sampleRate 1 ≤ s.now ∧ s.clip.state = .fadingOut
           ∧ s.clip.fifo = -3 :: [4] ∧ 1 < s.clip.fadeCount ∧ [(4 : Int)] ≠ [])
      ∧ (let s := playing .playing
         Settled s ∧ s.clip.playing = some aClip ∧ s.clip.state = .playing ∧ s.clip.fifo = []
           ∧ s.clip.fetchDone = false)
      ∧ (let s : State := State.at 90 { playing .fadingOut with
            clip := { (playing .fadingOut).clip with fadeCount := 2 } }
         Settled s ∧ s.clip.playing = some aClip ∧ s.clip.state = .fadingOut ∧ s.clip.fifo = []
           ∧ s.clip.fetchDone = false ∧ 1 < s.clip.fadeCount)
      ∧ (Settled calm ∧ calm.clip.state ≠ .playing ∧ calm.clip.state ≠ .fadingOut)
      ∧ (let s := lastWord 1 true []
         Settled s ∧ s.clip.state = .playing ∧ s.clip.priming = true)
      ∧ (let s : State := State.at 89 { playing .fadingOut with clip := { (playing .fadingOut).clip with
            fifo := [-3], fadeCount := 2, samples := 1 } }
         Settled s ∧ s.clip.state = .fadingOut ∧ s.clip.playing = some aClip
           ∧ s.now < s.clip.sampleBase + s.clip.samples * 1000000 / sampleRate 1)
      ∧ (let s := State.at 49000 (onClip fun c => { c with gainRamp := some (gainRamp 192 64 48) })
         Settled s ∧ s.clip.gainRamp = some (gainRamp 192 64 48) ∧ (gainRamp 192 64 48).start + (48 + 1) * 1000 ≤ s.now
           ∧ 48 + 1 < 50)
      ∧ (let s := State.at 300000 (onClip fun c => { c with gainRamp := some (gainRamp 64 192 299) })
         Settled s ∧ s.clip.gainRamp = some (gainRamp 64 192 299)
           ∧ (gainRamp 64 192 299).start + (299 + 1) * 1000 ≤ s.now ∧ 300 ≤ 299 + 1)
      ∧ (let s := State.at 299999 (onClip fun c => { c with gainRamp := some (gainRamp 64 192 299) })
         Settled s ∧ s.clip.gainRamp = some (gainRamp 64 192 299)
           ∧ s.now < (gainRamp 64 192 299).start + (299 + 1) * 1000) := by and_intros <;> decide

/-- The last sample of a fade is due, with this queue and start record. -/
def fadeEnding (queue : List ClipEntry) (start : Option StartRecord) : State :=
  { playing .fadingOut with clip := { (playing .fadingOut).clip with
    fifo := [-3, 4], fadeCount := 1, queue := queue, start := start } }

/-- The premises that the clauses of a fade's end share. -/
abbrev fadeEnds (s : State) : Prop :=
  Settled s ∧ s.clip.playing = some aClip ∧ s.clip.priming = false
    ∧ s.clip.sampleBase + s.clip.samples * 1000000 / sampleRate 1 ≤ s.now ∧ s.clip.state = .fadingOut
    ∧ s.clip.fifo = -3 :: [4] ∧ s.clip.fadeCount ≤ 1

theorem witness_SamplesAndGain_fadeEnds :
    (let s := fadeEnding [] none
     fadeEnds s ∧ s.clip.start = none ∧ s.clip.queue = [])
      ∧ (let s := fadeEnding [aQueued] none
         fadeEnds s ∧ s.clip.queue = aQueued :: [])
      ∧ (let st := { starting false with copy := some [0x0100, 0, 1, 0x8040] }
         let s := fadeEnding [] (some st)
         fadeEnds s ∧ s.clip.start = some st ∧ st.request.queueMode = false ∧ s.clip.requests = [] ∧ logRoom s)
      ∧ (let s := fadeEnding [] (some (starting false))
         fadeEnds s ∧ s.clip.start = some (starting false) ∧ (starting false).copy = none)
      ∧ (let s : State := { fadeEnding [aQueued] none with clip := { (fadeEnding [aQueued] none).clip with fifo := [] } }
         Settled s ∧ s.clip.playing = some aClip ∧ s.clip.priming = false ∧ s.clip.fifo = [] ∧ s.clip.fetchDone = false
           ∧ s.clip.state = .fadingOut ∧ s.clip.fadeCount ≤ 1 ∧ s.clip.start = none
           ∧ s.clip.queue = aQueued :: [])
      ∧ (let s : State := { fadeEnding [] none with clip := { (fadeEnding [] none).clip with
            fifo := [-3], fadeCount := 9, fetchDone := true } }
         Settled s ∧ s.clip.fifo = -3 :: [] ∧ s.clip.fetchDone = true ∧ s.clip.start = none ∧ s.clip.queue = []) := by
  and_intros <;> decide

/-! ## The hand remote, the panel and the focus motor -/

/-- A remote frame of system 5, toggle 1, for a key, with its check. -/
def frame (key : Nat) : RemoteFrame := { sys := 5, toggle := 1, check := BitVec.ofNat 4 ((5 + key + 1) % 16) }

/-- The last frame was that key's, at 0. -/
def lastKey (key t : Nat) (s : State) : State :=
  State.at t { s with remote := { s.remote with lastFrame := some { sys := 5, key := key, toggle := 1, endTime := 0 } } }

/-- A busy executor, with the net count at n. -/
def busyRemote (n : Int) : State := doing fading (onRemote fun r => { r with netCount := n })

theorem witness_ShowKeys :
    (let s := busyRemote 9
     Settled s ∧ busyAction s fading ∧ s.thermal.power = .normal ∧ -9 ≤ s.remote.netCount ∧ accepts 1 (frame 1) s
       ∧ ¬heldKey 1 (frame 1) s ∧ s.prog = false)
      ∧ (let s := busyRemote (-9)
         Settled s ∧ busyAction s fading ∧ s.remote.netCount ≤ 9 ∧ accepts 2 (frame 2) s ∧ ¬heldKey 2 (frame 2) s
           ∧ s.prog = false)
      ∧ (let s : State := { busyTape with hdr := { busyTape.hdr with settings := { busyTape.hdr.settings with
            override := true, sysCode := 5 } } }
         Settled s ∧ busyAction s fading ∧ accepts 3 (frame 3) s ∧ ¬heldKey 3 (frame 3) s
           ∧ s.hdr.settings.override = true ∧ s.prog = true)
      ∧ (let s := lastKey 4 250001 (busyRemote 0)
         Settled s ∧ busyAction s fading ∧ accepts 4 (frame 4) s ∧ ¬heldKey 4 (frame 4) s ∧ s.prog = false)
      ∧ (let s := busyRemote (-9)
         Settled s ∧ busyAction s fading ∧ -9 ≤ s.remote.netCount ∧ (20000 : Nat) ≤ 20000
           ∧ s.remote.keyFwd.down = false ∧ s.remote.keyFwd.heldAtPin = false ∧ s.prog = false)
      ∧ (let s := busyRemote 0
         Settled s ∧ busyAction s fading ∧ s.remote.keyLamp.down = false ∧ s.remote.keyLamp.heldAtPin = false
           ∧ s.prog = false)
      ∧ (let s := busyTape
         Settled s ∧ accepts 1 (frame 1) s ∧ ¬(s.prog = false ∨ s.hdr.settings.override = true))
      ∧ (let s := lastKey 4 250000 calm
         Settled s ∧ accepts 4 (frame 4) s ∧ heldKey 4 (frame 4) s)
      ∧ (Settled calm ∧ ¬accepts 3 { frame 3 with check := 10 } calm)
      ∧ (let s := onRemote fun r => { r with keyRev := { down := false, heldAtPin := true } }
         Settled s ∧ s.remote.keyRev.down = false ∧ s.remote.keyRev.heldAtPin = true)
      ∧ (Settled calm ∧ (19999 : Nat) < 20000) := by and_intros <;> decide

theorem witness_ShowKeys_idle :
    (Settled (burning id) ∧ (burning id).thermal.power = .normal ∧ (burning id).cx.action = none
        ∧ accepts 4 (frame 4) (burning id) ∧ ¬heldKey 4 (frame 4) (burning id) ∧ (burning id).prog = false
        ∧ (burning id).lamp.state = .on)
      ∧ (Settled calm ∧ calm.cx.action = none ∧ accepts 4 (frame 4) calm ∧ ¬heldKey 4 (frame 4) calm
          ∧ calm.lamp.state = .off ∧ calm.thermal.fanFault = false ∧ calm.thermal.sensorFault = false)
      ∧ (let s := opened (ready (onTray fun t => { t with slot := 47 }))
         Settled s ∧ s.cx.action = none ∧ accepts 1 (frame 1) s ∧ ¬heldKey 1 (frame 1) s ∧ s.prog = false
           ∧ s.hdr.settings.changeMode = .opened ∧ liftsAtOnce s)
      ∧ (let s := slideShown false (opened (ready (onTray fun t => { t with slot := 47 })))
         Settled s ∧ s.cx.action = none ∧ accepts 1 (frame 1) s ∧ liftsAtOnce s
           ∧ letsGo { ({ s with remote := s.remote.framed 5 1 1 s.now } : State).doing
                { freshAction (.advance 1) .remote false .moving with issued := true } with
              tray := s.tray.lifted (TrayRequest.planned (.advance 1) false { dir := .forward, dest := 0, toGo := 1 })
                s.now }) := by and_intros <;> decide

theorem witness_OtherKeys :
    (let s : State := { onThermal fun h => { h with power := .standby, duty := 0 } with
        hdr := { calm.hdr with settings := { calm.hdr.settings with wakeByRemote := true } } }
     Settled s ∧ accepts 4 (frame 4) s ∧ ¬heldKey 4 (frame 4) s ∧ s.thermal.power ≠ .normal
       ∧ s.hdr.settings.wakeByRemote = true)
      ∧ (let s := onThermal fun h => { h with power := .standby, duty := 0 }
         Settled s ∧ accepts 1 (frame 1) s ∧ ¬heldKey 1 (frame 1) s ∧ s.thermal.power ≠ .normal)
      ∧ (Settled calm ∧ accepts 6 (frame 6) calm ∧ ¬heldKey 6 (frame 6) calm)
      ∧ (accepts 7 (frame 7) calm ∧ ¬heldKey 7 (frame 7) calm)
      ∧ (accepts 5 (frame 5) calm ∧ ¬heldKey 5 (frame 5) calm ∧ calm.cx.action = none ∧ calm.remote.focus = none)
      ∧ (let s := rampingTo 600 (doing fading (ring calm))
         Settled s ∧ accepts 5 (frame 5) s ∧ ¬heldKey 5 (frame 5) s ∧ s.cx.action = some fading
           ∧ fading.phase ≠ .moving ∧ fading.phase ≠ .warming ∧ s.remote.focus = none ∧ s.thermal.power = .normal
           ∧ endsAlone s fading ∧ s.lamp.ramp ≠ none)
      ∧ (let s := clipTable calm
         Settled s ∧ accepts (16 + (3 : BitVec 2).toNat) (frame 19) s
           ∧ ¬heldKey (16 + (3 : BitVec 2).toNat) (frame 19) s ∧ clipMisses (3 : BitVec 2).toNat 0 s)
      ∧ (Settled calm ∧ keyCodes.contains (63 : BitVec 6).toNat = false
          ∧ accepts (63 : BitVec 6).toNat (frame 63) calm) := by and_intros <;> decide

theorem witness_FocusRuns :
    (Settled calm ∧ calm.thermal.power = .normal ∧ calm.remote.focus = none ∧ accepts 8 (frame 8) calm
        ∧ ¬heldKey 8 (frame 8) calm)
      ∧ (accepts 9 (frame 9) calm ∧ ¬heldKey 9 (frame 9) calm)
      ∧ (20000 ≤ 20000 ∧ calm.remote.keyFocusOut.down = false ∧ calm.remote.keyFocusOut.heldAtPin = false
          ∧ calm.remote.keyFocusIn.down = false ∧ calm.remote.keyFocusIn.heldAtPin = false)
      ∧ (let s := focused (run .remote 4000000) calm
         Settled s ∧ s.thermal.power = .normal ∧ (∀ f ∈ s.remote.focus, f.owner ≠ .command) ∧ accepts 9 (frame 9) s
           ∧ ¬heldKey 9 (frame 9) s ∧ s.remote.keyFocusIn.down = false)
      ∧ (let s := focused (run .command 10000) (withRecord (record .active codeFocus 1 10 0) calm)
         Settled s ∧ s.thermal.power = .normal ∧ s.remote.focus = some (run .command 10000)
           ∧ (run .command 10000).owner = .command ∧ s.hdr.record.state = .active ∧ s.hdr.record.code = codeFocus
           ∧ accepts 8 (frame 8) s ∧ ¬heldKey 8 (frame 8) s ∧ accepts 9 (frame 9) s ∧ ¬heldKey 9 (frame 9) s
           ∧ s.remote.keyFocusIn.down = false ∧ s.remote.keyFocusOut.down = false
           ∧ s.remote.keyFocusIn.heldAtPin = false ∧ s.remote.keyFocusOut.heldAtPin = false)
      ∧ (let s := lastKey 8 250000 (focused (run .remote 4000000) calm)
         Settled s ∧ s.remote.focus = some (run .remote 4000000) ∧ (run .remote 4000000).owner = .remote
           ∧ (run .remote 4000000).inward = true ∧ accepts 8 (frame 8) s ∧ heldKey 8 (frame 8) s)
      ∧ (let s := focused (run .panel 4000000) (onRemote fun r => { r with
            keyFocusIn := { down := true, heldAtPin := false } })
         Settled s ∧ s.remote.focus = some (run .panel 4000000) ∧ (run .panel 4000000).owner = .panel
           ∧ s.remote.keyFocusIn.down = true)
      ∧ (let f : FocusRun := { run .panel 4000000 with inward := false }
         let s := focused f (onRemote fun r => { r with keyFocusOut := { down := true, heldAtPin := false } })
         Settled s ∧ s.remote.focus = some f ∧ f.owner = .panel ∧ f.inward = false ∧ s.remote.keyFocusOut.down = true
           ∧ PanelKey.focusIn ≠ if f.inward then .focusIn else .focusOut)
      ∧ (Settled calm ∧ calm.remote.focus = none ∧ (19999 : Nat) < 20000)
      ∧ (let s := State.at 250000 (focused (run .remote 4000000) calm)
         Settled s ∧ s.remote.focus = some (run .remote 4000000)
           ∧ 250000 ≤ s.now - (run .remote 4000000).lastRepeat)
      ∧ (let s := State.at 249999 (focused (run .remote 4000000) calm)
         Settled s ∧ s.remote.focus = some (run .remote 4000000) ∧ s.now - (run .remote 4000000).lastRepeat < 250000)
      ∧ (let s := State.at 4000000 (focused (run .panel 4000000) calm)
         Settled s ∧ s.remote.focus = some (run .panel 4000000)
           ∧ (run .panel 4000000).limit ≤ s.now - (run .panel 4000000).start ∧ (run .panel 4000000).owner ≠ .command)
      ∧ (let s := State.at 10000 (focused (run .command 10000) (withRecord (record .active codeFocus 1 10 0) calm))
         Settled s ∧ s.remote.focus = some (run .command 10000)
           ∧ (run .command 10000).limit ≤ s.now - (run .command 10000).start ∧ (run .command 10000).owner = .command
           ∧ s.hdr.record.state = .active ∧ s.hdr.record.code = codeFocus)
      ∧ (let s := State.at 3999999 (focused (run .panel 4000000) calm)
         Settled s ∧ s.remote.focus = some (run .panel 4000000)
           ∧ s.now - (run .panel 4000000).start < (run .panel 4000000).limit) := by and_intros <;> decide

/-- The line in a state, with the mark of the element awaited seen or not. -/
def line (st : LineState) (seen : Bool) : State :=
  onRemote fun r => { r with line := st, markSeen := seen, bits := if st = .bits then [true] else [] }

theorem witness_FramesAreAbandoned :
    (Settled calm ∧ calm.remote.line = .waiting ∧ 4500 ≤ 4500 ∧ 7500 ≤ 7500)
      ∧ (Settled (line .leader true) ∧ (line .leader true).remote.line = .leader ∧ 2250 ≤ 2250 ∧ 3750 ≤ 3750
          ∧ 2249 < 2250 ∧ 3750 < 3751)
      ∧ (Settled (line .bits false) ∧ (line .bits false).remote.line = .bits
          ∧ (line .bits false).remote.markSeen = false ∧ (299 < 300 ∨ 700 < 299) ∧ (701 < 300 ∨ 700 < 701)
          ∧ (299 < 4500 ∨ 7500 < 299) ∧ (7501 < 4500 ∨ 7500 < 7501))
      ∧ (Settled (line .bits true) ∧ (line .bits true).remote.line = .bits
          ∧ (line .bits true).remote.markSeen = true
          ∧ (299 < 300 ∧ (700 < 701 ∧ 701 < 1200) ∧ (700 < 1199 ∧ 1199 < 1200) ∧ 1800 < 1801))
      ∧ (Settled (line .closing false) ∧ (line .closing false).remote.line = .closing
          ∧ (line .closing false).remote.markSeen = false ∧ 3750 < 3751) := by decide

/-! ## Invariants -/

/-- The machine right after reset with a NOP of the host in front. -/
def begun : State := { State.reset with pending := [.nop (.word 7)] }

theorem witness_invariants :
    (Memory.wf begun.mem = true ∧ begun.hdr.settings.thermalOrder ∧ CoolingLaw begun) ∧ StatusKept begun
      ∧ ∃ t, step begun = .next t := by
  refine ⟨by decide, fun _ i h => ?_, _, rfl⟩
  exact Or.inl (List.mem_range.mpr h)

end Sys2Proof.Tests
end

section
/-! The Cue Executor after the RESET pin (R24). The release of the pin leaves a part with nothing to do at once, so the
end of the step changes only the traffic on the RAM; what the executor holds is then read off the reset state, and the
two status words off what the executor holds. -/

namespace Sys2Proof.Machine

/-! ## What STATUS and QUEUE show of the executor (R215) -/

theorem flagNat_le_one (b : Bool) : flagNat b ≤ 1 := by cases b <;> decide

theorem flagNat_eq_one_iff (b : Bool) : flagNat b = 1 ↔ b = true := by cases b <;> decide

/-- Bit 1 of STATUS is EXEC, whatever the other fields hold: they stand in bit 0 and from bit 2 up. -/
theorem compose_status_exec (s : State) : (compose s 0).getLsbD 1 = s.cx.busy := by
  have rdy := flagNat_le_one s.sw.rdy
  have busy := flagNat_le_one s.cx.busy
  simp only [compose, statusWord, wordOf, BitVec.getLsbD_ofNat, Nat.testBit_eq_decide_div_mod_eq]
  rw [Bool.eq_iff_iff, ← flagNat_eq_one_iff s.cx.busy]
  simp only [Bool.and_eq_true, decide_eq_true_eq]
  omega

/-- The low four bits of QUEUE are the depth of the Cue Queue. -/
theorem compose_queue_depth (s : State) : fieldOf (compose s 22) 0 4 = s.cx.queue.length % 16 := by
  simp only [compose, queueWord, wordOf, fieldOf, BitVec.toNat_ofNat, Nat.shiftRight_zero]
  omega

/-! ## The release of the RESET pin -/

theorem exec_resetPinRelease (p : ResetPins) (s : State) :
    exec (.resetPinRelease p) s = .next (finish (releaseReset p s)) := rfl

/-- After the release the executor has nothing to take: no completion, no action and no source waits. -/
theorem executorStep_releaseReset (p : ResetPins) (s : State) : executorStep (releaseReset p s) = none := rfl

/-- After the release no ring is set, so the Log Writer has nothing to take. -/
theorem logQuiet_releaseReset (p : ResetPins) (s : State) : logQuiet (releaseReset p s) := Or.inl rfl

/-- After the release no access of the host is held (assumption 10). -/
theorem hostWaits_releaseReset (p : ResetPins) (s : State) : (releaseReset p s).port.hostWaits = false := rfl

/-- The step that releases the pin ends in the reset state, but for the traffic on the RAM. -/
theorem body_finish_releaseReset (p : ResetPins) (s : State) :
    (finish (releaseReset p s)).body = (releaseReset p s).body :=
  body_finish (executorStep_releaseReset p s) (logQuiet_releaseReset p s) (Or.inr (hostWaits_releaseReset p s))

theorem cx_finish_releaseReset (p : ResetPins) (s : State) :
    (finish (releaseReset p s)).cx = { action := none, queue := [], showLevel := 1023, pendingCmd := false } :=
  body_cx (body_finish_releaseReset p s)

theorem window_finish_releaseReset (p : ResetPins) (s : State) :
    (finish (releaseReset p s)).lamp.window = false :=
  congrArg Lamp.window (body_lamp (body_finish_releaseReset p s))

/-- Settles O4: the executor's fields are those of the reset state, and EXEC and the depth in QUEUE follow from them. -/
theorem executorAfterThePin : Obligations.ExecutorAfterThePin := by
  intro p s _
  have hcx := cx_finish_releaseReset p s
  refine ⟨_, exec_resetPinRelease p s, by rw [hcx], by rw [hcx], by rw [hcx], by rw [hcx],
    window_finish_releaseReset p s, ?exec, ?depth⟩
  case exec => rw [compose_status_exec, hcx]; rfl
  case depth => rw [compose_queue_depth, hcx]; rfl

end Sys2Proof.Machine
end

section
/-! The Record Shadow after the RESET pin (R69). The end of the step that releases the pin leaves the Watch Table, the
pins and the bases as the reset state has them; and a part whose fetch list is empty asks the RAM for no record word, so
no fetch is under way after it either. -/

namespace Sys2Proof.Machine

/-! ## A part that fetches no record (R59) -/

/-- The Record Shadow has nothing to fetch, no request waiting at the Memory Port, and no access of its own in the RAM. -/
structure NoFetch (s : State) : Prop where
  list : s.shadow.fetchList = []
  asked : s.port.reqs.recordShadow = none
  inRam : s.port.inRamOf .recordShadow = none

/-- Whether a record is fetched is a matter of the fetch list, the shadow's request and the access in the RAM. -/
theorem NoFetch.congr {s t : State} (h : NoFetch s) (hsh : t.shadow = s.shadow)
    (hreq : t.port.reqs.recordShadow = s.port.reqs.recordShadow) (hram : t.port.ram = s.port.ram) : NoFetch t where
  list := by rw [hsh, h.list]
  asked := hreq.trans h.asked
  inRam := by unfold Port.inRamOf; rw [hram]; exact h.inRam

theorem nextFetch_of_noFetch {s : State} (h : NoFetch s) : s.shadow.nextFetch = none := by
  simp [Shadow.nextFetch, h.list]

theorem noFetch_presentClip {s : State} (h : NoFetch s) : NoFetch (presentClip s) := by
  unfold presentClip
  split
  · exact h.congr (by simp [putReqs]) (by simp [putReqs]) (by simp [putReqs])
  · exact h

theorem noFetch_presentStatus {s : State} (h : NoFetch s) : NoFetch (presentStatus s) := by
  unfold presentStatus
  split
  · split
    · exact h.congr rfl rfl rfl
    · exact h
  · exact h

theorem noFetch_presentHeader {s : State} (h : NoFetch s) : NoFetch (presentHeader s) := by
  unfold presentHeader
  split
  · split
    · exact h.congr rfl rfl rfl
    · exact h
  · exact h

theorem noFetch_presentLog {s : State} (h : NoFetch s) : NoFetch (presentLog s) := by
  unfold presentLog
  split
  · exact h.congr rfl rfl rfl
  · exact h

/-- With an empty fetch list there is no next word to ask for. -/
theorem noFetch_presentShadow {s : State} (h : NoFetch s) : NoFetch (presentShadow s) := by
  unfold presentShadow
  split
  · exact h.congr rfl ((nextFetch_of_noFetch h).trans h.asked.symm) rfl
  · exact h

theorem noFetch_presentCurve {s : State} (h : NoFetch s) : NoFetch (presentCurve s) := by
  unfold presentCurve
  split
  · exact h.congr rfl rfl rfl
  · exact h

theorem noFetch_present {s : State} (h : NoFetch s) : NoFetch (present s) :=
  noFetch_presentCurve (noFetch_presentShadow (noFetch_presentLog (noFetch_presentHeader
    (noFetch_presentStatus (noFetch_presentClip h)))))

theorem noFetch_after {s : State} (he : executorStep s = none) (hl : logQuiet s) (h : NoFetch s) :
    NoFetch (after s) := by
  unfold after
  rw [settle_of_none 40 he, logPump_of_quiet 5 hl]
  exact noFetch_present h

/-- The arbiter does not choose the Record Shadow when it has no request (R192). -/
theorem choose_ne_recordShadow {p : Port} {u : Bool} (h : p.reqs.recordShadow = none) :
    choose p u ≠ some .recordShadow := by
  have hL : p.reqs.firstL ≠ some .recordShadow := by
    unfold Requests.firstL
    repeat' split
    all_goals simp
  have hF : p.reqs.firstF ≠ some .recordShadow := by
    simp only [Requests.firstF, h, Option.isSome_none, Bool.false_eq_true, if_false]
    split <;> simp
  have hG : p.reqs.guarded ≠ some .recordShadow := by
    unfold Requests.guarded
    split
    · next w hw => rwa [← hw]
    · exact hF
  unfold choose
  repeat' split
  all_goals first
    | assumption
    | simp

/-- An access of another requester is performed: no record word is read. -/
theorem noFetch_startAccess {who : Requester} {addr : Nat} {data : Word} {hand : Bool} {r : Requests} {s : State}
    (hw : who ≠ .recordShadow) (hr : r.recordShadow = s.port.reqs.recordShadow) (h : NoFetch s) :
    NoFetch (startAccess who addr data hand r s) :=
  ⟨h.list, hr.trans h.asked, by simp [startAccess, Port.inRamOf, hw]⟩

/-- A grant of the part's own that is not the Record Shadow's begins no fetch; the host's may, since what its write
changes is handed on (R186). -/
theorem noFetch_grantTo {who : Requester} {s : State} (hh : who ≠ .host) (hs : who ≠ .recordShadow) (h : NoFetch s) :
    NoFetch (grantTo who s) := by
  cases who <;> simp only [grantTo, grantStatus, grantHeader, grantLog, grantRead]
  case host => exact absurd rfl hh
  case recordShadow => exact absurd rfl hs
  all_goals
    split
    · exact noFetch_startAccess hs rfl h
    · exact h

theorem noFetch_grant {s : State} (hw : s.port.hostWaits = false) (h : NoFetch s) : NoFetch (grant s) := by
  unfold grant
  split
  · exact h
  · split
    · next who hc =>
      refine noFetch_grantTo ?host ?shadow h
      case host => rintro rfl; exact choose_ne_host hw hc
      case shadow => rintro rfl; exact choose_ne_recordShadow h.asked hc
    · exact h

/-- **The end of a step at rest fetches no record** where there is none to fetch. -/
theorem noFetch_finish {s : State} (he : executorStep s = none) (hl : logQuiet s) (hw : s.port.hostWaits = false)
    (h : NoFetch s) : NoFetch (finish s) := by
  have asked := onlyAsked_after he hl
  have hw' : (after s).port.hostWaits = false := (hostWaits_congr asked.access).trans hw
  have body : (grant (after s)).body = s.body := (body_grant (Or.inr hw')).trans asked.body
  exact noFetch_after ((executorStep_none_of_body body).2 he) ((logQuiet_of_body body).2 hl)
    (noFetch_grant hw' (noFetch_after he hl h))

/-! ## The clips of two states with one body -/

theorem body_clipStart {s t : State} (h : t.body = s.body) : t.clip.start = s.clip.start := by
  simpa only [State.body] using congrArg (fun u : State => u.clip.start) h

theorem body_clipQueue {s t : State} (h : t.body = s.body) : t.clip.queue = s.clip.queue := by
  simpa only [State.body] using congrArg (fun u : State => u.clip.queue) h

/-! ## The Record Shadow at the release of the RESET pin -/

/-- With no table of its kind set, a record is absent (R54). -/
theorem lookup_of_no_table {kind : RecKind} {s : State} (h : recordBase kind s = 0) (key : Nat) (pin : Bool) :
    (lookup kind key pin s).2 = .absent := by
  rw [lookup, if_pos h]

/-- In the reset state no table of either kind is set. -/
theorem recordBase_of_reset_settings {s : State} (h : s.hdr.settings = State.reset.hdr.settings) (kind : RecKind) :
    recordBase kind s = 0 := by
  cases kind <;> rw [recordBase, h] <;> rfl

theorem noFetch_finish_releaseReset (p : ResetPins) (s : State) : NoFetch (finish (releaseReset p s)) :=
  noFetch_finish (executorStep_releaseReset p s) (logQuiet_releaseReset p s) (hostWaits_releaseReset p s)
    ⟨rfl, rfl, rfl⟩

theorem shadow_finish_releaseReset (p : ResetPins) (s : State) :
    (finish (releaseReset p s)).shadow = { table := Vector.replicate 16 .free, fetchList := [], useStamp := 0 } :=
  body_shadow (body_finish_releaseReset p s)

theorem settings_finish_releaseReset (p : ResetPins) (s : State) :
    (finish (releaseReset p s)).hdr.settings = State.reset.hdr.settings :=
  congrArg Header.settings (body_hdr (s := releaseReset p s) (body_finish_releaseReset p s))

/-- After the release the transport holds neither of its pins (R62). -/
theorem trayPins_finish_releaseReset (p : ResetPins) (s : State) :
    (finish (releaseReset p s)).tray.destPin = none ∧ (finish (releaseReset p s)).tray.shownPin = none := by
  rw [body_tray (body_finish_releaseReset p s)]
  exact ⟨rfl, rfl⟩

/-- After the release the Clip Player holds no record: it has none to start, and none queued (R62). -/
theorem clipPins_finish_releaseReset (p : ResetPins) (s : State) :
    (finish (releaseReset p s)).clip.start = none ∧ (finish (releaseReset p s)).clip.queue = [] :=
  have hbody := body_finish_releaseReset p s
  ⟨body_clipStart hbody, body_clipQueue hbody⟩

/-- Settles O5: the table, the pins and the bases are those of the reset state, from which the counts and the lookups
follow; and with an empty fetch list the end of the step asks for no record word. -/
theorem shadowAfterThePin : Obligations.ShadowAfterThePin := by
  intro p s _
  have hshadow := shadow_finish_releaseReset p s
  have hsettings := settings_finish_releaseReset p s
  have hfetch := noFetch_finish_releaseReset p s
  obtain ⟨hdest, hshown⟩ := trayPins_finish_releaseReset p s
  obtain ⟨hstart, hqueue⟩ := clipPins_finish_releaseReset p s
  refine ⟨_, exec_resetPinRelease p s, by rw [hshadow], hfetch.list, hfetch.asked, hfetch.inRam, hdest, hshown,
    hstart, hqueue, ?valid, ?stale, by rw [hsettings]; rfl, by rw [hsettings]; rfl, ?absent⟩
  case valid => rw [hshadow]; decide
  case stale => rw [hshadow]; decide
  case absent => exact fun kind key pin => lookup_of_no_table (recordBase_of_reset_settings hsettings kind) key pin

end Sys2Proof.Machine
end

section
/-! The Thermal Controller after the RESET pin (R122). The end of the step that releases the pin changes no register of
the controller and no setting, and does not advance the clock, so what they hold is read off the reset state; TH, TG and
FAN follow from the controller's registers alone. -/

namespace Sys2Proof.Machine

/-! ## What TH, TG and FAN show of the Thermal Controller (R104) -/

theorem compose_th (s : State) : compose s 12 = wordOf s.thermal.th := rfl

theorem compose_tg (s : State) : compose s 13 = wordOf s.thermal.tg := rfl

theorem compose_fan (s : State) : compose s 14 = fanWord s.thermal := rfl

/-! ## The Thermal Controller at the release of the RESET pin -/

theorem body_now {s t : State} (h : t.body = s.body) : t.now = s.now := by
  simpa only [State.body] using congrArg State.now h

/-- The first read cycle is due 250 ms after the release, since the clock starts there at 0 (R122). -/
theorem now_finish_releaseReset (p : ResetPins) (s : State) : (finish (releaseReset p s)).now = 0 :=
  body_now (s := releaseReset p s) (body_finish_releaseReset p s)

theorem thermal_finish_releaseReset (p : ResetPins) (s : State) :
    (finish (releaseReset p s)).thermal = State.reset.thermal :=
  body_thermal (s := releaseReset p s) (body_finish_releaseReset p s)

/-- Settles O7: the controller's registers and the settings are those of the reset state, and the three status words are
composed from those registers. -/
theorem thermalControllerAfterThePin : Obligations.ThermalControllerAfterThePin := by
  intro p s _
  refine ⟨_, exec_resetPinRelease p s, now_finish_releaseReset p s, ?values⟩
  rw [compose_th, compose_tg, compose_fan, thermal_finish_releaseReset, settings_finish_releaseReset]
  decide

end Sys2Proof.Machine
end

section
/-! The Clip Player after the RESET pin (R170). An IDLE player wants no sample word, and a player that wants none is left
as it is by the end of a step at rest, its word on the way included; so what it holds is read off the reset state, and
CLIP and UNDERRUNS follow from the player alone. -/

namespace Sys2Proof.Machine

/-! ## What CLIP and UNDERRUNS show of the Clip Player (R151) -/

theorem compose_clip (s : State) : compose s 23 = clipWord s.clip := rfl

theorem compose_underruns (s : State) : compose s 24 = wordOf s.clip.underruns := rfl

/-! ## A player that wants no sample word (R158) -/

/-- Only a player that is PLAYING or FADING OUT fetches samples. -/
theorem wantsWord_of_idle {c : ClipPlayer} (h : c.state = .idle) : c.wantsWord = false := by
  simp [ClipPlayer.wantsWord, h]

theorem clip_presentStatus (s : State) : (presentStatus s).clip = s.clip := by
  unfold presentStatus
  split
  · split <;> rfl
  · rfl

theorem clip_presentHeader (s : State) : (presentHeader s).clip = s.clip := by
  unfold presentHeader
  split
  · split <;> rfl
  · rfl

theorem clip_presentLog (s : State) : (presentLog s).clip = s.clip := by
  unfold presentLog
  split <;> rfl

theorem clip_presentShadow (s : State) : (presentShadow s).clip = s.clip := by
  unfold presentShadow
  split <;> rfl

theorem clip_presentCurve (s : State) : (presentCurve s).clip = s.clip := by
  unfold presentCurve
  split <;> rfl

/-- Only the Clip Player's own request changes the player, and there is none. -/
theorem clip_present {s : State} (h : s.clip.wantsWord = false) : (present s).clip = s.clip := by
  unfold present
  rw [clip_presentCurve, clip_presentShadow, clip_presentLog, clip_presentHeader, clip_presentStatus,
    presentClip_of_not_wants h]

theorem clip_after {s : State} (he : executorStep s = none) (hl : logQuiet s) (h : s.clip.wantsWord = false) :
    (after s).clip = s.clip := by
  unfold after
  rw [settle_of_none 40 he, logPump_of_quiet 5 hl]
  exact clip_present h

/-- A grant to the part leaves the player alone: it is told of its word when the access ends (R158). The host's may not,
since what its write changes is handed on (R186). -/
theorem clip_grantTo {who : Requester} {s : State} (h : who ≠ .host) : (grantTo who s).clip = s.clip := by
  cases who <;> simp only [grantTo, grantStatus, grantHeader, grantLog, grantRead]
  case host => exact absurd rfl h
  all_goals split <;> rfl

theorem clip_grant {s : State} (hw : s.port.hostWaits = false) : (grant s).clip = s.clip := by
  unfold grant
  split
  · rfl
  · split
    · next who hc =>
      refine clip_grantTo ?_
      rintro rfl
      exact choose_ne_host hw hc
    · rfl

/-- **The end of a step at rest leaves the whole player**, the word on its way included, where it wants no word. -/
theorem clip_finish {s : State} (he : executorStep s = none) (hl : logQuiet s) (hw : s.port.hostWaits = false)
    (h : s.clip.wantsWord = false) : (finish s).clip = s.clip := by
  have asked := onlyAsked_after he hl
  have hw' : (after s).port.hostWaits = false := (hostWaits_congr asked.access).trans hw
  have body : (grant (after s)).body = s.body := (body_grant (Or.inr hw')).trans asked.body
  have clip : (grant (after s)).clip = s.clip := (clip_grant hw').trans (clip_after he hl h)
  have last : (finish s).clip = (grant (after s)).clip :=
    clip_after ((executorStep_none_of_body body).2 he) ((logQuiet_of_body body).2 hl) (by rw [clip, h])
  exact last.trans clip

/-! ## The Clip Player at the release of the RESET pin -/

theorem clip_finish_releaseReset (p : ResetPins) (s : State) :
    (finish (releaseReset p s)).clip = State.reset.clip :=
  clip_finish (executorStep_releaseReset p s) (logQuiet_releaseReset p s) (hostWaits_releaseReset p s)
    (wantsWord_of_idle rfl)

/-- Settles O6: the player is that of the reset state, with no word on its way, and the two status words are composed from
it alone. -/
theorem clipPlayerAfterThePin : Obligations.ClipPlayerAfterThePin := by
  intro p s _
  refine ⟨_, exec_resetPinRelease p s, ?_⟩
  rw [compose_clip, compose_underruns, clip_finish_releaseReset]
  decide

end Sys2Proof.Machine
end
section
/-! The four invariants of the machine (O56 to O60). A step makes its next state from the last by the named updates
(`step_moves`), so each invariant is an induction over `Moves`: one case for each update. -/

namespace Sys2Proof.Machine

/-- The Status Writer's request changes nothing but the dirty set and the requests (R206). -/
theorem presentStatus_eq (s : State) :
    ∃ dirty reqs, presentStatus s = { s with
      sw := { s.sw with dirty := dirty }, port := { s.port with reqs := reqs } } := by
  unfold presentStatus
  split
  · split
    · exact ⟨_, _, rfl⟩
    · exact ⟨s.sw.dirty, s.port.reqs, rfl⟩
  · exact ⟨s.sw.dirty, s.port.reqs, rfl⟩

/-- A grant to the Status Writer changes nothing but the Memory Port (R206). -/
theorem grantStatus_eq (s : State) : ∃ port, grantStatus s = { s with port := port } := by
  unfold grantStatus
  split
  · exact ⟨_, rfl⟩
  · exact ⟨s.port, rfl⟩

/-! ## The canonical form of the memory (R185) -/

/-- The updates that write to the RAM are the two stores, and both keep the canonical form; the other updates leave the
RAM alone. -/
theorem Moves.memory_wf {s t : State} (h : Moves s t) (hs : Memory.wf s.mem = true) : Memory.wf t.mem = true := by
  induction h with
  | refl => exact hs
  | trans _ _ ihs iht => exact iht (ihs hs)
  | store a w s => exact wf_memStore a w hs
  | land a w s => exact wf_memSetWord a w hs
  | landStatus a s _ => exact wf_memSetWord a.addr a.data hs
  | reset _ ih => exact ih hs
  | ask s => obtain ⟨_, _, e⟩ := presentStatus_eq s; rw [e]; exact hs
  | grantWord s _ => obtain ⟨_, e⟩ := grantStatus_eq s; rw [e]; exact hs
  | assertPin s => exact hs
  | releasePin p s => exact hs
  | pass d s => exact hs
  | _ => simpa [putSettings] using hs

/-- Settles O56, by induction over the updates that a step is made of. -/
theorem everyStepKeepsTheMemoryForm : Obligations.EveryStepKeepsTheMemoryForm :=
  fun _ _ hs h => (step_moves h).memory_wf hs

/-! ## The order of the thermal settings (R121) -/

/-- Only the update of the settings can move them, and it is made with settings that keep the order; the RESET pin puts
the defaults in effect. -/
theorem Moves.thermalOrder {s t : State} (h : Moves s t) (hs : s.hdr.settings.thermalOrder) :
    t.hdr.settings.thermalOrder := by
  induction h with
  | refl => exact hs
  | trans _ _ ihs iht => exact iht (ihs hs)
  | settings st s keeps => simpa [putSettings] using keeps hs
  | header h s same _ => exact same ▸ hs
  | releasePin p s => exact (by decide : Settings.default.thermalOrder)
  | reset _ ih => exact ih hs
  | ask s => obtain ⟨_, _, e⟩ := presentStatus_eq s; rw [e]; exact hs
  | grantWord s _ => obtain ⟨_, e⟩ := grantStatus_eq s; rw [e]; exact hs
  | landStatus a s _ => exact hs
  | assertPin s => exact hs
  | pass d s => exact hs
  | _ => simpa using hs

/-- Settles O57, by induction over the updates that a step is made of. -/
theorem everyStepKeepsTheThermalOrder : Obligations.EveryStepKeepsTheThermalOrder :=
  fun _ _ hs h => (step_moves h).thermalOrder hs

/-! ## The commanded duty, and STANDBY dark and cold (R108, R118) -/

/-- The duty is decided from the thermal state and whether the lamp is lit (R108). -/
theorem dutyOf_congr {s t : State} (hp : t.thermal.power = s.thermal.power) (hf : t.thermal.fanFault = s.thermal.fanFault)
    (hs : t.thermal.sensorFault = s.thermal.sensorFault) (hr : t.thermal.runOn = s.thermal.runOn)
    (hz : t.thermal.zone = s.thermal.zone) (hl : t.lamp.state = s.lamp.state) : dutyOf t = dutyOf s := by
  simp only [dutyOf, hp, hf, hs, hr, hz, hl]

/-- The cooling law reads the thermal state and the lamp state alone. -/
theorem CoolingLaw.of_same {s t : State} (h : CoolingLaw s) (ht : t.thermal = s.thermal)
    (hl : t.lamp.state = s.lamp.state) : CoolingLaw t := by
  obtain ⟨counts, duty, dark⟩ := h
  have same : dutyOf t = dutyOf s := dutyOf_congr (by rw [ht]) (by rw [ht]) (by rw [ht]) (by rw [ht]) (by rw [ht]) hl
  exact ⟨ht ▸ counts, by rw [ht, same]; exact duty, by rw [ht, hl]; exact dark⟩

/-- An update of the Thermal Controller that leaves what the duty is decided from keeps the law. -/
theorem CoolingLaw.of_sameDuty {s t : State} (h : CoolingLaw s) (ht : t.thermal.sameDuty s.thermal)
    (hl : t.lamp.state = s.lamp.state) : CoolingLaw t := by
  obtain ⟨counts, duty, dark⟩ := h
  obtain ⟨hp, hd, hf, hr, hz, hc⟩ := ht
  obtain ⟨hs, hc⟩ := hc counts
  exact ⟨hc, by rw [hd, duty, dutyOf_congr hp hf hs hr hz hl], by rw [hp, hl, hr]; exact dark⟩

/-- In STANDBY the lamp is dark and run-on is not active: the part of the law that a decision of the duty needs. -/
abbrev StandbyCold (s : State) : Prop :=
  s.thermal.countsOk ∧ (s.thermal.power = .standby → s.lamp.state.lit = false ∧ s.thermal.runOn = none)

theorem CoolingLaw.cold {s : State} (h : CoolingLaw s) : StandbyCold s := ⟨h.1, h.2.2⟩

/-- A decision of the duty brings the commanded duty about (R108). -/
theorem coolingLaw_decideDuty {s : State} (h : StandbyCold s) : CoolingLaw (decideDuty s) := by
  obtain ⟨counts, dark⟩ := h
  refine ⟨by simpa [decideDuty] using counts, ?_, by simpa [decideDuty] using dark⟩
  have same : dutyOf (decideDuty s) = dutyOf s := by
    apply dutyOf_congr <;> simp [decideDuty, Thermal.sensorFault]
  exact (show (decideDuty s).thermal.duty = dutyOf s by simp [decideDuty]).trans same.symm

/-- The deferral enters STANDBY with the lamp dark and run-on over (R118). -/
theorem coolingLaw_evalStandby {s : State} (h : CoolingLaw s) : CoolingLaw (evalStandby s) := by
  unfold evalStandby
  split
  · next c =>
    obtain ⟨_, dark, idle⟩ := c
    exact coolingLaw_decideDuty ⟨by simpa using h.1, fun _ => by simp [dark, idle]⟩
  · exact h

theorem coolingLaw_endRunOn {s : State} (h : StandbyCold s) : CoolingLaw (endRunOn s) :=
  coolingLaw_evalStandby (coolingLaw_decideDuty
    ⟨by simpa using h.1, fun hp => by simpa using (h.2 (by simpa using hp)).1⟩)

theorem coolingLaw_startRunOn {s : State} (h : s.thermal.countsOk) (hp : s.thermal.power ≠ .standby) :
    CoolingLaw (startRunOn s) :=
  coolingLaw_decideDuty ⟨by simpa using h, fun hc => absurd (by simpa using hc) hp⟩

/-- The report of a lamp's change of state keeps the law: run-on starts from a lit lamp, which is not one of STANDBY. -/
theorem coolingLaw_lampReport {old : LampState} {s : State} (h : StandbyCold s)
    (hold : old.lit = true → s.thermal.power ≠ .standby) : CoolingLaw (lampReport old s) := by
  unfold lampReport
  have start : StandbyCold (if old.lit && !s.lamp.state.lit then startRunOn s else s) := by
    split
    · next c =>
      simp only [Bool.and_eq_true] at c
      exact (coolingLaw_startRunOn h.1 (hold c.1)).cold
    · exact h
  have stop : ∀ {u : State}, StandbyCold u →
      StandbyCold (if u.lamp.state = .warming ∧ u.thermal.runOn.isSome then endRunOn u else u) := by
    intro u hu
    split
    · exact (coolingLaw_endRunOn hu).cold
    · exact hu
  exact coolingLaw_evalStandby (coolingLaw_decideDuty (stop start))

theorem coolingLaw_setLampState {st : LampState} {s : State} (h : CoolingLaw s)
    (hst : st.lit = true → s.lamp.state.lit = true ∨ s.thermal.power = .normal) : CoolingLaw (setLampState st s) := by
  unfold setLampState
  split
  · exact h
  · refine coolingLaw_lampReport ⟨by simpa using h.1, fun hp => ?_⟩ fun hold hp => ?_
    · obtain ⟨dark, idle⟩ := h.2.2 (by simpa using hp)
      refine ⟨?_, by simpa using idle⟩
      cases hl : st.lit with
      | false => simpa using hl
      | true =>
        rcases hst hl with lit | normal
        · simp [dark] at lit
        · simp [normal] at hp
    · obtain ⟨dark, _⟩ := h.2.2 (by simpa using hp)
      simp [dark] at hold

/-- Every update keeps the cooling law: those that leave the Thermal Controller and the lamp state alone, those that leave
what the duty is decided from, and those that decide the duty again. -/
theorem Moves.coolingLaw {s t : State} (h : Moves s t) (hs : CoolingLaw s) : CoolingLaw t := by
  induction h with
  | refl => exact hs
  | trans _ _ ihs iht => exact iht (ihs hs)
  | lamp l s hl => exact hs.of_same (by simp) (by simpa using hl)
  | lampState st s hst => exact coolingLaw_setLampState hs hst
  | thermal t s ht => exact hs.of_sameDuty (by simpa using ht) (by simp)
  | duty s => exact coolingLaw_decideDuty hs.cold
  | decided t b e s hc hp =>
    refine coolingLaw_decideDuty ⟨by simpa using hc hs.1, fun h => ?_⟩
    rcases hp (by simpa using h) with ⟨cold, same⟩ | ⟨dark, idle⟩
    · obtain ⟨dark, idle⟩ := hs.2.2 cold
      refine ⟨by simpa using dark, ?_⟩
      rcases same with same | same <;> simp [same, idle]
    · simp [dark, idle]
  | pendStandby s hn =>
    refine ⟨by simpa using hs.1, ?_, by simp⟩
    have duty := hs.2.1
    simpa [dutyOf, hn, Thermal.sensorFault] using duty
  | pass d s => exact hs.of_sameDuty ⟨rfl, rfl, rfl, rfl, rfl, fun h => ⟨rfl, h⟩⟩ rfl
  | releasePin p s =>
    exact (by decide : CoolingLaw State.reset).of_same rfl rfl
  | reset _ ih => exact (ih (hs.of_same rfl rfl)).of_same rfl rfl
  | ask s => obtain ⟨_, _, e⟩ := presentStatus_eq s; rw [e]; exact hs.of_same rfl rfl
  | grantWord s _ => obtain ⟨_, e⟩ := grantStatus_eq s; rw [e]; exact hs.of_same rfl rfl
  | notice s => exact hs.of_same (by simp) (by simp)
  | landStatus a s _ => exact hs.of_same rfl rfl
  | settings st s _ => exact hs.of_same (by simp [putSettings]) (by simp [putSettings])
  | assertPin s => exact hs.of_same rfl rfl
  | header h s _ _ => exact hs.of_same rfl rfl
  | _ => exact hs.of_same (by simp) (by simp)

/-- Settles O58, by induction over the updates that a step is made of. -/
theorem everyStepKeepsTheCoolingLaw : Obligations.EveryStepKeepsTheCoolingLaw :=
  fun _ _ hs h => (step_moves h).coolingLaw hs

/-! ## The words of the Status Block (R206) -/

/-! ### Operations that mark what they change -/

theorem marks_decideDuty (s : State) : Marks s (decideDuty s) := marks_putThermal _ s

theorem marks_latchIf (b : Bool) (e : Event) (s : State) : Marks s (latchIf b e s) := by
  cases b
  · exact .refl s
  · exact marks_latch e s

theorem marks_evalStandby (s : State) : Marks s (evalStandby s) := by
  unfold evalStandby
  split
  · exact (marks_putThermal _ s).trans (marks_decideDuty _)
  · exact .refl s

theorem marks_startRunOn (s : State) : Marks s (startRunOn s) := (marks_putThermal _ s).trans (marks_decideDuty _)

theorem marks_endRunOn (s : State) : Marks s (endRunOn s) :=
  ((marks_putThermal _ s).trans (marks_decideDuty _)).trans (marks_evalStandby _)

/-- A choice of an operation or none marks what it changes when the operation does. -/
theorem Marks.of_ite {c : Prop} [Decidable c] {s t : State} (h : Marks s t) : Marks s (if c then t else s) := by
  split
  · exact h
  · exact .refl s

theorem marks_lampReport (old : LampState) (s : State) : Marks s (lampReport old s) :=
  (((Marks.of_ite (marks_startRunOn s)).trans (.of_ite (marks_endRunOn _))).trans (marks_decideDuty _)).trans
    (marks_evalStandby _)

theorem marks_setLampState (st : LampState) (s : State) : Marks s (setLampState st s) := by
  unfold setLampState
  split
  · exact .refl s
  · exact (marks_putLamp _ s).trans (marks_lampReport _ _)

/-- An update whose words are all composed as before, and that leaves the port and the dirty set alone. -/
theorem Marks.of_same {s t : State} (hp : t.port = s.port) (hc : t.sw.copy = s.sw.copy)
    (hr : t.resetHeld = s.resetHeld) (hd : t.sw.dirty = s.sw.dirty) (hw : ∀ i, compose t i = compose s i) :
    Marks s t := ⟨hp, hc, hr, fun _ h => hd ▸ h, fun i _ => hw i⟩

/-- An image, a correction or a pending setting is no part of a word: those of the header are CMDW and PROG (R206). -/
theorem compose_header {h : Header} {s : State} (hs : h.settings = s.hdr.settings) (hr : h.record = s.hdr.record) (i : Nat) :
    compose { s with hdr := h } i = compose s i := by
  apply compose_congr <;> intros <;> simp [statusWord, resultWord, queueWord, State.prog, hs, hr]

/-- The Status Writer's own list of words still unwritten and IRQ pending are no part of a word. -/
theorem compose_writer {w : StatusWriter} {s : State} (h : w.sameWords s.sw) (i : Nat) :
    compose { s with sw := w } i = compose s i := by
  obtain ⟨_, _, latches, rdy, tag, code, remaining, lastSlot, reject, fail⟩ := h
  apply compose_congr <;> intros <;>
    simp [statusWord, StatusWriter.attn, resultWord, queueWord, State.prog, latches, rdy, tag, code, remaining, lastSlot,
      reject, fail]

theorem compose_port (s : State) (p : Port) (i : Nat) : compose { s with port := p } i = compose s i := by
  unfold compose
  split <;> rfl

theorem compose_mem (s : State) (m : List Host.Cell) (i : Nat) : compose { s with mem := m } i = compose s i := by
  unfold compose
  split <;> rfl

theorem compose_pending (s : State) (l : List Instr) (i : Nat) : compose { s with pending := l } i = compose s i := by
  unfold compose
  split <;> rfl

theorem compose_passTime (d : Nat) (s : State) (i : Nat) : compose (passTime d s) i = compose s i := by
  unfold compose
  split <;> rfl

/-- The three result words are marked as the result is stored (R204). -/
theorem marks_result (tag : Byte) (code : ResultCode) (remaining lastSlot : Nat) (s : State) :
    Marks s (markDirty 3 (markDirty 4 (markDirty 5 { s with sw := { s.sw with
      resultTag := tag, resultCode := code, remaining := remaining, lastSlot := lastSlot } }))) := by
  refine ⟨rfl, rfl, rfl, fun i h => ?_, fun i h => ?_⟩
  · simp [mem_markDirty, h]
  · simp only [mem_markDirty, not_or] at h
    apply compose_congr <;> intro hi
    case h0 => rfl
    all_goals simp_all [queueWord]

theorem marks_reject (tag : Byte) (s : State) :
    Marks s (markDirty 6 { s with sw := { s.sw with rejectTag := tag } }) := by
  refine ⟨rfl, rfl, rfl, fun i h => ?_, fun i h => ?_⟩
  · simp [mem_markDirty, h]
  · simp only [mem_markDirty, not_or] at h
    apply compose_congr <;> intro hi
    case h0 => rfl
    all_goals simp_all [resultWord, queueWord]

/-- RDY and FAIL are fields of STATUS and ALT_STATUS (R206). -/
theorem marks_statusFlags (rdy fail : Bool) (s : State) :
    Marks s (markStatus { s with sw := { s.sw with rdy := rdy, fail := fail } }) := by
  refine ⟨rfl, rfl, rfl, fun i h => ?_, fun i h => ?_⟩
  · simp [mem_markStatus, h]
  · simp only [mem_markStatus, not_or] at h
    apply compose_congr <;> intro hi
    case h0 => rcases hi with hi | hi <;> simp_all
    all_goals simp [resultWord, queueWord]

/-- The latches shown are cleared with EVENTS and STATUS marked, and ALT_STATUS when ATTN changes (R209). -/
theorem marks_eventsNotice (s : State) : Marks s (eventsNotice s) := by
  unfold eventsNotice
  dsimp only
  split
  · exact .refl s
  · refine ⟨by simp, by simp, by simp, fun i h => ?_, fun i h => ?_⟩
    · simp only [mem_markDirty, mem_markIf]
      simp [h]
    · simp only [mem_markDirty, mem_markIf, not_or, not_and, decide_eq_true_eq, ne_eq] at h
      apply compose_congr <;> intro hi <;> (try rcases hi with hi | hi) <;>
        simp_all [statusWord, resultWord, queueWord, State.prog, StatusWriter.attn]

/-! ### The steps of the Status Writer -/

/-- What the law says of a word that is not in the RAM. -/
abbrev wordCurrent (s : State) (i : Nat) : Prop :=
  i ∈ s.sw.dirty ∨ s.port.reqs.statusWriter = some i ∨ (s.sw.copy[i]?).getD 0 = compose s i

theorem wordKept_of_none {s : State} (h : s.port.statusInRam = none) (i : Nat) :
    wordKept s i ↔ wordCurrent s i := by
  unfold wordKept
  rw [h]

theorem wordKept_of_some {s : State} {j : Nat} {v : Word} (h : s.port.statusInRam = some (j, v)) (i : Nat) :
    wordKept s i ↔ if j = i then v = compose s i ∨ i ∈ s.sw.dirty else wordCurrent s i := by
  unfold wordKept
  rw [h]

/-- A change of the port that keeps the Status Writer's part of it keeps every word. -/
theorem StatusKept.of_port {s : State} {p : Port} (h : StatusKept s) (hr : p.statusInRam = s.port.statusInRam)
    (hq : p.reqs.statusWriter = s.port.reqs.statusWriter) : StatusKept { s with port := p } := by
  intro held i hi
  have kept := h held i hi
  unfold wordKept at kept ⊢
  simpa only [hr, hq, compose_port] using kept

/-- All 64 words dirty, the law holds whatever the words read. -/
theorem statusKept_of_allDirty {s : State} (h : s.sw.dirty = List.range 64) : StatusKept s := by
  intro _ i hi
  have dirty : i ∈ s.sw.dirty := by rw [h]; exact List.mem_range.2 hi
  unfold wordKept
  split
  · split
    · exact .inr dirty
    · exact .inl dirty
  · exact .inl dirty

theorem notInRam_statusInRam {p : Port} (h : p.notInRam .statusWriter = true) : p.statusInRam = none := by
  unfold Port.notInRam at h
  unfold Port.statusInRam
  split <;> simp_all

/-- The word presented leaves the dirty set, and is requested (R206). -/
theorem statusKept_presentStatus {s : State} (h : StatusKept s) : StatusKept (presentStatus s) := by
  unfold presentStatus
  split
  · next c =>
    obtain ⟨free, out⟩ := c
    have none := notInRam_statusInRam out
    split
    · next j rest dirty =>
      intro held i hi
      have kept := (wordKept_of_none none i).1 (h held i hi)
      refine (wordKept_of_none (by simpa [putReqs, Port.statusInRam] using none) i).2 ?_
      simp only [wordCurrent, free, dirty, List.mem_cons, putReqs] at kept ⊢
      rcases kept with (first | rest) | request | same
      · exact .inr (.inl (by rw [first]))
      · exact .inl rest
      · cases request
      · exact .inr (.inr (by rw [same, compose_port]; exact (compose_dirty s _ i).symm))
    · exact h
  · exact h

/-- The word granted is composed from the present state (R206). -/
theorem statusKept_grantStatus {s : State} (h : StatusKept s) (hr : s.port.ram = none) : StatusKept (grantStatus s) := by
  have none : s.port.statusInRam = none := by simp [Port.statusInRam, hr]
  unfold grantStatus
  split
  · next j request =>
    intro held i hi
    have kept := (wordKept_of_none none i).1 (h held i hi)
    refine (wordKept_of_some (j := j) (v := compose s j) ?ram i).2 ?_
    case ram => simp [Port.statusInRam, startAccess, statusBlockAddr]
    simp only [wordCurrent, startAccess, compose_port] at kept ⊢
    split
    · next e => exact .inl (by rw [e])
    · next ne =>
      rcases kept with dirty | asked | same
      · exact .inl dirty
      · exact absurd (Option.some.inj (request.symm.trans asked)) ne
      · exact .inr (.inr same)
  · exact h

theorem ram_of_inRamOf {p : Port} {a : RamAccess} {who : Requester} (h : p.inRamOf who = some a) :
    p.ram = some a ∧ a.who = who := by
  unfold Port.inRamOf at h
  cases ram : p.ram with
  | none =>
    rw [ram] at h
    exact absurd h (Option.some_ne_none a).symm
  | some r =>
    rw [ram] at h
    obtain ⟨owner, same⟩ := Option.ite_none_right_eq_some.1 h
    exact ⟨same, Option.some.inj same ▸ owner⟩

/-- The word that lands is the one last written (R206). -/
theorem statusKept_landStatus {s : State} {a : RamAccess} (h : StatusKept s)
    (ha : s.port.inRamOf .statusWriter = some a) :
    StatusKept { landWord a s with
      sw := { s.sw with copy := s.sw.copy.setIfInBounds ((a.addr - statusBlockAddr) / 2) a.data } } := by
  have ram : s.port.statusInRam = some ((a.addr - statusBlockAddr) / 2, a.data) := by
    obtain ⟨inRam, who⟩ := ram_of_inRamOf ha
    rw [Port.statusInRam, inRam]
    exact if_pos who
  intro held i hi
  have kept := (wordKept_of_some ram i).1 (h held i hi)
  refine (wordKept_of_none rfl i).2 ?_
  have words : compose { landWord a s with
      sw := { s.sw with copy := s.sw.copy.setIfInBounds ((a.addr - statusBlockAddr) / 2) a.data } } i = compose s i := by
    unfold compose
    split <;> rfl
  simp only [wordCurrent, words]
  split at kept
  · next e =>
    subst e
    rcases kept with now | dirty
    · exact .inr (.inr (by simp [hi, now]))
    · exact .inl dirty
  · next ne =>
    rcases kept with dirty | request | same
    · exact .inl dirty
    · exact .inr (.inl request)
    · exact .inr (.inr (by simpa [Vector.getElem?_setIfInBounds, ne] using same))

/-- Every update keeps the law of the Status Block: it marks what it changes, or it is a step of the Status Writer. -/
theorem Moves.statusKept {s t : State} (h : Moves s t) (hs : StatusKept s) : StatusKept t := by
  induction h with
  | refl => exact hs
  | trans _ _ ihs iht => exact iht (ihs hs)
  | tray t s => exact hs.of_marks (marks_putTray t s)
  | lamp l s _ => exact hs.of_marks (marks_putLamp l s)
  | lampState st s _ => exact hs.of_marks (marks_setLampState st s)
  | thermal t s _ => exact hs.of_marks (marks_putThermal t s)
  | duty s => exact hs.of_marks (marks_decideDuty s)
  | decided t b e s _ _ =>
    exact hs.of_marks (((marks_putThermal t s).trans (marks_latchIf b e _)).trans (marks_decideDuty _))
  | pendStandby s _ => exact hs.of_marks (marks_putThermal _ s)
  | cue c s => exact hs.of_marks (marks_putCue c s)
  | log l s => exact hs.of_marks (marks_putLog l s)
  | deck d s => exact hs.of_marks (marks_putDeck d s)
  | clip c s => exact hs.of_marks (marks_putClip c s)
  | remote r s => exact hs.of_marks (marks_putRemote r s)
  | shadow sh s => exact hs.of_marks (marks_putShadow sh s)
  | cx c s => exact hs.of_marks (marks_putCx c s)
  | record r s => exact hs.of_marks (marks_putRecord r s)
  | settings st s _ => exact hs.of_marks (marks_putSettings st s)
  | header h s same record => exact hs.of_marks (.of_same (s := s) rfl rfl rfl rfl (compose_header same record))
  | latch e s => exact hs.of_marks (marks_latch e s)
  | dirty i s => exact hs.of_marks (marks_markDirty i s)
  | writer w s same => exact hs.of_marks (.of_same (s := s) rfl same.1 rfl same.2.1 (compose_writer same))
  | result tag code remaining lastSlot s => exact hs.of_marks (marks_result tag code remaining lastSlot s)
  | reject tag s => exact hs.of_marks (marks_reject tag s)
  | ready s => exact hs.of_marks (marks_statusFlags true s.sw.fail s)
  | failed b s => exact hs.of_marks (marks_statusFlags s.sw.rdy b s)
  | notice s => exact hs.of_marks (marks_eventsNotice s)
  | port p s ram request => exact hs.of_port ram request
  | ask s => exact statusKept_presentStatus hs
  | grantWord s ram => exact statusKept_grantStatus hs ram
  | landStatus a s ram => exact statusKept_landStatus hs ram
  | store a w s => exact hs.of_marks (.of_same rfl rfl rfl rfl (compose_mem s _))
  | land a w s => exact hs.of_marks (.of_same rfl rfl rfl rfl (compose_mem s _))
  | reset _ _ => exact statusKept_of_allDirty rfl
  | assertPin s => exact fun held => absurd held (by simp [assertReset])
  | releasePin p s => exact statusKept_of_allDirty rfl
  | pass d s => exact hs.of_marks (.of_same rfl rfl rfl rfl (compose_passTime d s))
  | queue l s => exact hs.of_marks (.of_same rfl rfl rfl rfl (compose_pending s l))

/-- Settles O59, by induction over the updates that a step is made of. -/
theorem everyStepKeepsTheStatusBlock : Obligations.EveryStepKeepsTheStatusBlock :=
  fun _ _ hs h => (step_moves h).statusKept hs

/-- Settles O60: the state after reset has an empty RAM, the default settings and all 64 words dirty. -/
theorem resetMeetsTheInvariants : Obligations.ResetMeetsTheInvariants :=
  ⟨rfl, by decide, by decide, statusKept_of_allDirty rfl⟩

end Sys2Proof.Machine
end
section
/-! Steps and the RESET pin (R184, R196, R210): the front command, the tick of the clock, the assertion, the hold and the
release of the pin. -/

namespace Sys2Proof.Machine

/-- Settles O1: the step looks at the front of the queue. -/
theorem stepRunsTheFrontCommand : Obligations.StepRunsTheFrontCommand := by
  intro c rest s front
  unfold step
  rw [front]

/-! ## A tick of the clock -/

/-- A part after reset but for a focus run whose time limit is 0 and which starts later than the present time. -/
def futureRunState : State :=
  { State.reset with remote := { State.reset.remote with
      focus := some { inward := true, owner := .panel, start := 5, limit := 0, lastRepeat := 5 } } }

/-- The limit of that run counts as reached at once, since no time has passed since its start: FOCUS_TIME_LIMIT waits. -/
theorem pending_clockTick_futureRunState : (clockTick futureRunState).pending = [.focusTimeLimit] := by decide

/-- Refutes O2: the model has a focus run's limit due once the time since its start, which is 0 for a start still to come,
reaches the limit; the statement once the time has reached start and limit together. A run of limit 0 that starts at 5,
at the time 0, tells them apart. -/
theorem not_emptyQueueIsAClockTick : ¬ Obligations.EmptyQueueIsAClockTick := by
  intro h
  obtain ⟨t, stepped, ends⟩ := h futureRunState rfl
  obtain rfl : clockTick futureRunState = t := Host.Outcome.next.inj stepped
  have waits : (clockTick futureRunState).pending = [] := ends.2.1
  rw [pending_clockTick_futureRunState] at waits
  cases waits

/-! ## The release of the RESET pin -/

/-- A word of the Status Block is composed from the body alone: no word shows the traffic on the RAM (R206). -/
theorem compose_body (s : State) (i : Nat) : compose s.body i = compose s i := by
  unfold compose
  split <;> rfl

theorem compose_of_body {s t : State} (h : t.body = s.body) (i : Nat) : compose t i = compose s i := by
  rw [← compose_body t, h, compose_body]

/-- What the end of a step does with the executor and the Log Writer at rest before and after the grant. -/
theorem finish_eq_present {s : State} (he : executorStep s = none) (hl : logQuiet s) (hw : s.port.hostWaits = false) :
    finish s = present (grant (present s)) := by
  have first : after s = present s := by unfold after; rw [settle_of_none 40 he, logPump_of_quiet 5 hl]
  have asked := onlyAsked_present s
  have body : (grant (present s)).body = s.body :=
    (body_grant (.inr ((hostWaits_congr asked.access).trans hw))).trans asked.body
  have he' := (executorStep_none_of_body body).2 he
  have hl' := (logQuiet_of_body body).2 hl
  unfold finish
  rw [first, after, settle_of_none 40 he', logPump_of_quiet 5 hl']

/-- With every word dirty the Status Writer asks for STATUS first, and nothing else is asked for (R206, R210). -/
theorem reqs_present_releaseReset (p : ResetPins) (s : State) :
    (present (releaseReset p s)).port.reqs = { Requests.empty with statusWriter := some 0 } := rfl

/-- The STATUS word is granted first (R192): it is composed from the state after the release. -/
theorem grant_present_releaseReset (p : ResetPins) (s : State) :
    grant (present (releaseReset p s)) = startAccess .statusWriter 128 (compose (present (releaseReset p s)) 0) false
      Requests.empty (present (releaseReset p s)) := rfl

/-- Settles O3: the release leaves the reset state but for the traffic on the RAM, and the end of its step grants the
Status Writer, whose request is the only one. -/
theorem pinReleaseGivesTheResetState : Obligations.PinReleaseGivesTheResetState := by
  intro p s
  have hfinish : finish (releaseReset p s) = present (grant (present (releaseReset p s))) :=
    finish_eq_present (executorStep_releaseReset p s) (logQuiet_releaseReset p s) (hostWaits_releaseReset p s)
  have body := body_finish_releaseReset p s
  have asked := onlyAsked_present (grant (present (releaseReset p s)))
  refine ⟨_, exec_resetPinRelease p s, body, ?_, ?_, ?_, ?_⟩
  · rw [hfinish, asked.access, grant_present_releaseReset]; rfl
  · rw [hfinish, asked.backlog, grant_present_releaseReset]; rfl
  · rw [hfinish, asked.guard, grant_present_releaseReset]; rfl
  · have word : compose (present (releaseReset p s)) 0 = compose (finish (releaseReset p s)) 0 :=
      compose_of_body ((onlyAsked_present _).body.trans body.symm) 0
    rw [← word, hfinish, asked.ram, grant_present_releaseReset]
    rfl

/-! ## The assertion of the RESET pin -/

theorem exec_resetPinAssert (s : State) : exec .resetPinAssert s = .next (grant (assertReset s)) := rfl

/-- The accesses dropped leave the RAM to the host (R196). -/
theorem ram_assertReset (s : State) : (assertReset s).port.ram = s.port.inRamOf .host := by
  unfold assertReset Port.inRamOf
  cases s.port.ram <;> rfl

/-- With no request of the part's, only an access of the host that waits is chosen (R192). -/
theorem choose_of_no_requests {p : Port} (h : p.reqs = Requests.empty) (urgent : Bool) :
    choose p urgent = if p.hostWaits then some .host else none := by
  simp [choose, h, Requests.empty, Requests.lfWaits, Requests.firstL, Requests.firstF]

/-- With no access of the host waiting either, nothing is granted. -/
theorem grant_of_idle {s : State} (hr : s.port.reqs = Requests.empty) (hw : s.port.hostWaits = false) : grant s = s := by
  unfold grant
  rw [choose_of_no_requests hr, hw]
  split <;> rfl

/-- With the RAM free and no request of the part's, the host's waiting access is granted. -/
theorem grant_host_of_no_requests {s : State} (hr : s.port.reqs = Requests.empty) (hf : s.port.ram = none)
    (hw : s.port.hostWaits = true) : grant s = grantHost s := by
  unfold grant
  rw [choose_of_no_requests hr, hw, hf]
  rfl

/-- What an access of the host leaves in the RAM (R185). -/
def storedBy (k : HostKind) (a : WordAddr) (m : List Host.Cell) : List Host.Cell :=
  match k with
  | .read => m
  | .write w => memStore m a w

/-- What a granted access of the host does while the RESET pin is held: it reads, or it stores its bytes (R196). -/
theorem grantHost_held {s : State} {a : HostAccess} (held : s.resetHeld = true) (ha : s.port.access = some a) :
    (grantHost s).body = ({ s with mem := storedBy a.kind a.addr s.mem } : State).body
      ∧ (grantHost s).port.ram.map (·.who) = some .host ∧ (grantHost s).port.access.map (·.inRam) = some true
      ∧ (grantHost s).port.reqs = s.port.reqs := by
  unfold grantHost
  rw [ha]
  dsimp only
  cases a.kind with
  | read => exact ⟨rfl, rfl, rfl, rfl⟩
  | write w =>
    have on : ∀ u : State, u.resetHeld = true → handOn a w u = u := fun u hu => by simp [handOn, hu]
    dsimp only
    rw [on _ (by simpa [startAccess] using held)]
    exact ⟨rfl, rfl, rfl, rfl⟩

/-- Settles O8: the assertion leaves no request, so only the host's own access can be granted with it. -/
theorem pinAssertDropsTheOwnAccesses : Obligations.PinAssertDropsTheOwnAccesses := by
  intro s a
  refine ⟨fun idle => ?_, fun ha hin hfree => ?_⟩
  · rw [exec_resetPinAssert, grant_of_idle (s := assertReset s) rfl idle, ← ram_assertReset]
    rfl
  · have waits : (assertReset s).port.hostWaits = true := by
      simp [assertReset, Port.hostWaits, ha, hin]
    have granted := grant_host_of_no_requests (s := assertReset s) rfl ((ram_assertReset s).trans hfree) waits
    obtain ⟨body, ram, access, reqs⟩ := grantHost_held (s := assertReset s) (a := a) rfl ha
    refine ⟨⟨_, exec_resetPinAssert s, ?_, ?_, ?_⟩, _, exec_resetPinAssert s, ?_⟩ <;> rw [granted]
    · exact body
    · exact ram
    · exact access
    · exact reqs

/-! ## While the RESET pin is held -/

theorem live_held {s : State} (held : s.resetHeld = true) (f : State → State) : live f s = s := by
  simp [live, held]

/-- Every command that is no access of the host and not the pin itself is an event of the part, which a held pin leaves
without effect. -/
theorem exec_held {s : State} (held : s.resetHeld = true) {c : Instr} (hc : actsWhileHeld c = false) :
    exec c s = .next s := by
  have event : ∀ f : State → State, Host.Outcome.next (φ := Fault) (ρ := Refusal) (live f s) = .next s :=
    fun f => by rw [live_held held]
  cases c <;> first
    | (cases hc; done)
    | exact event _

/-- The part's port while the pin is held and the host has nothing under way. -/
structure HeldIdle (s : State) : Prop where
  held : s.resetHeld = true
  access : s.port.access = none
  ram : s.port.ram = none
  reqs : s.port.reqs = Requests.empty

/-- An access that is taken is granted in the same step (R185, R196). -/
theorem portFinish_hostAccess_held {s : State} (h : HeldIdle s) {addr : WordAddr} {kind : HostKind} {cls : AccessClass}
    (taken : takeAccess addr kind s
      = { s with port := { s.port with access := some { addr := addr, kind := kind, cls := cls, inRam := false } } }) :
    let t := portFinish (hostAccess addr kind s)
    t.body = ({ s with mem := storedBy kind addr s.mem } : State).body
      ∧ t.port.ram.map (·.who) = some .host ∧ t.port.access.map (·.inRam) = some true := by
  have access : hostAccess addr kind s
      = { s with port := { s.port with access := some { addr := addr, kind := kind, cls := cls, inRam := false } } } := by
    simp [hostAccess, h.access, taken]
  have granted : portFinish (hostAccess addr kind s) = grantHost (hostAccess addr kind s) := by
    rw [access, portFinish, if_pos h.held]
    exact grant_host_of_no_requests h.reqs h.ram rfl
  obtain ⟨body, ram, inRam, _⟩ := grantHost_held (s := hostAccess addr kind s) (by rw [access]; exact h.held)
    (by rw [access])
  dsimp only
  rw [granted]
  refine ⟨body.trans ?_, ram, inRam⟩
  rw [access]
  rfl

/-- While the pin is held no ring is set, so only the Status Block is protected (R196). -/
theorem takeAccess_write_held {s : State} (held : s.resetHeld = true) {a : WordAddr} (ha : inStatusBlock a = false)
    (w : LaneWrite) : takeAccess a (.write w) s = { s with port := { s.port with
      access := some { addr := a, kind := .write w, cls := classify a s, inRam := false } } } := by
  have free : classify a s ≠ .protectedArea := by
    unfold classify
    simp only [ha, held, Bool.false_eq_true, if_false, reduceCtorEq, false_and]
    split <;> simp
  simp [takeAccess, free]

theorem granted_write_held {s : State} (h : HeldIdle s) {a : WordAddr} (ha : inStatusBlock a = false) (w : LaneWrite)
    {c : Instr} (hc : exec c s = .next (portFinish (hostAccess a (.write w) s))) :
    Granted c s { s with mem := memStore s.mem a w } :=
  ⟨_, hc, portFinish_hostAccess_held h (takeAccess_write_held h.held ha w)⟩

theorem granted_read_held {s : State} (h : HeldIdle s) {a : WordAddr} {c : Instr}
    (hc : exec c s = .next (portFinish (hostAccess a .read s))) : Granted c s s :=
  ⟨_, hc, portFinish_hostAccess_held h (cls := .read) rfl⟩

/-- A write into the Status Block is suppressed, and while the pin is held latches nothing (R187, R196). -/
theorem portFinish_statusBlock_write_held {s : State} (h : HeldIdle s) {a : WordAddr} (ha : inStatusBlock a = true)
    (w : LaneWrite) : portFinish (hostAccess a (.write w) s) = s := by
  have cls : classify a s = .protectedArea := by
    have low : ¬ a.toNat < 64 := by
      simp only [inStatusBlock, Bool.and_eq_true, decide_eq_true_eq] at ha
      omega
    simp [classify, low, ha]
  have taken : hostAccess a (.write w) s = s := by
    simp [hostAccess, h.access, takeAccess, cls, h.held, latchIf]
  rw [taken, portFinish, if_pos h.held]
  exact grant_of_idle h.reqs (by simp [Port.hostWaits, h.access])

/-- A read ends with its word and no notice, and nothing that the host asked for is kept (R185, R188, R196). -/
theorem returns_read_held {s : State} (h : HeldIdle s) {k : HostAccess} {r : RamAccess} (hin : k.inRam = true)
    (hk : k.kind = .read) (hr : r.who = .host) (hb : s.port.backlog = []) :
    Returns .hostAccessEnd { s with port := { s.port with access := some k, ram := some r } } s r.data := by
  have ended : endHostAccess { s with port := { s.port with access := some k, ram := some r } }
      = { s with port := { s.port with access := none, ram := none, readData := r.data, backlog := [] } } := by
    simp [endHostAccess, hin, hr, hk, readNotice, h.held, hb, startKept]
  refine ⟨_, rfl, ?_⟩
  have quiet : portFinish { s with port := { s.port with access := none, ram := none, readData := r.data, backlog := [] } }
      = { s with port := { s.port with access := none, ram := none, readData := r.data, backlog := [] } } := by
    rw [portFinish, if_pos h.held]
    exact grant_of_idle h.reqs rfl
  rw [ended, quiet]
  exact ⟨rfl, rfl, rfl⟩

/-- Settles O9: the port alone goes on while the pin is held. -/
theorem heldPinPassesHostAccessesOnly : Obligations.HeldPinPassesHostAccessesOnly := by
  intro s a w st k r c held
  refine ⟨fun access ram reqs => ?_, exec_held held⟩
  have h : HeldIdle s := ⟨held, access, ram, reqs⟩
  refine ⟨fun ha => granted_write_held h ha w rfl, fun ha => ?_, granted_read_held h rfl, granted_read_held h rfl,
    granted_read_held h rfl, granted_write_held h rfl _ rfl, fun hin hk hr hb => returns_read_held h hin hk hr hb⟩
  show Host.Outcome.next (portFinish (hostAccess a (.write w) s)) = .next s
  rw [portFinish_statusBlock_write_held h ha w]

end Sys2Proof.Machine
end
section
/-! Accesses of the host that are granted in their own step (R185, R192): what a granted access does to the body of the
state, said once for every write of the header, and the host's commands accepted and rejected (R202). -/

namespace Sys2Proof.Machine

/-! ## A state with other traffic on the RAM -/

/-- The state with another Memory Port, dirty set and sample word on its way, and otherwise as it is. -/
def State.traffic (port : Port) (dirty : List Nat) (inFlight : Bool) (s : State) : State :=
  { s with port := port, sw := { s.sw with dirty := dirty }, clip := { s.clip with inFlight := inFlight } }

/-- States with one body differ in their traffic alone. -/
theorem eq_traffic {s t : State} (h : t.body = s.body) : t = s.traffic t.port t.sw.dirty t.clip.inFlight := by
  obtain ⟨_, _, _, ⟨⟩, _, _, _, _, _, _, _, _, ⟨⟩, _⟩ := t
  obtain ⟨_, _, _, ⟨⟩, _, _, _, _, _, _, _, _, ⟨⟩, _⟩ := s
  simp only [State.body, State.mk.injEq, StatusWriter.mk.injEq, ClipPlayer.mk.injEq] at h
  simp only [State.traffic, State.mk.injEq, StatusWriter.mk.injEq, ClipPlayer.mk.injEq]
  tauto

theorem body_traffic (port : Port) (dirty : List Nat) (inFlight : Bool) (s : State) :
    (s.traffic port dirty inFlight).body = s.body := rfl

section
variable (port : Port) (dirty : List Nat) (inFlight : Bool) (s : State)
@[simp] theorem traffic_mem : (s.traffic port dirty inFlight).mem = s.mem := rfl
@[simp] theorem traffic_port : (s.traffic port dirty inFlight).port = port := rfl
@[simp] theorem traffic_hdr : (s.traffic port dirty inFlight).hdr = s.hdr := rfl
@[simp] theorem traffic_sw : (s.traffic port dirty inFlight).sw = { s.sw with dirty := dirty } := rfl
@[simp] theorem traffic_cx : (s.traffic port dirty inFlight).cx = s.cx := rfl
@[simp] theorem traffic_tray : (s.traffic port dirty inFlight).tray = s.tray := rfl
@[simp] theorem traffic_shadow : (s.traffic port dirty inFlight).shadow = s.shadow := rfl
@[simp] theorem traffic_lamp : (s.traffic port dirty inFlight).lamp = s.lamp := rfl
@[simp] theorem traffic_thermal : (s.traffic port dirty inFlight).thermal = s.thermal := rfl
@[simp] theorem traffic_cue : (s.traffic port dirty inFlight).cue = s.cue := rfl
@[simp] theorem traffic_log : (s.traffic port dirty inFlight).log = s.log := rfl
@[simp] theorem traffic_deck : (s.traffic port dirty inFlight).deck = s.deck := rfl
@[simp] theorem traffic_clip : (s.traffic port dirty inFlight).clip = { s.clip with inFlight := inFlight } := rfl
@[simp] theorem traffic_remote : (s.traffic port dirty inFlight).remote = s.remote := rfl
@[simp] theorem traffic_unit : (s.traffic port dirty inFlight).unit = s.unit := rfl
@[simp] theorem traffic_resetHeld : (s.traffic port dirty inFlight).resetHeld = s.resetHeld := rfl
@[simp] theorem traffic_now : (s.traffic port dirty inFlight).now = s.now := rfl
@[simp] theorem traffic_pending : (s.traffic port dirty inFlight).pending = s.pending := rfl
end

/-! ## What a write of the host finds -/

/-- An access of the host is the one in the RAM (R185). -/
structure Port.hostHas (p : Port) : Prop where
  ram : p.ram.map (·.who) = some .host
  access : p.access.map (·.inRam) = some true

/-- An update that leaves the host its access. -/
theorem Port.hostHas.congr {p q : Port} (h : p.hostHas) (hr : q.ram.map (·.who) = p.ram.map (·.who))
    (ha : q.access = p.access) : q.hostHas := ⟨hr.trans h.ram, ha ▸ h.access⟩

/-- **A granted write** (R186): it is handed on with its bytes in RAM, by a state that differs in its traffic alone. -/
theorem write_granted {a : WordAddr} {w : LaneWrite} {s : State} (ready : HostReady s)
    (open_ : classify a s ≠ .protectedArea) :
    ∃ x port dirty inFlight, port.hostHas ∧ x.addr = a ∧ x.cls = classify a s ∧
      portFinish (hostAccess a (.write w) s)
        = after (handOn x w (({ s with mem := memStore s.mem a w } : State).traffic port dirty inFlight)) := by
  have taken : takeAccess a (.write w) s = { s with port := { s.port with
      access := some { addr := a, kind := .write w, cls := classify a s, inRam := false } } } := by
    simp [takeAccess, open_]
  obtain ⟨u, asked, granted⟩ := hostAccess_ready ready taken
  let x : HostAccess := { addr := a, kind := .write w, cls := classify a s, inRam := true }
  let taken : State := { u with port := { u.port with access := some x } }
  refine ⟨x, (startAccess .host (2 * a.toNat) 0 false u.port.reqs taken).port, u.sw.dirty, u.clip.inFlight,
    ⟨rfl, rfl⟩, rfl, rfl, granted.trans (congrArg after ?_)⟩
  have same : u = s.traffic u.port u.sw.dirty u.clip.inFlight := eq_traffic asked.body
  unfold grantHost
  rw [asked.access]
  show handOn x w { startAccess .host (2 * a.toNat) 0 false u.port.reqs taken with mem := memStore u.mem a w } = _
  congr 1
  generalize u.port = port, u.sw.dirty = dirty, u.clip.inFlight = inFlight at same
  subst same
  rfl

/-- A read is granted with the word that stands in the RAM (R185). -/
theorem read_granted {a : WordAddr} {s : State} (ready : HostReady s) :
    let t := portFinish (hostAccess a .read s)
    t.body = s.body ∧ t.port.hostHas
      ∧ t.port.ram.map (fun g => (g.addr, g.data)) = some (2 * a.toNat, memWord s.mem (2 * a.toNat)) := by
  obtain ⟨u, asked, granted⟩ := hostAccess_ready (a := a) (k := .read) (c := .read) ready rfl
  have body : (grantHost u).body = s.body := by
    unfold grantHost
    rw [asked.access]
    exact asked.body
  have rest := onlyAsked_after ((executorStep_none_of_body body).2 ready.2.1) ((logQuiet_of_body body).2 ready.2.2.1)
  have mem := body_mem asked.body
  dsimp only
  rw [granted]
  refine ⟨rest.body.trans body, ⟨?_, ?_⟩, ?_⟩
  · rw [rest.ram]; unfold grantHost; rw [asked.access]; rfl
  · rw [rest.access]; unfold grantHost; rw [asked.access]; rfl
  · rw [rest.ram]; unfold grantHost; rw [asked.access]; simp [startAccess, mem]

/-- A write that leaves the executor and the Log Writer at rest is granted, with what handing it on does. -/
theorem granted_write {c : Instr} {a : WordAddr} {w : LaneWrite} {s u : State} (ready : HostReady s)
    (hc : exec c s = .next (portFinish (hostAccess a (.write w) s))) (open_ : classify a s ≠ .protectedArea)
    (effect : ∀ x port dirty inFlight, port.hostHas → x.addr = a → x.cls = classify a s →
      let t := handOn x w (({ s with mem := memStore s.mem a w } : State).traffic port dirty inFlight)
      t.body = u.body ∧ t.port.hostHas)
    (rest : executorStep u = none) (quiet : logQuiet u) : Granted c s u := by
  obtain ⟨x, port, dirty, inFlight, has, ha, hcls, granted⟩ := write_granted (w := w) ready open_
  obtain ⟨body, has⟩ := effect x port dirty inFlight has ha hcls
  have asked := onlyAsked_after ((executorStep_none_of_body body).2 rest) ((logQuiet_of_body body).2 quiet)
  refine ⟨_, hc, ?_, ?_, ?_⟩ <;> rw [granted]
  · exact asked.body.trans body
  · rw [asked.ram]; exact has.ram
  · rw [asked.access]; exact has.access

/-! ## A write of the header (R198) -/

theorem toNat_headerAddr {i : Nat} (hi : i < 64) : (headerAddr i).toNat = i := by
  simp [headerAddr]
  omega

theorem classify_headerAddr {i : Nat} (hi : i < 64) (s : State) : classify (headerAddr i) s = .header := by
  simp [classify, toNat_headerAddr hi, hi]

/-- What a header write means to the part, once its word is in the image (R198, R202). -/
def headerMeans (i : Nat) (w : LaneWrite) (v : Word) (s : State) : State :=
  if i = 0 then (if LaneWrite.storesLow w then triggerCommand v s else s) else takeWord i v s

/-- The withdrawal of a correction's request leaves the host its access (R201). -/
theorem hostHas_withdrawHeader {i : Nat} {s : State} (h : s.port.hostHas) : (withdrawHeader i s).port.hostHas := by
  unfold withdrawHeader
  split
  · exact ⟨h.ram, h.access⟩
  · exact h

/-- A header write is evaluated with the word in the image and the correction that waited for it cancelled. -/
theorem evaluateHeader_traffic {i : Nat} {w : LaneWrite} {s : State} {port : Port} {dirty : List Nat} {inFlight : Bool}
    (has : port.hostHas) : ∃ port', port'.hostHas ∧
      evaluateHeader i w (({ s with mem := memStore s.mem (headerAddr i) w } : State).traffic port dirty inFlight)
        = headerMeans i w (writtenWord i w s) ((written i w s).traffic port' dirty inFlight) := by
  refine ⟨_, hostHas_withdrawHeader (i := i)
    (s := ({ s with mem := memStore s.mem (headerAddr i) w } : State).traffic port dirty inFlight) has, ?_⟩
  unfold evaluateHeader headerMeans
  have same : setImage i (writtenWord i w s) (cancelCorrection i
      (({ s with mem := memStore s.mem (headerAddr i) w } : State).traffic port dirty inFlight))
      = (written i w s).traffic (withdrawHeader i
          (({ s with mem := memStore s.mem (headerAddr i) w } : State).traffic port dirty inFlight)).port
          dirty inFlight := by
    unfold cancelCorrection withdrawHeader
    dsimp only
    split <;> rfl
  dsimp only
  rw [← same]
  rfl

/-- **A header write of a ready part**: granted, with what its word means to the part. -/
theorem granted_header {c : Instr} {i : Nat} {w : LaneWrite} {s u : State} (ready : HostReady s)
    (hc : exec c s = .next (headerWrite i w s)) (hi : i < 64)
    (effect : ∀ port dirty inFlight, port.hostHas →
      let t := headerMeans i w (writtenWord i w s) ((written i w s).traffic port dirty inFlight)
      t.body = u.body ∧ t.port.hostHas)
    (rest : executorStep u = none) (quiet : logQuiet u) : Granted c s u := by
  have header := classify_headerAddr hi s
  refine granted_write ready hc (by rw [header]; decide) (fun x port dirty inFlight has ha hcls => ?_) rest quiet
  obtain ⟨port', has', evaluated⟩ := evaluateHeader_traffic (i := i) (w := w) (s := s) (dirty := dirty)
    (inFlight := inFlight) has
  have handed : handOn x w (({ s with mem := memStore s.mem (headerAddr i) w } : State).traffic port dirty inFlight)
      = headerMeans i w (writtenWord i w s) ((written i w s).traffic port' dirty inFlight) := by
    rw [← evaluated]
    unfold handOn
    rw [hcls, header, ha, toNat_headerAddr hi]
    simp [ready.1]
  dsimp only
  rw [handed]
  exact effect port' dirty inFlight has'

/-- A write that marks what it changes and leaves the port alone. -/
theorem hostHas_of_port {s t : State} (h : t.port = s.port) (has : s.port.hostHas) : t.port.hostHas := h ▸ has

end Sys2Proof.Machine
end
section
/-! Writes of the setting words of the header (R198, R199, R201): the setting in effect, the word corrected back when it
differs, and what the change sets off. -/

namespace Sys2Proof.Machine

/-! ## Values held within bounds (R199) -/

theorem clampTo_eq {lo hi : Nat} (h : lo ≤ hi) (n : Nat) : clampTo lo hi n = max lo (min hi n) := by
  unfold clampTo
  split
  · omega
  · split <;> omega

/-! ## A settled part stays settled under a write of the header -/

/-- What the executor and the Log Writer look at to know whether they have something to do is as it was. -/
structure SameRest (s t : State) : Prop where
  completion : t.tray.completion = s.tray.completion
  cx : t.cx = s.cx
  lamp : t.lamp.state = s.lamp.state
  net : t.remote.netCount = s.remote.netCount
  oneShot : t.remote.oneShot = s.remote.oneShot
  record : t.hdr.record = s.hdr.record
  ring : t.hdr.settings.ringBase = s.hdr.settings.ringBase
  log : t.log = s.log

theorem SameRest.refl (s : State) : SameRest s s := ⟨rfl, rfl, rfl, rfl, rfl, rfl, rfl, rfl⟩

theorem SameRest.trans {s t u : State} (h : SameRest s t) (k : SameRest t u) : SameRest s u :=
  ⟨k.completion.trans h.completion, k.cx.trans h.cx, k.lamp.trans h.lamp, k.net.trans h.net,
    k.oneShot.trans h.oneShot, k.record.trans h.record, k.ring.trans h.ring, k.log.trans h.log⟩

theorem SameRest.executor {s t : State} (h : SameRest s t) (rest : executorStep s = none) : executorStep t = none :=
  (executorStep_none_congr h.completion h.cx h.lamp h.net h.oneShot h.record).2 rest

theorem SameRest.quiet {s t : State} (h : SameRest s t) (quiet : logQuiet s) : logQuiet t := by
  rwa [logQuiet, h.ring, h.log]

theorem sameRest_written (i : Nat) (w : LaneWrite) (s : State) : SameRest s (written i w s) :=
  ⟨rfl, rfl, rfl, rfl, rfl, rfl, rfl, rfl⟩

theorem sameRest_corrected (b : Bool) (i : Nat) (s : State) : SameRest s (s.corrected b i) := by
  cases b <;> exact ⟨rfl, rfl, rfl, rfl, rfl, rfl, rfl, rfl⟩

/-- A word marked for correction, as one record. -/
theorem corrected_eq (b : Bool) (i : Nat) (s : State) : s.corrected b i = { s with hdr := { s.hdr with
    corrections := if b then insertIndex i s.hdr.corrections else s.hdr.corrections } } := by
  cases b <;> rfl

theorem sameRest_inEffect {i : Nat} {st : Settings} {pend : PendingSettings} {s : State}
    (ring : st.ringBase = s.hdr.settings.ringBase) : SameRest s (inEffect i st pend s) :=
  ⟨rfl, rfl, rfl, rfl, rfl, rfl, ring, rfl⟩

theorem sameRest_recapped (s : State) : SameRest s s.recapped := ⟨rfl, rfl, rfl, rfl, rfl, rfl, rfl, rfl⟩

theorem sameRest_latched (e : Event) (s : State) : SameRest s (s.latched e) := ⟨rfl, rfl, rfl, rfl, rfl, rfl, rfl, rfl⟩

/-! ## Settings put in effect -/

/-- What the comparison after a setting leaves (R198, R201). -/
theorem body_compareWord (i : Nat) (s : State) :
    (compareWord i s).body = { s.body with hdr := { s.hdr with
      corrections := if valueInEffect s.hdr i = s.hdr.imageOf i then s.hdr.corrections
        else insertIndex i s.hdr.corrections } } := by
  unfold compareWord
  split
  · rfl
  · rfl

/-- A state with these settings, and its header word compared, is the one of the statements. -/
theorem body_compareWord_inEffect {i : Nat} {st : Settings} {pend : PendingSettings} {s t : State}
    (h : t.body = ({ s with hdr := { s.hdr with settings := st, pend := pend } } : State).body) :
    (compareWord i t).body = (inEffect i st pend s).body := by
  have hdr := body_hdr h
  rw [body_compareWord, h, hdr]
  rfl

theorem port_compareWord (i : Nat) (s : State) : (compareWord i s).port = s.port := by
  unfold compareWord
  split <;> rfl

/-- **A setting taken up**: a write whose word puts these settings and pending settings in effect and does no more. -/
theorem granted_setting {c : Instr} {i : Nat} {w : LaneWrite} {st : Settings} {pend : PendingSettings} {s : State}
    (ready : HostReady s) (hc : exec c s = .next (headerWrite i w s)) (hi : i < 64) (ring : st.ringBase = s.hdr.settings.ringBase)
    (take : State → State) (means : ∀ t, headerMeans i w (writtenWord i w s) t = compareWord i (take t))
    (taken : ∀ port dirty inFlight, let t := (written i w s).traffic port dirty inFlight
      (take t).body = ({ t with hdr := { t.hdr with settings := st, pend := pend } } : State).body ∧ (take t).port = port) :
    Granted c s (inEffect i st pend (written i w s)) := by
  have same : SameRest s (inEffect i st pend (written i w s)) := (sameRest_written i w s).trans (sameRest_inEffect ring)
  refine granted_header ready hc hi (fun port dirty inFlight has => ?_) (same.executor ready.2.1) (same.quiet ready.2.2.1)
  obtain ⟨body, kept⟩ := taken port dirty inFlight
  dsimp only
  rw [means]
  exact ⟨body_compareWord_inEffect body, by rw [port_compareWord, kept]; exact has⟩

theorem body_putPending (p : PendingSettings) (s : State) :
    (putPending p s).body = { s.body with hdr := { s.hdr with pend := p } } := rfl

theorem port_putSettings (st : Settings) (s : State) : (putSettings st s).port = s.port := by simp [putSettings]

/-- Settles O21: each of the nine words puts its setting in effect, clamped or validated. -/
theorem settingsTakeEffect : Obligations.SettingsTakeEffect := by
  intro w s ready
  refine ⟨?_, ?_, ?_, ?_, ?_, ?_, ?_, ?_, ?_⟩
  · exact granted_setting ready rfl (by decide) rfl (takeGroupMask (writtenWord 5 w s)) (fun _ => rfl)
      fun port dirty inFlight => ⟨body_putSettings _ _, port_putSettings _ _⟩
  · exact granted_setting ready rfl (by decide) rfl (takeMode (writtenWord 6 w s)) (fun _ => rfl)
      fun port dirty inFlight => ⟨body_putSettings _ _, port_putSettings _ _⟩
  · refine granted_setting ready rfl (by decide) rfl (takeBlankRate (writtenWord 7 w s)) (fun _ => rfl)
      fun port dirty inFlight => ⟨?_, port_putSettings _ _⟩
    rw [takeBlankRate, body_putSettings, clampTo_eq (by decide), Nat.zero_max]
    rfl
  · refine granted_setting ready rfl (by decide) rfl (takeFloor (writtenWord 8 w s)) (fun _ => rfl)
      fun port dirty inFlight => ⟨?_, rfl⟩
    rw [takeFloor, clampTo_eq (by decide)]
    rfl
  · refine granted_setting ready rfl (by decide) rfl (takeMaster (writtenWord 9 w s)) (fun _ => rfl)
      fun port dirty inFlight => ⟨?_, rfl⟩
    rw [takeMaster, clampTo_eq (by decide), Nat.zero_max]
    rfl
  · refine granted_setting ready rfl (by decide) rfl (takeCurveSel (writtenWord 10 w s)) (fun _ => rfl)
      fun port dirty inFlight => ?_
    dsimp only
    unfold takeCurveSel
    split
    · exact ⟨rfl, rfl⟩
    · split <;> exact ⟨rfl, rfl⟩
  · refine granted_setting ready rfl (by decide) rfl (takeVolume (writtenWord 11 w s)) (fun _ => rfl)
      fun port dirty inFlight => ⟨?_, rfl⟩
    rw [takeVolume, clampTo_eq (by decide), Nat.zero_max]
    rfl
  · refine granted_setting ready rfl (by decide) rfl (takeDuck (writtenWord 12 w s)) (fun _ => rfl)
      fun port dirty inFlight => ⟨?_, rfl⟩
    rw [takeDuck, clampTo_eq (by decide), Nat.zero_max]
    rfl
  · refine granted_setting ready rfl (by decide) rfl (takeRemoteOptions (writtenWord 35 w s)) (fun _ => rfl)
      fun port dirty inFlight => ⟨?_, port_putSettings _ _⟩
    rw [takeRemoteOptions, body_putSettings]
    rfl

/-! ## The ceiling worked out again (R112 to R115) -/

/-- What an operation leaves, up to the traffic, follows from what it finds up to the traffic. -/
theorem body_updateCeiling {s t : State} (h : t.body = s.body) : (updateCeiling t).body = s.recapped.body := by
  have same : t = s.traffic t.port t.sw.dirty t.clip.inFlight := eq_traffic h
  rw [updateCeiling, body_putThermal, h, same]
  rfl

theorem body_latched {e : Event} {s t : State} (h : t.body = s.body) : (latch e t).body = (s.latched e).body := by
  have same : t = s.traffic t.port t.sw.dirty t.clip.inFlight := eq_traffic h
  rw [body_latch, h, same]
  rfl

theorem port_updateCeiling (s : State) : (updateCeiling s).port = s.port := by simp [updateCeiling]

theorem body_correctIf {b : Bool} {i : Nat} {s t : State} (h : t.body = s.body) :
    (correctIf b i t).body = (s.corrected b i).body := by
  have hdr := body_hdr h
  cases b
  · exact h
  · show ({ t.body with hdr := { t.hdr with corrections := insertIndex i t.hdr.corrections } } : State) = _
    rw [h, hdr]
    rfl

theorem port_correctIf (b : Bool) (i : Nat) (s : State) : (correctIf b i s).port = s.port := by cases b <;> rfl

theorem body_settings {st : Settings} {s t : State} (h : t.body = s.body) :
    (putSettings st t).body = (s.withSettings st).body := by
  rw [body_putSettings, h, body_hdr h]
  rfl

/-- **A setting taken up with what it sets off**: as `granted_setting`, and the state that the comparison finds is any
whose header differs from the one written in its settings, corrections and pending settings alone. -/
theorem granted_settingWith {c : Instr} {i : Nat} {w : LaneWrite} {s u : State}
    (ready : HostReady s) (hc : exec c s = .next (headerWrite i w s)) (hi : i < 64)
    (take : State → State) (means : ∀ t, headerMeans i w (writtenWord i w s) t = compareWord i (take t))
    (taken : ∀ port dirty inFlight, port.hostHas → let t := (written i w s).traffic port dirty inFlight
      (compareWord i (take t)).body = u.body ∧ (take t).port.hostHas)
    (same : SameRest s u) : Granted c s u := by
  refine granted_header ready hc hi (fun port dirty inFlight has => ?_) (same.executor ready.2.1)
    (same.quiet ready.2.2.1)
  obtain ⟨body, has⟩ := taken port dirty inFlight has
  dsimp only
  rw [means]
  exact ⟨body, by rw [port_compareWord]; exact has⟩

/-- The comparison of a header word, up to the traffic. -/
theorem body_compareWord_of {i : Nat} {s t : State} (h : t.body = s.body) :
    (compareWord i t).body = ({ s with hdr := { s.hdr with
      corrections := if valueInEffect s.hdr i = s.hdr.imageOf i then s.hdr.corrections
        else insertIndex i s.hdr.corrections } } : State).body := by
  rw [body_compareWord, h, body_hdr h]
  rfl

/-- The gate flag judged against the limit in effect (R113). -/
def Thermal.judged (limit : Nat) (t : Thermal) : Thermal :=
  { t with gateFlag := if limit ≤ t.tg then true else if t.tg < limit - 5 then false else t.gateFlag }

theorem body_updateGateFlag {s t : State} (h : t.body = s.body) : (updateGateFlag t).body =
    (State.recapped { s with thermal := s.thermal.judged s.hdr.settings.gateLimit }).body := by
  refine body_updateCeiling ?_
  rw [body_putThermal, h, body_hdr h, body_thermal h]
  rfl

theorem port_updateGateFlag (s : State) : (updateGateFlag s).port = s.port := by
  rw [updateGateFlag, port_updateCeiling]
  simp

/-- Settles O22: each thermal setting is clamped against the others in effect, and TD, GATE_LIMIT and PC work the ceiling
out again. -/
theorem thermalSettingsTakeEffect : Obligations.ThermalSettingsTakeEffect := by
  intro w s ready
  refine ⟨?td, ?tt, ?tr, ?gateLimit, ?pc⟩
  case td =>
    refine granted_settingWith ready rfl (by decide) (takeTd (writtenWord 16 w s)) (fun _ => rfl)
      (fun port dirty inFlight has => ?_) ⟨?_, ?_, ?_, ?_, ?_, ?_, ?_, ?_⟩
    · refine ⟨?_, by simpa only [takeTd, port_updateCeiling, port_correctIf, port_putSettings, traffic_port] using has⟩
      rw [takeTd, clampTo_eq (by decide : 80 ≤ 115)]
      refine (body_compareWord_of (body_updateCeiling
        (body_correctIf (body_correctIf (body_settings (body_traffic _ _ _ _)))))).trans ?_
      simp only [corrected_eq]
      rfl
    all_goals (simp only [corrected_eq]; rfl)
  case tt =>
    exact granted_setting ready rfl (by decide) rfl (takeTt (writtenWord 17 w s)) (fun _ => rfl)
      fun port dirty inFlight => ⟨body_putSettings _ _, port_putSettings _ _⟩
  case tr =>
    exact granted_setting ready rfl (by decide) rfl (takeTr (writtenWord 18 w s)) (fun _ => rfl)
      fun port dirty inFlight => ⟨body_putSettings _ _, port_putSettings _ _⟩
  case gateLimit =>
    refine granted_settingWith ready rfl (by decide) (takeGateLimit (writtenWord 19 w s)) (fun _ => rfl)
      (fun port dirty inFlight has => ?_) ⟨rfl, rfl, rfl, rfl, rfl, rfl, rfl, rfl⟩
    refine ⟨?_, by simpa only [takeGateLimit, port_updateGateFlag, port_putSettings, traffic_port] using has⟩
    rw [takeGateLimit, clampTo_eq (by decide : 50 ≤ 110)]
    exact body_compareWord_of (body_updateGateFlag (body_settings (body_traffic _ _ _ _)))
  case pc =>
    refine granted_settingWith ready rfl (by decide) (takePc (writtenWord 20 w s)) (fun _ => rfl)
      (fun port dirty inFlight has => ?_) ⟨rfl, rfl, rfl, rfl, rfl, rfl, rfl, rfl⟩
    refine ⟨?_, by simpa only [takePc, port_updateCeiling, port_putSettings, traffic_port] using has⟩
    rw [takePc, clampTo_eq (by decide : 256 ≤ 1023)]
    exact body_compareWord_of (body_updateCeiling (body_settings (body_traffic _ _ _ _)))

end Sys2Proof.Machine
end
section
/-! Writes of DWELL_LIMIT, IRQ_MASK, LIFE_LIMIT, RING_SIZE, RING_RD and CUE_OPTIONS (R114, R208, R101, R190, R141, R145):
settings whose change sets something off. -/

namespace Sys2Proof.Machine

/-! ## What the limits set off -/

theorem lamp_of_putSettings (st : Settings) (s : State) : (putSettings st s).lamp = s.lamp := by simp

theorem thermal_of_putSettings (st : Settings) (s : State) : (putSettings st s).thermal = s.thermal := by simp

theorem body_dropReported {s t : State} (h : t.body = s.body) : (dropReported t).body =
    (State.recapped { s with thermal := { s.thermal with dwellUs := 0, dwellFlag := false } }).body := by
  refine body_updateCeiling ?_
  rw [body_putThermal, h, body_thermal h]
  rfl

theorem body_setDwellFlag {s t : State} (h : t.body = s.body) : (setDwellFlag t).body =
    (State.latched .dwellLimit
      (State.recapped { s with thermal := { s.thermal with dwellFlag := true } })).body := by
  refine body_latched (body_updateCeiling ?_)
  rw [body_putThermal, h, body_thermal h]
  rfl

theorem port_dwellLimitChanged (s : State) : (dwellLimitChanged s).port = s.port := by
  unfold dwellLimitChanged
  split
  · simp [dropReported]
  · split
    · simp [setDwellFlag]
    · rfl

theorem port_takeDwellLimit (v : Word) (s : State) : (takeDwellLimit v s).port = s.port := by
  unfold takeDwellLimit
  dsimp only
  generalize (if v = 0 then 0 else clampTo 10 900 v.toNat) = limit
  split
  · rfl
  · rw [port_dwellLimitChanged, port_putSettings]

/-- The limit that DWELL_LIMIT puts in effect (R199). -/
def limitOf (v : Word) : Nat := if v.toNat = 0 then 0 else max 10 (min 900 v.toNat)

theorem dwellLimit_of_word (v : Word) :
    (if v = 0 then 0 else clampTo 10 900 v.toNat) = limitOf v := by
  rw [clampTo_eq (by decide)]
  exact if_congr BitVec.toNat_eq rfl rfl

theorem port_takeLifeLimit (v : Word) (s : State) : (takeLifeLimit v s).port = s.port := by
  unfold takeLifeLimit reviewLife
  split
  · simp
  · unfold checkLife
    split <;> simp

theorem port_takeIrqMask (v : Word) (s : State) : (takeIrqMask v s).port = s.port := by
  unfold takeIrqMask
  dsimp only
  split <;> simp

theorem body_irqPending {b : Bool} {s t : State} (h : t.body = s.body) :
    ({ t with sw := { t.sw with irqPending := b } } : State).body
      = ({ s with sw := { s.sw with irqPending := b } } : State).body := by
  rw [eq_traffic h]
  rfl

theorem body_takeIrqMask {v : Word} {s t : State} (h : t.body = s.body) : (takeIrqMask v t).body =
    ({ s.withSettings { s.hdr.settings with irqMask := v } with sw := { s.sw with
      irqPending := s.sw.irqPending
        || decide ((s.sw.copy[2]?).getD 0 &&& v &&& ~~~s.hdr.settings.irqMask ≠ 0) } } : State).body := by
  rw [eq_traffic h]
  have settings := body_settings (st := { s.hdr.settings with irqMask := v })
    (body_traffic t.port t.sw.dirty t.clip.inFlight s)
  by_cases none_ : (s.sw.copy[2]?).getD 0 &&& v &&& ~~~s.hdr.settings.irqMask = 0
  · rw [decide_eq_false (not_not.2 none_), Bool.or_false]
    exact (congrArg State.body (if_pos none_)).trans settings
  · rw [decide_eq_true none_, Bool.or_true]
    exact (congrArg State.body (if_neg none_)).trans (body_irqPending settings)

theorem body_putLamp_of (l : Lamp) {s t : State} (h : t.body = s.body) :
    (putLamp l t).body = ({ s with lamp := l } : State).body := by
  rw [body_putLamp, h]
  rfl

/-- DWELL_LIMIT with the limit in effect. -/
theorem takeDwellLimit_same {v : Word} {s : State} (h : limitOf v = s.hdr.settings.dwellLimit) :
    takeDwellLimit v s = s := if_pos ((dwellLimit_of_word v).trans h)

/-- DWELL_LIMIT with a new limit. -/
theorem takeDwellLimit_new {v : Word} {s : State} (h : limitOf v ≠ s.hdr.settings.dwellLimit) :
    takeDwellLimit v s
      = dwellLimitChanged (putSettings { s.hdr.settings with dwellLimit := limitOf v } s) := by
  unfold takeDwellLimit
  rw [dwellLimit_of_word]
  exact if_neg h

/-- Settles O23: DWELL_LIMIT case by case of the new limit, IRQ_MASK and LIFE_LIMIT. -/
theorem limitsAndMaskTakeEffect : Obligations.LimitsAndMaskTakeEffect := by
  intro w s ready st v limit u mask hours x
  have dwell {u' : State} (same : SameRest s u')
      (taken : ∀ port dirty inFlight, (compareWord 21 (takeDwellLimit (writtenWord 21 w s)
        ((written 21 w s).traffic port dirty inFlight))).body = u'.body) : Granted (.dwellLimit w) s u' :=
    granted_settingWith ready rfl (by decide) (takeDwellLimit (writtenWord 21 w s)) (fun _ => rfl)
      (fun port dirty inFlight has => ⟨taken port dirty inFlight, by rw [port_takeDwellLimit]; exact has⟩) same
  have life {u' : State} (same : SameRest s u')
      (taken : ∀ port dirty inFlight, (compareWord 36 (takeLifeLimit (writtenWord 36 w s)
        ((written 36 w s).traffic port dirty inFlight))).body = u'.body) : Granted (.lifeLimit w) s u' :=
    granted_settingWith ready rfl (by decide) (takeLifeLimit (writtenWord 36 w s)) (fun _ => rfl)
      (fun port dirty inFlight has => ⟨taken port dirty inFlight, by rw [port_takeLifeLimit]; exact has⟩) same
  refine ⟨?same, ?none_, ?reached, ?sooner, ?mask_, ?below, ?reported, ?life_⟩
  case same =>
    intro h
    refine dwell ⟨rfl, rfl, rfl, rfl, rfl, rfl, rfl, rfl⟩ fun port dirty inFlight => ?_
    rw [takeDwellLimit_same (s := (written 21 w s).traffic port dirty inFlight) h]
    refine (body_compareWord_of (body_traffic _ _ _ _)).trans ?_
    simp only [u, h]
    rfl
  case none_ =>
    intro h h0
    refine dwell ⟨rfl, rfl, rfl, rfl, rfl, rfl, rfl, rfl⟩ fun port dirty inFlight => ?_
    rw [takeDwellLimit_new (s := (written 21 w s).traffic port dirty inFlight) h, dwellLimitChanged,
      if_pos (by rw [putSettings_hdr]; exact h0)]
    exact body_compareWord_of (body_dropReported (body_settings (body_traffic _ _ _ _)))
  case reached =>
    intro h h0 hle
    refine dwell ⟨rfl, rfl, rfl, rfl, rfl, rfl, rfl, rfl⟩ fun port dirty inFlight => ?_
    rw [takeDwellLimit_new (s := (written 21 w s).traffic port dirty inFlight) h, dwellLimitChanged,
      if_neg (by rw [putSettings_hdr]; exact h0),
      if_pos (by rw [dwellLimitUs, putSettings_hdr, thermal_of_putSettings]; exact hle)]
    exact body_compareWord_of (body_setDwellFlag (body_settings (body_traffic _ _ _ _)))
  case sooner =>
    intro h h0 hlt
    refine dwell ⟨rfl, rfl, rfl, rfl, rfl, rfl, rfl, rfl⟩ fun port dirty inFlight => ?_
    rw [takeDwellLimit_new (s := (written 21 w s).traffic port dirty inFlight) h, dwellLimitChanged,
      if_neg (by rw [putSettings_hdr]; exact h0),
      if_neg (by rw [dwellLimitUs, putSettings_hdr, thermal_of_putSettings]; exact Nat.not_le.2 hlt)]
    exact body_compareWord_of (body_settings (body_traffic _ _ _ _))
  case mask_ =>
    refine granted_settingWith ready rfl (by decide) (takeIrqMask (writtenWord 4 w s)) (fun _ => rfl)
      (fun port dirty inFlight has => ⟨?_, by rw [port_takeIrqMask]; exact has⟩) ⟨rfl, rfl, rfl, rfl, rfl, rfl, rfl, rfl⟩
    exact body_compareWord_of (body_takeIrqMask (body_traffic _ _ _ _))
  case below =>
    intro h
    refine life ⟨rfl, rfl, rfl, rfl, rfl, rfl, rfl, rfl⟩ fun port dirty inFlight => ?_
    rw [takeLifeLimit, reviewLife, if_pos (by rw [putSettings_hdr, lamp_of_putSettings]; exact h), lamp_of_putSettings]
    exact body_compareWord_of (body_putLamp_of _ (body_settings (body_traffic _ _ _ _)))
  case reported =>
    intro h0 hle hr
    refine life ⟨rfl, rfl, rfl, rfl, rfl, rfl, rfl, rfl⟩ fun port dirty inFlight => ?_
    rw [takeLifeLimit, reviewLife,
      if_neg (by rw [putSettings_hdr, lamp_of_putSettings]; exact not_or.2 ⟨h0, Nat.not_lt.2 hle⟩), checkLife,
      if_neg (by rw [lamp_of_putSettings]; exact fun h => absurd (hr.symm.trans h.2.2) (by decide))]
    exact body_compareWord_of (body_settings (body_traffic _ _ _ _))
  case life_ =>
    intro h0 hle hr
    refine life ⟨rfl, rfl, rfl, rfl, rfl, rfl, rfl, rfl⟩ fun port dirty inFlight => ?_
    rw [takeLifeLimit, reviewLife,
      if_neg (by rw [putSettings_hdr, lamp_of_putSettings]; exact not_or.2 ⟨h0, Nat.not_lt.2 hle⟩), checkLife,
      if_pos (by rw [putSettings_hdr, lamp_of_putSettings]; exact ⟨h0, hle, hr⟩), lamp_of_putSettings]
    exact body_compareWord_of (body_latched (body_putLamp_of _ (body_settings (body_traffic _ _ _ _))))

/-- What the executor looks at to know whether it has something to do is as it was. -/
structure SameExecutor (s t : State) : Prop where
  completion : t.tray.completion = s.tray.completion
  cx : t.cx = s.cx
  lamp : t.lamp.state = s.lamp.state
  net : t.remote.netCount = s.remote.netCount
  oneShot : t.remote.oneShot = s.remote.oneShot
  record : t.hdr.record = s.hdr.record

theorem executor_rest {s t : State} (rest : executorStep s = none) (same : SameExecutor s t) : executorStep t = none :=
  (executorStep_none_congr same.completion same.cx same.lamp same.net same.oneShot same.record).2 rest

/-! ## The ring (R141, R142, R190) -/

theorem body_voidAccess (who : Requester) (s : State) : (voidAccess who s).body = s.body := by
  unfold voidAccess
  split
  · split <;> rfl
  · rfl

theorem hostHas_voidAccess (who : Requester) {s : State} (h : s.port.hostHas) : (voidAccess who s).port.hostHas := by
  unfold voidAccess
  split
  case h_1 a ha =>
    split
    · exact ⟨by rw [← h.ram, ha]; rfl, h.access⟩
    · exact h
  · exact h

theorem body_freshRing {s t : State} (h : t.body = s.body) : (freshRing t).body = s.ringAfresh.body := by
  have withdrawn : (withdrawLog t).body = s.body := (body_voidAccess _ _).trans h
  unfold freshRing
  rw [eq_traffic withdrawn]
  have afresh := body_putLog { s.log with staging := [], w := 0, rd := 0, pendingRd := none, writing := none }
    (s.traffic (withdrawLog t).port (withdrawLog t).sw.dirty (withdrawLog t).clip.inFlight)
  dsimp only [traffic_log]
  rw [eq_traffic (afresh.trans (b := ({ s with log := { s.log with
    staging := [], w := 0, rd := 0, pendingRd := none, writing := none } } : State).body) rfl)]
  rfl

theorem hostHas_freshRing {s : State} (h : s.port.hostHas) : (freshRing s).port.hostHas := by
  have withdrawn : (withdrawLog s).port.hostHas := hostHas_voidAccess _ ⟨h.ram, h.access⟩
  exact hostHas_of_port (s := withdrawLog s) (by simp [freshRing, addCorrection]) withdrawn

/-- RING_SIZE, clamped (R190, R199). -/
theorem takeRingSize_new {v : Word} {s : State} (new : max 16 (min 4096 v.toNat) ≠ s.hdr.settings.ringSize)
    (ok : s.hdr.settings.sizeOk (max 16 (min 4096 v.toNat)) = true) : takeRingSize v s
      = freshRing (putSettings { s.hdr.settings with ringSize := max 16 (min 4096 v.toNat) } s) := by
  unfold takeRingSize
  rw [clampTo_eq (by decide)]
  exact (if_neg new).trans (if_pos ok)

theorem takeRingSize_kept {v : Word} {s : State} (h : max 16 (min 4096 v.toNat) = s.hdr.settings.ringSize
    ∨ s.hdr.settings.sizeOk (max 16 (min 4096 v.toNat)) = false) : takeRingSize v s = s := by
  unfold takeRingSize
  rw [clampTo_eq (by decide)]
  dsimp only
  split
  · rfl
  · next new => simp [h.resolve_left new]

theorem body_handRingRd {v : Nat} {s t : State} (h : t.body = s.body) : (handRingRd v t).body = ({ s with
    log := if s.log.writing.isSome then { s.log with pendingRd := some v } else { s.log with rd := v } } : State).body := by
  rw [eq_traffic h]
  unfold handRingRd
  by_cases writing : s.log.writing.isSome = true
  · refine (congrArg State.body (if_pos writing)).trans ((body_putLog _ _).trans ?_)
    rw [if_pos writing]
    rfl
  · refine (congrArg State.body (if_neg writing)).trans ((body_putLog _ _).trans ?_)
    rw [if_neg writing]
    rfl

theorem port_handRingRd (v : Nat) (s : State) : (handRingRd v s).port = s.port := by
  unfold handRingRd
  split <;> simp

theorem body_ringRd {v : Nat} {s t : State} (h : t.body = s.body) :
    ({ t with hdr := { t.hdr with ringRd := v } } : State).body
      = ({ s with hdr := { s.hdr with ringRd := v } } : State).body := by
  rw [eq_traffic h]
  rfl

/-- A ring started afresh stages nothing. -/
theorem logQuiet_ringAfresh (i : Nat) (st : Settings) (pend : PendingSettings) (s : State) :
    logQuiet (inEffect i st pend s.ringAfresh) := .inr (.inr rfl)

theorem executorStep_ringAfresh {i : Nat} {st : Settings} {pend : PendingSettings} {s : State}
    (rest : executorStep s = none) : executorStep (inEffect i st pend s.ringAfresh) = none :=
  executor_rest rest ⟨rfl, rfl, rfl, rfl, rfl, rfl⟩

/-- Settles O25: RING_SIZE starts the ring afresh when it passes and is new; RING_RD below it goes to the Log Writer. -/
theorem ringSizeAndRingRd : Obligations.RingSizeAndRingRd := by
  intro w s ready st p size rd
  have sizeWritten {u : State} (rest : executorStep u = none) (quiet : logQuiet u)
      (taken : ∀ port dirty inFlight, port.hostHas →
        let t := takeRingSize (writtenWord 32 w s) ((written 32 w s).traffic port dirty inFlight)
        (compareWord 32 t).body = u.body ∧ t.port.hostHas) : Granted (.ringSize w) s u :=
    granted_header ready rfl (by decide) (fun port dirty inFlight has =>
      ⟨(taken port dirty inFlight has).1, hostHas_of_port (port_compareWord _ _) (taken port dirty inFlight has).2⟩) rest quiet
  have rest : executorStep (written 32 w s) = none := (sameRest_written 32 w s).executor ready.2.1
  have kept_ {i : Nat} {c : Instr} (hi : i < 64) (hc : exec c s = .next (headerWrite i w s)) (take : State → State)
      (means : ∀ t, headerMeans i w (writtenWord i w s) t = compareWord i (take t))
      (taken : ∀ port dirty inFlight, let t := (written i w s).traffic port dirty inFlight
        take t = t) : Granted c s (inEffect i st p (written i w s)) :=
    granted_setting ready hc hi rfl take means fun port dirty inFlight => by
      dsimp only
      rw [taken]
      exact ⟨rfl, rfl⟩
  refine ⟨fun new ok => ?_, fun kept => ?_, fun le => ?_, fun lt => ?_⟩
  · refine sizeWritten (executorStep_ringAfresh rest) (logQuiet_ringAfresh _ _ _ _)
      fun port dirty inFlight has => ?_
    dsimp only
    rw [takeRingSize_new (v := writtenWord 32 w s) (s := (written 32 w s).traffic port dirty inFlight) new ok]
    refine ⟨?_, hostHas_freshRing (hostHas_of_port (port_putSettings _ _) has)⟩
    exact body_compareWord_of (body_freshRing (body_settings (body_traffic _ _ _ _)))
  · exact kept_ (by decide) rfl (takeRingSize (writtenWord 32 w s)) (fun _ => rfl) fun port dirty inFlight =>
      takeRingSize_kept (v := writtenWord 32 w s) (s := (written 32 w s).traffic port dirty inFlight) kept
  · exact kept_ (by decide) rfl (takeRingRd (writtenWord 33 w s)) (fun _ => rfl) fun port dirty inFlight =>
      if_neg (Nat.not_lt.2 le)
  · refine granted_header ready rfl (by decide) (fun port dirty inFlight has => ?_)
      (executor_rest ready.2.1 ⟨rfl, rfl, rfl, rfl, rfl, rfl⟩) ?_
    · have taken : takeRingRd (writtenWord 33 w s) ((written 33 w s).traffic port dirty inFlight) = _ := if_pos lt
      show (compareWord 33 (takeRingRd (writtenWord 33 w s) _)).body = _ ∧ (compareWord 33 (takeRingRd _ _)).port.hostHas
      rw [taken]
      refine ⟨body_compareWord_of (body_handRingRd (body_ringRd (body_traffic _ _ _ _))), ?_⟩
      rw [port_compareWord, port_handRingRd]
      exact has
    · refine ready.2.2.1.imp id (Or.imp (fun writing => ?_) fun staging => ?_)
      · exact (congrArg (fun l : LogWriter => l.writing.isSome) (if_pos writing)).trans writing
      · show (if s.log.writing.isSome then _ else _ : LogWriter).staging = []
        split <;> exact staging

/-! ## CUE_OPTIONS (R145, R147) -/

theorem body_putCue_of (c : CueTrack) {s t : State} (h : t.body = s.body) :
    (putCue c t).body = ({ s with cue := c } : State).body := by
  rw [body_putCue, h]
  rfl

theorem body_putDeck_of (d : Deck) {s t : State} (h : t.body = s.body) :
    (putDeck d t).body = ({ s with deck := d } : State).body := by
  rw [body_putDeck, h]
  rfl

theorem body_discardFrame {s t : State} (h : t.body = s.body) :
    (discardFrame t).body = ({ s with cue := s.cue.unframed } : State).body := by
  rw [eq_traffic h, discardFrame, toHunt, body_putCue, body_putCue, putCue_cue]
  rfl

/-- The decoder with decoding on or off (R147). -/
theorem body_decoding (b : Bool) {s t : State} (h : t.body = s.body) :
    (if b then t else discardFrame t).body = ({ s with cue := if b then s.cue else s.cue.unframed } : State).body := by
  cases b
  · exact body_discardFrame h
  · exact h

/-- Auto-hold by the depth of the queue (R145). -/
def Deck.autoTurned (on : Bool) (len : Nat) (d : Deck) : Deck :=
  { d with auto := if on then (if 6 ≤ len then true else if len ≤ 2 then false else d.auto) else false }

theorem body_autoHoldTurned {s t : State} (h : t.body = s.body) : (autoHoldTurned t).body =
    ({ s with deck := s.deck.autoTurned s.hdr.settings.autoHold s.cx.queue.length } : State).body := by
  have deck {d : Deck} : (putDeck d t).body = ({ s with deck := d } : State).body := body_putDeck_of d h
  unfold autoHoldTurned autoHold Deck.autoTurned
  rw [body_hdr h, body_cx h, body_deck h]
  split
  · split
    · exact deck
    · split
      · exact deck
      · exact h
  · exact deck

theorem port_takeCueOptions (v : Word) (s : State) : (takeCueOptions v s).port = s.port := by
  unfold takeCueOptions autoHoldTurned autoHold
  dsimp only
  split <;> split <;> (try split) <;> (try split) <;> simp [discardFrame, toHunt]

/-- Settles O26: the four flags, the decoder discarded with decoding off, and auto-hold by the depth of the queue. -/
theorem cueOptionsTakeEffect : Obligations.CueOptionsTakeEffect := by
  intro w s ready v len u
  refine granted_settingWith ready rfl (by decide) (takeCueOptions v) (fun _ => rfl)
    (fun port dirty inFlight has => ⟨?_, by rw [port_takeCueOptions]; exact has⟩) ⟨rfl, rfl, rfl, rfl, rfl, rfl, rfl, rfl⟩
  have settings := body_settings (st := { s.hdr.settings with
    decoding := bitOf v 0, foreignLog := bitOf v 1, errorLog := bitOf v 2, autoHold := bitOf v 3 })
    (body_traffic port dirty inFlight (written 34 w s))
  unfold takeCueOptions
  dsimp only
  rw [putSettings_hdr]
  exact body_compareWord_of (body_autoHoldTurned (body_decoding _ settings))

end Sys2Proof.Machine
end
section
/-! Writes of a base (R189, R190, R200): the check of the candidate, and what a new base does to the block that holds the
region (R67, R99, R142). -/

namespace Sys2Proof.Machine

/-! ## The candidate -/

theorem imageOf_written_same {i : Nat} (hi : i < 64) (w : LaneWrite) (s : State) :
    (written i w s).hdr.imageOf i = writtenWord i w s := by
  simp [written, Header.imageOf, hi]

theorem imageOf_written_ne {i j : Nat} (h : j ≠ i) (w : LaneWrite) (s : State) :
    (written i w s).hdr.imageOf j = s.hdr.imageOf j := by
  simp [written, Header.imageOf, Vector.getElem?_setIfInBounds_ne (Ne.symm h)]

/-- The candidate that a write of a base's high word makes (R200). -/
theorem candidateBase_written (r : Region) (w : LaneWrite) (s : State) :
    candidateBase r (written (r.word + 1) w s).hdr
      = (writtenWord (r.word + 1) w s).toNat * 65536 + (s.hdr.imageOf r.word).toNat := by
  unfold candidateBase
  rw [imageOf_written_same (by cases r <;> decide), imageOf_written_ne (by omega)]

theorem withBase_base (st : Settings) (r : Region) (base : Nat) : (st.withBase r base).base r = base := by
  cases r <;> rfl

/-- A candidate that is not taken up (R200): the base in effect is corrected back where it differs. -/
theorem takeBase_kept {r : Region} {s : State}
    (kept : s.hdr.settings.regionOk r (candidateBase r s.hdr) = false ∨ candidateBase r s.hdr = s.hdr.settings.base r) :
    takeBase r s = State.corrected (decide (candidateBase r s.hdr ≠ s.hdr.settings.base r)) (r.word + 1)
      (State.corrected (decide (candidateBase r s.hdr ≠ s.hdr.settings.base r)) r.word s) := by
  have refused : ¬ (s.hdr.settings.regionOk r (candidateBase r s.hdr)
      && decide (candidateBase r s.hdr ≠ s.hdr.settings.base r)) = true := by
    rcases kept with h | h <;> simp [h]
  unfold takeBase
  dsimp only
  rw [if_neg refused]
  by_cases same : candidateBase r s.hdr = s.hdr.settings.base r
  · rw [if_pos same.symm, decide_eq_false (not_not.2 same)]
    rfl
  · rw [if_neg (Ne.symm same), decide_eq_true same]
    rfl

/-- A candidate that passes and is new is taken up (R200). -/
theorem takeBase_new {r : Region} {s u : State} (ok : s.hdr.settings.regionOk r (candidateBase r s.hdr) = true)
    (new : candidateBase r s.hdr ≠ s.hdr.settings.base r)
    (body : (acceptBase r (candidateBase r s.hdr) s).body = u.body)
    (base : u.hdr.settings.base r = candidateBase r u.hdr) :
    takeBase r s = acceptBase r (candidateBase r s.hdr) s := by
  have taken : (s.hdr.settings.regionOk r (candidateBase r s.hdr)
      && decide (candidateBase r s.hdr ≠ s.hdr.settings.base r)) = true := by
    rw [ok, decide_eq_true new]
    rfl
  unfold takeBase
  dsimp only
  rw [if_pos taken, if_pos (by rw [body_hdr body]; exact base)]

/-! ## The blocks that hold a region -/

theorem body_latchIf {b : Bool} {e : Event} {s t : State} (h : t.body = s.body) :
    (latchIf b e t).body = (if b then s.latched e else s).body := by
  cases b
  · exact h
  · exact body_latched h

theorem body_putShadow_of (sh : Shadow) {s t : State} (h : t.body = s.body) :
    (putShadow sh t).body = ({ s with shadow := sh } : State).body := by
  rw [body_putShadow, h]
  rfl

theorem body_withdrawShadow (s : State) : (withdrawShadow s).body = s.body := body_voidAccess _ _

theorem hostHas_withdrawShadow {s : State} (h : s.port.hostHas) : (withdrawShadow s).port.hostHas :=
  hostHas_voidAccess _ ⟨h.ram, h.access⟩

/-- What a new content of the Watch Table leaves: everything but the table and the event it latches. -/
theorem retabled_eq (table : Vector WatchEntry 16) (s : State) : s.retabled table = { s with
    shadow := { s.shadow with table := table }
    sw := if anyTurnedStale s.shadow.table.toList table.toList then (s.latched .shadowStale).sw else s.sw } := by
  unfold State.retabled
  dsimp only
  split <;> rfl

/-- The Watch Table after a new base of a kind (R67). -/
def State.rebased (kind : RecKind) (base : Nat) (s : State) : State :=
  let table := s.shadow.table.map (WatchEntry.afterBase kind base)
  State.retabled table { s with shadow := { s.shadow with
    fetchList := s.shadow.fetchList.filter (fun i => decide ((table[i]?).getD .free ≠ .free)) } }

theorem body_shadowBaseChange {kind : RecKind} {base : Nat} {s t : State} (h : t.body = s.body) :
    (shadowBaseChange kind base t).body = (s.rebased kind base).body := by
  have changed : (latchIf (anyTurnedStale s.shadow.table.toList
      (s.shadow.table.map (WatchEntry.afterBase kind base)).toList) .shadowStale (putShadow
        { s.shadow with
          table := s.shadow.table.map (WatchEntry.afterBase kind base)
          fetchList := s.shadow.fetchList.filter (fun i => decide
            (((s.shadow.table.map (WatchEntry.afterBase kind base))[i]?).getD .free ≠ .free)) } t)).body
      = (s.rebased kind base).body :=
    (body_latchIf (body_putShadow_of _ h)).trans rfl
  unfold shadowBaseChange
  rw [body_shadow h]
  dsimp only
  split
  · exact (body_withdrawShadow _).trans changed
  · exact changed

theorem port_latchIf (b : Bool) (e : Event) (s : State) : (latchIf b e s).port = s.port := by cases b <;> simp [latchIf]

theorem hostHas_shadowBaseChange {kind : RecKind} {base : Nat} {s : State} (h : s.port.hostHas) :
    (shadowBaseChange kind base s).port.hostHas := by
  have changed {b : Bool} {sh : Shadow} : (latchIf b .shadowStale (putShadow sh s)).port.hostHas :=
    hostHas_of_port (by rw [port_latchIf]; simp) h
  unfold shadowBaseChange
  dsimp only
  split
  · exact hostHas_withdrawShadow changed
  · exact changed

theorem body_withdrawCurve (s : State) : (withdrawCurve s).body = s.body := body_voidAccess _ _

theorem hostHas_withdrawCurve {s : State} (h : s.port.hostHas) : (withdrawCurve s).port.hostHas :=
  hostHas_voidAccess _ ⟨h.ram, h.access⟩

/-- The curves after a new CURVE_BASE (R99). -/
def Lamp.recurved (base : Nat) (l : Lamp) : Lamp :=
  match l.loader with
  | none => { l with dirtyA := decide (base ≠ 0), dirtyB := decide (base ≠ 0) }
  | some ld =>
    if base = 0 then { l with dirtyA := false, dirtyB := false, loader := none }
    else { l with
      dirtyA := decide (ld.curve ≠ .a), dirtyB := decide (ld.curve ≠ .b)
      loader := some { curve := ld.curve, index := 0 } }

theorem recurved_none (base : Nat) {l : Lamp} (h : l.loader = none) :
    l.recurved base = { l with dirtyA := decide (base ≠ 0), dirtyB := decide (base ≠ 0) } := by
  rw [Lamp.recurved, h]

theorem recurved_some (base : Nat) {l : Lamp} {ld : Loading} (h : l.loader = some ld) : l.recurved base =
    if base = 0 then { l with dirtyA := false, dirtyB := false, loader := none }
    else { l with
      dirtyA := decide (ld.curve ≠ .a), dirtyB := decide (ld.curve ≠ .b)
      loader := some { curve := ld.curve, index := 0 } } := by
  rw [Lamp.recurved, h]

theorem recurved_state (base : Nat) (l : Lamp) : (l.recurved base).state = l.state := by
  unfold Lamp.recurved
  split
  · rfl
  · split <;> rfl

theorem body_startLoad {c : CurveSel} {s t : State} (h : t.body = s.body) : (startLoad c t).body
    = ({ s with lamp := { s.lamp.setDirty c false with loader := some { curve := c, index := 0 } } } : State).body := by
  rw [startLoad, body_withdrawCurve, body_lamp h]
  exact body_putLamp_of _ h

theorem body_abandonLoad {s t : State} (h : t.body = s.body) : (abandonLoad t).body
    = ({ s with lamp := { s.lamp with loader := none } } : State).body := by
  rw [abandonLoad, body_withdrawCurve, body_lamp h]
  exact body_putLamp_of _ h

theorem hostHas_putLamp {l : Lamp} {s : State} (h : s.port.hostHas) : (putLamp l s).port.hostHas :=
  hostHas_of_port (by simp) h

theorem body_curveBaseChanged {s t : State} (h : t.body = s.body) : (curveBaseChanged t).body =
    ({ s with lamp := s.lamp.recurved s.hdr.settings.curveBase } : State).body := by
  unfold curveBaseChanged Lamp.recurved
  rw [body_hdr h, body_lamp h]
  dsimp only
  by_cases base : s.hdr.settings.curveBase = 0
  · rw [if_pos base]
    have clean := body_putLamp_of { s.lamp with dirtyA := false, dirtyB := false } h
    rw [putLamp_lamp]
    split
    · next ld found =>
      have loader : s.lamp.loader = some ld := found
      refine (body_abandonLoad clean).trans ?_
      simp [base, loader]
    · next found =>
      have loader : s.lamp.loader = none := found
      refine clean.trans ?_
      simp [base, loader]
  · rw [if_neg base]
    have dirty := body_putLamp_of { s.lamp with dirtyA := true, dirtyB := true } h
    rw [putLamp_lamp]
    split
    · next ld found =>
      have loader : s.lamp.loader = some ld := found
      obtain ⟨c, n⟩ := ld
      refine (body_startLoad dirty).trans ?_
      cases c <;> simp [base, loader, Lamp.setDirty]
    · next found =>
      have loader : s.lamp.loader = none := found
      refine dirty.trans ?_
      simp [base, loader]

theorem hostHas_curveBaseChanged {s : State} (h : s.port.hostHas) : (curveBaseChanged s).port.hostHas := by
  unfold curveBaseChanged
  dsimp only
  split
  · split
    · exact hostHas_withdrawCurve (hostHas_putLamp (hostHas_putLamp h))
    · exact hostHas_putLamp h
  · split
    · exact hostHas_withdrawCurve (hostHas_putLamp (hostHas_putLamp h))
    · exact hostHas_putLamp h

/-! ## The Watch Table under a base of 0 (R67) -/

/-- A new base leaves each entry its kind and key, but those of its own kind that it frees. -/
theorem holds_afterBase {kind other : RecKind} (ne : other ≠ kind) (base key : Nat) (e : WatchEntry) :
    (e.afterBase kind base).holds other key = e.holds other key := by
  unfold WatchEntry.afterBase
  rcases e with _ | d | ⟨d, stale, used⟩
  · rfl
  all_goals
    dsimp only
    split
    · next same =>
      have not_other : d.kind ≠ other := fun h => ne (h.symm.trans same)
      split <;> simp [WatchEntry.holds, WatchEntry.fields, not_other]
    · rfl

/-- The records of the other kind stand where they stood. -/
theorem find_rebased {kind other : RecKind} (ne : other ≠ kind) (base key : Nat) (s : State) :
    (s.rebased kind base).shadow.find other key = s.shadow.find other key := by
  have table : (s.rebased kind base).shadow.table = s.shadow.table.map (WatchEntry.afterBase kind base) := by
    rw [State.rebased, retabled_eq]
  have holds : WatchEntry.holds other key ∘ WatchEntry.afterBase kind base = WatchEntry.holds other key :=
    funext (holds_afterBase ne base key)
  unfold Shadow.find
  rw [table, Vector.toList_map, List.findIdx?_map, holds]

theorem userLookups_congr {s t : State} (tray : t.tray = s.tray) (start : t.clip.start = s.clip.start) :
    userLookups t = userLookups s := by
  unfold userLookups
  rw [tray, start]

/-- With no lookup waiting, a table that goes leaves none that an entry could serve. -/
theorem serveWaiting_of_noBase {kind : RecKind} {s : State}
    (waiting : ∀ l ∈ waitingLookups s, l.kind = kind) (noBase : recordBase kind s = 0) : serveWaiting s = s := by
  have absent (l : RecordLookup) (h : l.kind = kind) : (lookup l.kind l.key l.pin s).1 = s := by
    unfold lookup
    rw [h, if_pos noBase]
  unfold serveWaiting
  generalize waitingLookups s = ls at waiting
  induction ls with
  | nil => rfl
  | cons l ls ih =>
    rw [List.foldl_cons, absent l (waiting l (by simp))]
    exact ih fun k hk => waiting k (by simp [hk])

/-- Every lookup that a new base leaves waiting is of its kind. -/
theorem waiting_rebased {kind : RecKind} {base : Nat} {s t : State} (none_ : noLookupWaits s)
    (body : t.body = (s.rebased kind base).body) : ∀ l ∈ waitingLookups t, l.kind = kind := by
  intro l hl
  have users : userLookups t = userLookups s := by
    rw [eq_traffic body, State.rebased, retabled_eq]
    exact userLookups_congr rfl rfl
  obtain ⟨member, missing⟩ := List.mem_filter.1 hl
  by_contra other
  have found : s.shadow.find l.kind l.key = none := by
    have := of_decide_eq_true missing
    rwa [body_shadow body, find_rebased other] at this
  have : l ∈ waitingLookups s := List.mem_filter.2 ⟨users ▸ member, decide_eq_true found⟩
  rw [none_] at this
  exact absurd this (by simp)

theorem trayDropPins_nil (s : State) : trayDropPins [] s = putTray s.tray s := by
  have none_ (pin : Option Nat) : pinFilling pin [] = false := by cases pin <;> rfl
  simp [trayDropPins, none_]

theorem body_putTray_of (tr : Tray) {s t : State} (h : t.body = s.body) :
    (putTray tr t).body = ({ s with tray := tr } : State).body := by
  rw [body_putTray, h]
  rfl

theorem unansweredKeys_nil {kind : RecKind} {s : State} (filling : s.shadow.fillingKeys kind = [])
    (none_ : noLookupWaits s) : unansweredKeys kind s = [] := by
  rw [unansweredKeys, filling, none_]
  rfl

/-- A new SLOT_BASE (R67): other than 0, or with no user to answer. -/
theorem slotBaseChanged_plain {s t : State} (h : t.body = s.body)
    (plain : s.hdr.settings.slotBase ≠ 0 ∨ (s.shadow.fillingKeys .slot = [] ∧ noLookupWaits s)) :
    (slotBaseChanged t).body = (s.rebased .slot s.hdr.settings.slotBase).body
      ∧ (t.port.hostHas → (slotBaseChanged t).port.hostHas) := by
  have changed := body_shadowBaseChange (kind := .slot) (base := s.hdr.settings.slotBase) h
  have tray : (shadowBaseChange .slot s.hdr.settings.slotBase t).tray = s.tray := by
    rw [body_tray changed, State.rebased, retabled_eq]
  unfold slotBaseChanged
  rw [body_hdr h]
  dsimp only
  by_cases base : s.hdr.settings.slotBase = 0
  · obtain ⟨filling, none_⟩ := plain.resolve_left (not_not.2 base)
    have keys : unansweredKeys .slot t = [] := unansweredKeys_nil (by rw [body_shadow h]; exact filling)
      (by rw [noLookupWaits, eq_traffic h]; exact none_)
    have dropped : (putTray s.tray (shadowBaseChange .slot s.hdr.settings.slotBase t)).body
        = (s.rebased .slot s.hdr.settings.slotBase).body := by
      rw [body_putTray, changed, State.rebased, retabled_eq]
      rfl
    rw [if_pos base, keys, List.foldl_nil, trayDropPins_nil, tray, serveWaiting_of_noBase (kind := .slot)]
    · exact ⟨dropped, fun has => hostHas_of_port (putTray_port _ _) (hostHas_shadowBaseChange has)⟩
    · exact waiting_rebased none_ dropped
    · rw [recordBase, body_hdr dropped, State.rebased, retabled_eq]
      exact base
  · rw [if_neg base]
    exact ⟨changed, hostHas_shadowBaseChange⟩

/-- A new CLIP_BASE (R67): other than 0, or with no user to answer. -/
theorem clipBaseChanged_plain {s t : State} (h : t.body = s.body)
    (plain : s.hdr.settings.clipBase ≠ 0 ∨ (s.shadow.fillingKeys .clip = [] ∧ noLookupWaits s)) :
    (clipBaseChanged t).body = (s.rebased .clip s.hdr.settings.clipBase).body
      ∧ (t.port.hostHas → (clipBaseChanged t).port.hostHas) := by
  have changed := body_shadowBaseChange (kind := .clip) (base := s.hdr.settings.clipBase) h
  unfold clipBaseChanged
  rw [body_hdr h]
  dsimp only
  by_cases base : s.hdr.settings.clipBase = 0
  · obtain ⟨filling, none_⟩ := plain.resolve_left (not_not.2 base)
    have keys : unansweredKeys .clip t = [] := unansweredKeys_nil (by rw [body_shadow h]; exact filling)
      (by rw [noLookupWaits, eq_traffic h]; exact none_)
    rw [if_pos base, keys, List.foldl_nil, serveWaiting_of_noBase (kind := .clip)]
    · exact ⟨changed, hostHas_shadowBaseChange⟩
    · exact waiting_rebased none_ changed
    · rw [recordBase, body_hdr changed, State.rebased, retabled_eq]
      exact base
  · rw [if_neg base]
    exact ⟨changed, hostHas_shadowBaseChange⟩

/-! ## The four bases -/

theorem headerMeans_base (r : Region) (w : LaneWrite) (v : Word) (s : State) :
    headerMeans (r.word + 1) w v s = takeBase r s := by
  cases r <;> rfl

theorem exec_baseCommand (r : Region) (w : LaneWrite) (s : State) :
    exec (baseCommand r w) s = .next (headerWrite (r.word + 1) w s) := by
  cases r <;> rfl

/-- A base written with a candidate that is taken up (R200). -/
theorem granted_newBase {r : Region} {w : LaneWrite} {s u : State} {base : Nat} (ready : HostReady s)
    (candidate : candidateBase r (written (r.word + 1) w s).hdr = base)
    (ok : s.hdr.settings.regionOk r base = true) (new : base ≠ s.hdr.settings.base r)
    (hdr : u.hdr.settings.base r = candidateBase r u.hdr)
    (accepted : ∀ port dirty inFlight, port.hostHas →
      let t := acceptBase r base ((written (r.word + 1) w s).traffic port dirty inFlight)
      t.body = u.body ∧ t.port.hostHas)
    (rest : executorStep u = none) (quiet : logQuiet u) : Granted (baseCommand r w) s u := by
  subst candidate
  refine granted_header (i := r.word + 1) (w := w) ready (exec_baseCommand r w s) (by cases r <;> decide)
    (fun port dirty inFlight has => ?_) rest quiet
  obtain ⟨body, has⟩ := accepted port dirty inFlight has
  have taken := takeBase_new (s := (written (r.word + 1) w s).traffic port dirty inFlight) ok new body hdr
  dsimp only
  rw [headerMeans_base, taken]
  exact ⟨body, has⟩

/-- A base written with a candidate that is kept out (R200). -/
theorem granted_keptBase {r : Region} {w : LaneWrite} {s : State} {base : Nat} (ready : HostReady s)
    (candidate : candidateBase r (written (r.word + 1) w s).hdr = base)
    (kept : s.hdr.settings.regionOk r base = false ∨ base = s.hdr.settings.base r) :
    Granted (baseCommand r w) s (State.corrected (decide (base ≠ s.hdr.settings.base r)) (r.word + 1)
      (State.corrected (decide (base ≠ s.hdr.settings.base r)) r.word (written (r.word + 1) w s))) := by
  subst candidate
  refine granted_header ready (exec_baseCommand r w s) (by cases r <;> decide : r.word + 1 < 64)
    (fun port dirty inFlight has => ?_) ?_ ?_
  · dsimp only
    rw [headerMeans_base, takeBase_kept (s := (written (r.word + 1) w s).traffic port dirty inFlight) kept]
    simp only [corrected_eq]
    exact ⟨rfl, has⟩
  · simp only [corrected_eq]
    exact executor_rest ready.2.1 ⟨rfl, rfl, rfl, rfl, rfl, rfl⟩
  · simp only [corrected_eq]
    exact ready.2.2.1

/-- A new base of a kind of record, in the words of the statements. -/
theorem tabled_eq (kind : RecKind) (base : Nat) (x : State) :
    x.rebased kind base = State.retabled (x.shadow.table.map (WatchEntry.afterBase kind base)) { x with
      shadow := { x.shadow with fetchList := x.shadow.fetchList.filter (fun i => decide
        (((x.shadow.table.map (WatchEntry.afterBase kind base))[i]?).getD .free ≠ .free)) } } := rfl

theorem sameExecutor_rebased (kind : RecKind) (base : Nat) (s : State) : SameExecutor s (s.rebased kind base) := by
  rw [State.rebased, retabled_eq]
  exact ⟨rfl, rfl, rfl, rfl, rfl, rfl⟩

/-- Settles O24: a candidate that is kept out leaves the base, and each region's block acts on one that is taken up. -/
theorem baseIsChecked : Obligations.BaseIsChecked := by
  intro r w s ready st base x table tabled
  have candidate : candidateBase r (written (r.word + 1) w s).hdr = base := candidateBase_written r w s
  have taken {u : State} (ok : st.regionOk r base = true) (new : base ≠ st.base r)
      (settings : u.hdr.settings = x.hdr.settings) (image : u.hdr.image = x.hdr.image)
      (accepted : ∀ port dirty inFlight, port.hostHas →
        let t := acceptBase r base ((written (r.word + 1) w s).traffic port dirty inFlight)
        t.body = u.body ∧ t.port.hostHas)
      (rest : executorStep u = none) (quiet : logQuiet u) : Granted (baseCommand r w) s u := by
    refine granted_newBase ready candidate ok new ?_ accepted rest quiet
    rw [settings, candidateBase, Header.imageOf, Header.imageOf, image]
    exact (withBase_base st r base).trans candidate.symm
  have rest : executorStep x = none := executor_rest ready.2.1 ⟨rfl, rfl, rfl, rfl, rfl, rfl⟩
  have curve {l : Lamp} (ok : st.regionOk .curve base = true) (new : base ≠ st.base .curve) (hr : r = .curve)
      (hl : s.lamp.recurved base = l) : Granted (.curveBase w) s { x with lamp := l } := by
    subst hr hl
    refine taken ok new rfl rfl (fun port dirty inFlight has =>
      ⟨body_curveBaseChanged (s := x) (body_settings (body_traffic port dirty inFlight _)),
        hostHas_curveBaseChanged (hostHas_of_port (port_putSettings _ _) has)⟩)
      (executor_rest rest ⟨rfl, rfl, recurved_state _ _, rfl, rfl, rfl⟩) ready.2.2.1
  refine ⟨fun kept => ?_, fun ok new => ⟨?slot, ?clip, ?curve, ?loading, ?ring⟩⟩
  · exact granted_keptBase ready candidate kept
  case slot =>
    rintro rfl plain
    change Granted _ s (x.rebased .slot base)
    refine taken ok new (by rw [State.rebased, retabled_eq]) (by rw [State.rebased, retabled_eq]) (fun port dirty inFlight has => ?_)
      (executor_rest rest (sameExecutor_rebased .slot base x)) ?_
    · obtain ⟨body, kept⟩ := slotBaseChanged_plain (s := x) (body_settings (body_traffic port dirty inFlight _)) plain
      exact ⟨body, kept (hostHas_of_port (port_putSettings _ _) has)⟩
    · rw [logQuiet, State.rebased, retabled_eq]
      exact ready.2.2.1
  case clip =>
    rintro rfl plain
    change Granted _ s (x.rebased .clip base)
    refine taken ok new (by rw [State.rebased, retabled_eq]) (by rw [State.rebased, retabled_eq]) (fun port dirty inFlight has => ?_)
      (executor_rest rest (sameExecutor_rebased .clip base x)) ?_
    · obtain ⟨body, kept⟩ := clipBaseChanged_plain (s := x) (body_settings (body_traffic port dirty inFlight _)) plain
      exact ⟨body, kept (hostHas_of_port (port_putSettings _ _) has)⟩
    · rw [logQuiet, State.rebased, retabled_eq]
      exact ready.2.2.1
  case curve =>
    rintro rfl none_
    exact curve ok new rfl (recurved_none base none_)
  case loading =>
    rintro ld rfl some_
    exact curve ok new rfl (recurved_some base some_)
  case ring =>
    rintro rfl
    exact taken ok new rfl rfl (fun port dirty inFlight has =>
        ⟨body_freshRing (body_settings (body_traffic port dirty inFlight _)),
          hostHas_freshRing (hostHas_of_port (port_putSettings _ _) has)⟩)
      (executor_rest ready.2.1 ⟨rfl, rfl, rfl, rfl, rfl, rfl⟩) (.inr (.inr rfl))

end Sys2Proof.Machine
end
section
/-! The host's other writes (R64, R96, R183, R187, R198) and the commands it triggers (R202). -/

namespace Sys2Proof.Machine

/-! ## Plain and protected writes -/

/-- A word that no other row of the table writes means nothing more to the part (R198). -/
theorem takeWord_other {i : Nat} (h : i ∉ settingWords) (v : Word) (s : State) : takeWord i v s = s := by
  unfold takeWord
  split <;> first | rfl | exact absurd (by decide) h

theorem headerMeans_other {i : BitVec 6} {w : LaneWrite} (h : otherHeaderWrite i w = true) (v : Word) (s : State) :
    headerMeans i.toNat w v s = s := by
  unfold otherHeaderWrite at h
  unfold headerMeans
  by_cases command : i = 0
  · subst command
    simp_all
  · rw [if_neg command] at h
    have number : i.toNat ≠ 0 := fun h => command (BitVec.eq_of_toNat_eq h)
    rw [if_neg number]
    exact takeWord_other (by simpa using h) v s

/-- A write into a protected area stores nothing, and latches protect (R187). -/
theorem classify_protected {a : WordAddr} {s : State} (held : s.resetHeld = false)
    (h : inStatusBlock a = true ∨ (128 ≤ a.toNat ∧ inRing s.hdr.settings a = true)) :
    classify a s = .protectedArea := by
  unfold classify
  rcases h with h | ⟨above, h⟩
  · have := h
    simp only [inStatusBlock, Bool.and_eq_true, decide_eq_true_eq] at this
    rw [if_neg (by omega), if_pos h]
  · rw [if_neg (by omega)]
    split
    · rfl
    · rw [if_pos ⟨held, h⟩]

/-- Settles O28: a plain write is only stored, and a write into a protected area only latches protect. -/
theorem plainAndProtectedWrites : Obligations.PlainAndProtectedWrites := by
  intro i a w s ready
  refine ⟨fun other => ?_, fun protected_ => ?_⟩
  · refine granted_header ready rfl i.isLt (fun port dirty inFlight has => ?_)
      (executor_rest ready.2.1 ⟨rfl, rfl, rfl, rfl, rfl, rfl⟩) ready.2.2.1
    dsimp only
    rw [headerMeans_other other]
    exact ⟨rfl, has⟩
  · have taken : hostAccess a (.write w) s = latch .protect s := by
      simp [hostAccess, takeAccess, ready.2.2.2.1, classify_protected ready.1 protected_, ready.1, latchIf]
    have body := body_latched (e := .protect) (rfl : s.body = s.body)
    have waits : (latch .protect s).port.hostWaits = false := by simp [Port.hostWaits, ready.2.2.2.1]
    refine ⟨_, rfl, ?_⟩
    rw [taken, portFinish, latch_resetHeld, ready.1, if_neg Bool.false_ne_true, body_finish ?_ ?_ (.inr waits)]
    · exact body
    · exact (executorStep_none_of_body body).2 (executor_rest ready.2.1 ⟨rfl, rfl, rfl, rfl, rfl, rfl⟩)
    · exact (logQuiet_of_body body).2 ready.2.2.1

/-! ## Watched writes (R64, R96) -/

theorem body_shadowCompare {start len : Nat} {s t : State} (h : t.body = s.body) : (shadowCompare start len t).body
    = (s.retabled (s.shadow.table.map (WatchEntry.afterWrite start len))).body := by
  have compared : (latchIf (anyTurnedStale s.shadow.table.toList
      (s.shadow.table.map (WatchEntry.afterWrite start len)).toList) .shadowStale (putShadow
        { s.shadow with table := s.shadow.table.map (WatchEntry.afterWrite start len) } t)).body
      = (s.retabled (s.shadow.table.map (WatchEntry.afterWrite start len))).body :=
    (body_latchIf (body_putShadow_of _ h)).trans rfl
  unfold shadowCompare
  rw [body_shadow h]
  dsimp only
  split
  · exact (body_withdrawShadow _).trans compared
  · exact compared

theorem hostHas_shadowCompare {start len : Nat} {s : State} (h : s.port.hostHas) :
    (shadowCompare start len s).port.hostHas := by
  have compared {b : Bool} {sh : Shadow} : (latchIf b .shadowStale (putShadow sh s)).port.hostHas :=
    hostHas_of_port (by rw [port_latchIf]; simp) h
  unfold shadowCompare
  dsimp only
  split
  · exact hostHas_withdrawShadow compared
  · exact compared

/-- The curves after a write that hits this one or not (R96). -/
def Lamp.compared (c : CurveSel) (hit : Bool) (l : Lamp) : Lamp :=
  if hit then
    (if l.loader.map (·.curve) = some c then
      { l with loader := l.loader.map fun ld => { ld with index := 0 } } else l.setDirty c true)
  else l

theorem body_compareCurve {c : CurveSel} {start len : Nat} {s t : State} (h : t.body = s.body) :
    (compareCurve c start len t).body = ({ s with
      lamp := s.lamp.compared c (overlaps start len (curveAddr s.hdr.settings.curveBase c) oneCurve) } : State).body := by
  unfold compareCurve Lamp.compared
  rw [body_hdr h, body_lamp h]
  by_cases hit : overlaps start len (curveAddr s.hdr.settings.curveBase c) oneCurve = true
  · rw [if_pos hit, if_pos hit]
    split
    · next ld found =>
      have loader : s.lamp.loader = some ld := found
      by_cases same : ld.curve = c
      · rw [if_pos same, if_pos (by rw [loader, Option.map_some, same]), body_withdrawCurve]
        refine (body_putLamp_of _ h).trans ?_
        simp [loader]
      · rw [if_neg same, if_neg (by rw [loader, Option.map_some]; exact fun h => same (Option.some.inj h))]
        exact body_putLamp_of _ h
    · next found =>
      have loader : s.lamp.loader = none := found
      rw [if_neg (by simp [loader])]
      exact body_putLamp_of _ h
  · rw [if_neg hit, if_neg hit]
    exact h

theorem hostHas_compareCurve {c : CurveSel} {start len : Nat} {s : State} (h : s.port.hostHas) :
    (compareCurve c start len s).port.hostHas := by
  unfold compareCurve
  split
  · split
    · split
      · exact hostHas_withdrawCurve (hostHas_putLamp h)
      · exact hostHas_putLamp h
    · exact hostHas_putLamp h
  · exact h

theorem hostHas_curveCompare {start len : Nat} {s : State} (h : s.port.hostHas) :
    (curveCompare start len s).port.hostHas := by
  unfold curveCompare
  split
  · exact h
  · exact hostHas_compareCurve (hostHas_compareCurve h)

/-- The curves after a watched write (R96), as the statement has them. -/
def Lamp.afterWrite (hitA hitB : Bool) (l : Lamp) : Lamp :=
  { l with
    dirtyA := l.dirtyA || (hitA && !decide (l.loader.map (·.curve) = some .a))
    dirtyB := l.dirtyB || (hitB && !decide (l.loader.map (·.curve) = some .b))
    loader := l.loader.map fun ld =>
      if (match ld.curve with | .a => hitA | .b => hitB) then { ld with index := 0 } else ld }

theorem loader_eta {l : Lamp} {o : Option Loading} (h : l.loader = o) : { l with loader := o } = l := by
  subst h
  rfl

theorem compared_compared (hitA hitB : Bool) (l : Lamp) :
    (l.compared .a hitA).compared .b hitB = l.afterWrite hitA hitB := by
  cases loader : l.loader with
  | none =>
    cases hitA <;> cases hitB <;>
      simp [Lamp.compared, Lamp.afterWrite, Lamp.setDirty, loader, loader_eta loader]
  | some ld =>
    obtain ⟨c, n⟩ := ld
    cases c <;> cases hitA <;> cases hitB <;>
      simp [Lamp.compared, Lamp.afterWrite, Lamp.setDirty, loader, loader_eta loader]

theorem body_curveCompare {start len : Nat} {s t : State} (h : t.body = s.body) : (curveCompare start len t).body =
    ({ s with lamp := (if s.hdr.settings.curveBase = 0 then s.lamp else
      s.lamp.afterWrite (overlaps start len s.hdr.settings.curveBase 66)
        (overlaps start len (s.hdr.settings.curveBase + 66) 66)) } : State).body := by
  unfold curveCompare
  rw [body_hdr h]
  by_cases base : s.hdr.settings.curveBase = 0
  · rw [if_pos base, if_pos base]
    exact h
  · rw [if_neg base, if_neg base, ← compared_compared]
    exact body_compareCurve (body_compareCurve h)

/-- Settles O27: the bytes are stored, and the Watch Table and the curves are compared with them. -/
theorem watchedWriteIsCompared : Obligations.WatchedWriteIsCompared := by
  intro a w s ready above outside b base hits loading x
  have watched : classify a s = .watched := by
    unfold classify
    rw [if_neg (by omega), if_neg (by simp [inStatusBlock]; omega), if_neg (by simp [outside])]
  refine granted_write ready rfl (by rw [watched]; decide) (fun y port dirty inFlight has ha hcls => ?_) ?_ ?_
  · have handed : handOn y w (({ s with mem := memStore s.mem a w } : State).traffic port dirty inFlight)
        = curveCompare b.1 b.2 (shadowCompare b.1 b.2
          (({ s with mem := memStore s.mem a w } : State).traffic port dirty inFlight)) := by
      unfold handOn
      rw [hcls, watched, ha]
      simp [ready.1, b]
    dsimp only
    rw [handed]
    refine ⟨?_, hostHas_curveCompare (hostHas_shadowCompare has)⟩
    refine (body_curveCompare (body_shadowCompare (body_traffic _ _ _ _))).trans ?_
    rw [retabled_eq, retabled_eq]
    rfl
  · exact executor_rest ready.2.1 (by rw [retabled_eq]; exact ⟨rfl, rfl, by dsimp only [x]; split <;> rfl, rfl, rfl, rfl⟩)
  · rw [logQuiet, retabled_eq]
    exact ready.2.2.1

/-! ## Commands triggered (R202) -/

/-- The row of a host command is a write of CMD with its code (R202). -/
theorem exec_commandOf {c : Instr} {code : Byte} {st : CmdStore} (h : commandOf c = some (code, st)) (s : State) :
    exec c s = .next (headerWrite 0 (CmdStore.write st code) s) := by
  cases c <;> simp only [commandOf, Option.some.injEq, Prod.mk.injEq, reduceCtorEq] at h <;>
    (obtain ⟨rfl, rfl⟩ := h; rfl)

theorem loByte_joinBytes (lo hi : Byte) : loByte (joinBytes lo hi) = lo := by
  exact BitVec.extractLsb'_append_eq_right ..

theorem storesLow_command (st : CmdStore) (code : Byte) : LaneWrite.storesLow (CmdStore.write st code) = true := by
  cases st <;> rfl

/-- The command code of the word that a write of CMD leaves (R202). -/
theorem loByte_command (st : CmdStore) (code : Byte) (s : State) :
    loByte (writtenWord 0 (CmdStore.write st code) s) = code := by
  cases st <;> exact loByte_joinBytes _ _

/-- A command other than STOP and RESET is accepted or rejected. -/
theorem headerMeans_command {st : CmdStore} {code : Byte} (stop : code ≠ codeStop) (reset : code ≠ codeReset)
    (s t : State) : headerMeans 0 (CmdStore.write st code) (writtenWord 0 (CmdStore.write st code) s) t
      = acceptCommand code (hiByte (writtenWord 0 (CmdStore.write st code) s)) t := by
  unfold headerMeans triggerCommand
  rw [if_pos rfl, if_pos (storesLow_command st code), loByte_command]
  simp [stop, reset]

/-- With no command pending, the executor looks at no command record (R2). -/
theorem executor_rest_record {s t : State} (rest : executorStep s = none) (pending : s.cx.pendingCmd = false)
    (completion : t.tray.completion = s.tray.completion) (cx : t.cx = s.cx) (lamp : t.lamp.state = s.lamp.state)
    (net : t.remote.netCount = s.remote.netCount) (oneShot : t.remote.oneShot = s.remote.oneShot) :
    executorStep t = none := by
  have same : executorStep { t with hdr := { t.hdr with record := s.hdr.record } } = none :=
    executor_rest rest ⟨completion, cx, lamp, net, oneShot, rfl⟩
  rw [← cx] at pending
  unfold executorStep choiceIsLampOff sourceWaiting at same ⊢
  simp only [pending, Bool.false_eq_true, if_false] at same ⊢
  revert same
  repeat' split
  all_goals simp_all

theorem body_acceptCommand {code tag : Byte} {s t : State} (h : t.body = s.body) (free : s.hdr.record.state = .free) :
    (acceptCommand code tag t).body = ({ s with hdr := { s.hdr with
      record := { state := .accepted, code := code, tag := tag
                  p1 := s.hdr.imageOf 1, p2 := s.hdr.imageOf 2, p3 := s.hdr.imageOf 3
                  abortMark := false, discardMark := false, handed := false, toLand := [] } } } : State).body := by
  rw [eq_traffic h, acceptCommand]
  refine (congrArg State.body (if_pos free)).trans ((body_putRecord _ _).trans rfl)

theorem body_rejectCommand {code tag : Byte} {s t : State} (h : t.body = s.body) (busy : s.hdr.record.state ≠ .free) :
    (acceptCommand code tag t).body
      = (State.latched .cmdReject { s with sw := { s.sw with rejectTag := tag } }).body := by
  rw [eq_traffic h, acceptCommand]
  exact (congrArg State.body (if_neg busy)).trans (body_latched rfl)

theorem port_acceptCommand (code tag : Byte) (s : State) : (acceptCommand code tag s).port = s.port := by
  unfold acceptCommand
  split
  · simp
  · simp [markDirty]

/-- Settles O10: at a FREE record the command is accepted, and at once nothing follows from it. -/
theorem commandIsAccepted : Obligations.CommandIsAccepted := by
  intro c code st s command stop reset ready pending free w
  refine granted_header ready (exec_commandOf command s) (by decide) (fun port dirty inFlight has => ?_)
    (executor_rest_record ready.2.1 pending rfl rfl rfl rfl rfl) ready.2.2.1
  dsimp only
  rw [headerMeans_command stop reset, port_acceptCommand]
  refine ⟨(body_acceptCommand (s := written 0 w s) (body_traffic _ _ _ _) free).trans ?_, has⟩
  rw [imageOf_written_ne (by decide), imageOf_written_ne (by decide), imageOf_written_ne (by decide)]

/-- Settles O11: at a record that is not FREE the command is rejected with its tag. -/
theorem commandIsRejected : Obligations.CommandIsRejected := by
  intro c code st s command stop reset ready busy w
  refine granted_header ready (exec_commandOf command s) (by decide) (fun port dirty inFlight has => ?_)
    (executor_rest ready.2.1 ⟨rfl, rfl, rfl, rfl, rfl, rfl⟩) ready.2.2.1
  dsimp only
  rw [headerMeans_command stop reset, port_acceptCommand]
  exact ⟨body_rejectCommand (body_traffic _ _ _ _) busy, has⟩

end Sys2Proof.Machine
end
section
/-! The arbiter and what a grant leaves (R192, R193), and the accesses of the host and the part that end (R185, R188,
R201, R140). -/

namespace Sys2Proof.Machine

/-! ## The grant that a write is handed on under -/

/-- The guard count, the requester in the RAM and the access of the host are as they were. -/
structure SameGrant (s t : State) : Prop where
  guard : t.port.guard = s.port.guard
  who : t.port.ram.map (·.who) = s.port.ram.map (·.who)
  access : t.port.access = s.port.access

theorem SameGrant.trans {s t u : State} (h : SameGrant s t) (k : SameGrant t u) : SameGrant s u :=
  ⟨k.guard.trans h.guard, k.who.trans h.who, k.access.trans h.access⟩

/-- What leaves the port alone leaves the grant. -/
theorem sameGrant_of_port {s t : State} (h : t.port = s.port) : SameGrant s t := by constructor <;> rw [h]

theorem sameGrant_reqs {r : Requests} {s t : State} (h : SameGrant s t) :
    SameGrant s { t with port := { t.port with reqs := r } } := ⟨h.guard, h.who, h.access⟩

theorem sameGrant_voidAccess (who : Requester) {s t : State} (h : SameGrant s t) : SameGrant s (voidAccess who t) := by
  refine h.trans ?_
  unfold voidAccess
  split
  · next a ram =>
    split
    · exact ⟨rfl, by rw [ram]; rfl, rfl⟩
    · exact sameGrant_of_port rfl
  · exact sameGrant_of_port rfl

theorem sameGrant_withdrawShadow {s t : State} (h : SameGrant s t) : SameGrant s (withdrawShadow t) :=
  sameGrant_voidAccess _ (sameGrant_reqs h)

theorem sameGrant_withdrawCurve {s t : State} (h : SameGrant s t) : SameGrant s (withdrawCurve t) :=
  sameGrant_voidAccess _ (sameGrant_reqs h)

theorem sameGrant_withdrawLog {s t : State} (h : SameGrant s t) : SameGrant s (withdrawLog t) :=
  sameGrant_voidAccess _ (sameGrant_reqs h)

theorem sameGrant_withdrawClip {s t : State} (h : SameGrant s t) : SameGrant s (withdrawClip t) :=
  sameGrant_voidAccess _ (sameGrant_reqs h)

section
variable (s : State)

theorem sameGrant_shadowBaseChange (kind : RecKind) (base : Nat) : SameGrant s (shadowBaseChange kind base s) := by
  unfold shadowBaseChange
  dsimp only
  split
  · exact sameGrant_withdrawShadow (sameGrant_of_port (by simp))
  · exact sameGrant_of_port (by simp)

theorem sameGrant_shadowCompare (start len : Nat) : SameGrant s (shadowCompare start len s) := by
  unfold shadowCompare
  dsimp only
  split
  · exact sameGrant_withdrawShadow (sameGrant_of_port (by simp))
  · exact sameGrant_of_port (by simp)

theorem sameGrant_compareCurve (c : CurveSel) (start len : Nat) : SameGrant s (compareCurve c start len s) := by
  unfold compareCurve
  split
  · split
    · split
      · exact sameGrant_withdrawCurve (sameGrant_of_port (by simp))
      · exact sameGrant_of_port (by simp)
    · exact sameGrant_of_port (by simp)
  · exact sameGrant_of_port rfl

theorem sameGrant_curveCompare (start len : Nat) : SameGrant s (curveCompare start len s) := by
  unfold curveCompare
  split
  · exact sameGrant_of_port rfl
  · exact (sameGrant_compareCurve s .a start len).trans (sameGrant_compareCurve _ .b start len)

theorem sameGrant_curveBaseChanged : SameGrant s (curveBaseChanged s) := by
  unfold curveBaseChanged
  dsimp only
  split
  · split
    · exact sameGrant_withdrawCurve (sameGrant_of_port (by simp))
    · exact sameGrant_of_port (by simp)
  · split
    · exact sameGrant_withdrawCurve (sameGrant_of_port (by simp))
    · exact sameGrant_of_port (by simp)

theorem sameGrant_freshRing : SameGrant s (freshRing s) := by
  unfold freshRing
  exact (sameGrant_withdrawLog (sameGrant_of_port rfl)).trans (sameGrant_of_port (by simp [addCorrection]))

theorem sameGrant_slotBaseChanged : SameGrant s (slotBaseChanged s) := by
  have changed := sameGrant_shadowBaseChange s .slot s.hdr.settings.slotBase
  unfold slotBaseChanged
  dsimp only
  split
  · refine changed.trans (sameGrant_of_port ?_)
    simp only [serveWaiting_frame]
    rw [foldl_frame State.port _ (fun s k => by simp)]
    simp
  · exact changed

theorem sameGrant_clipBaseChanged : SameGrant s (clipBaseChanged s) := by
  have changed := sameGrant_shadowBaseChange s .clip s.hdr.settings.clipBase
  unfold clipBaseChanged
  dsimp only
  split
  · refine changed.trans (sameGrant_of_port ?_)
    simp only [serveWaiting_frame]
    rw [foldl_frame State.port _ (fun s k => by simp)]
  · exact changed

theorem sameGrant_acceptBase (r : Region) (base : Nat) : SameGrant s (acceptBase r base s) := by
  have settings (st : Settings) : SameGrant s (putSettings st s) := sameGrant_of_port (by simp)
  cases r
  · exact (settings _).trans (sameGrant_slotBaseChanged _)
  · exact (settings _).trans (sameGrant_clipBaseChanged _)
  · exact (settings _).trans (sameGrant_curveBaseChanged _)
  · exact (settings _).trans (sameGrant_freshRing _)

theorem sameGrant_takeBase (r : Region) : SameGrant s (takeBase r s) := by
  have corrected (t : State) (h : SameGrant s t) : SameGrant s
      (if t.hdr.settings.base r = candidateBase r t.hdr then t else addCorrection (r.word + 1) (addCorrection r.word t)) := by
    split
    · exact h
    · exact h.trans (sameGrant_of_port rfl)
  unfold takeBase
  dsimp only
  split
  · exact corrected _ (sameGrant_acceptBase s r _)
  · exact corrected _ (sameGrant_of_port rfl)

theorem sameGrant_takeRingSize (v : Word) : SameGrant s (takeRingSize v s) := by
  unfold takeRingSize
  dsimp only
  split
  · exact sameGrant_of_port rfl
  · split
    · exact (sameGrant_of_port (by simp)).trans (sameGrant_freshRing _)
    · exact sameGrant_of_port rfl

theorem sameGrant_clearEvents : SameGrant s (clearEvents s) := by
  refine ⟨rfl, ?_, rfl⟩
  unfold clearEvents
  cases ram : s.port.ram <;> simp

theorem sameGrant_clipReset : SameGrant s (clipReset s) := by
  refine (sameGrant_withdrawClip (sameGrant_of_port rfl)).trans ?_
  unfold clipReset
  dsimp only
  split <;> exact sameGrant_of_port (by simp)

theorem sameGrant_shadowReset : SameGrant s (shadowReset s) :=
  sameGrant_withdrawShadow (sameGrant_of_port (by simp))

theorem sameGrant_resetCommand : SameGrant s (resetCommand s) := by
  refine (sameGrant_clearEvents s).trans ?_
  generalize reset : clearEvents s = t
  have emptied : SameGrant t (cueTrackReset (resetFocus (resetExecutor (discardRecord t)))) :=
    sameGrant_of_port (by simp)
  have cleared := (emptied.trans (sameGrant_clipReset _)).trans (sameGrant_shadowReset _)
  unfold resetCommand
  dsimp only
  rw [reset]
  exact cleared.trans (sameGrant_of_port (by simp))

theorem sameGrant_takeWord (i : Nat) (v : Word) : SameGrant s (takeWord i v s) := by
  have compared (j : Nat) {t : State} (h : SameGrant s t) : SameGrant s (compareWord j t) :=
    h.trans (sameGrant_of_port (port_compareWord j t))
  unfold takeWord
  split
  case h_16 => exact sameGrant_takeBase s .slot
  case h_17 => exact sameGrant_takeBase s .clip
  case h_18 => exact sameGrant_takeBase s .curve
  case h_19 => exact sameGrant_takeBase s .ring
  case h_20 => exact compared 32 (sameGrant_takeRingSize s v)
  case h_25 => exact sameGrant_of_port rfl
  all_goals exact compared _ (sameGrant_of_port (by simp))

theorem sameGrant_triggerCommand (v : Word) : SameGrant s (triggerCommand v s) := by
  unfold triggerCommand
  dsimp only
  split
  · exact sameGrant_of_port (by simp)
  · split
    · exact sameGrant_resetCommand s
    · exact sameGrant_of_port (port_acceptCommand _ _ s)

theorem sameGrant_evaluateHeader (i : Nat) (w : LaneWrite) : SameGrant s (evaluateHeader i w s) := by
  have imaged : SameGrant s (setImage i (LaneWrite.over w (s.hdr.imageOf i)) (cancelCorrection i s)) := by
    unfold setImage cancelCorrection withdrawHeader
    dsimp only
    split <;> exact ⟨rfl, rfl, rfl⟩
  refine imaged.trans ?_
  unfold evaluateHeader
  dsimp only
  split
  · split
    · exact sameGrant_triggerCommand _ _
    · exact sameGrant_of_port rfl
  · exact sameGrant_takeWord _ _ _

/-- Handing a write on leaves the grant that it came with (R186). -/
theorem sameGrant_handOn (x : HostAccess) (w : LaneWrite) : SameGrant s (handOn x w s) := by
  unfold handOn
  split
  · exact sameGrant_of_port rfl
  · split
    · exact sameGrant_evaluateHeader s _ w
    · exact (sameGrant_shadowCompare s _ _).trans (sameGrant_curveCompare _ _ _)
    · exact sameGrant_of_port rfl

end

/-! ## What a store leaves (R185) -/

/-- A word stored reads back, and every other byte is as it was. -/
theorem memByte_memSetWord {m : List Host.Cell} (wf : Memory.wf m = true) {n : Nat} (h : n + 1 < ramBytes) (v : Word)
    (x : Nat) : memByte (memSetWord m n v) x
      = if x = n then loByte v else if x = n + 1 then hiByte v else memByte m x := by
  unfold memSetWord
  rw [Nat.mod_eq_of_lt (by omega), Nat.mod_eq_of_lt h]
  have stored : Memory.wf (memSet m n (loByte v)) = true := wf_memSet _ wf (by omega)
  by_cases high : x = n + 1
  · subst high
    rw [if_neg (by omega), if_pos rfl]
    exact memByte_memSet_same _ _ stored
  · rw [memByte_memSet_ne _ _ high, if_neg high]
    split
    · next low =>
      subst low
      exact memByte_memSet_same _ _ wf
    · next low => exact memByte_memSet_ne _ _ low

/-- A byte stored reads back, and every other byte is as it was. -/
theorem memByte_memSet {m : List Host.Cell} (wf : Memory.wf m = true) (n : Nat) (v : Byte) (x : Nat) :
    memByte (memSet m n v) x = if x = n then v else memByte m x := by
  split
  · next same =>
    subst same
    exact memByte_memSet_same _ _ wf
  · next other => exact memByte_memSet_ne _ _ other

/-! ## The grant (R192, R193) -/

/-- The requester that is chosen waits (R192). -/
def Port.waits (p : Port) : Requester → Prop
  | .host => p.access.isSome = true
  | .statusWriter => p.reqs.statusWriter.isSome = true
  | .headerMonitor => p.reqs.headerMonitor.isSome = true
  | .logWriter => p.reqs.logWriter.isSome = true
  | .recordShadow => p.reqs.recordShadow.isSome = true
  | .curveLoader => p.reqs.curveLoader.isSome = true
  | .clipPlayer => p.reqs.clipPlayer.isSome = true

theorem waits_of_choose {p : Port} {urgent : Bool} {who : Requester} (h : choose p urgent = some who) : p.waits who := by
  have firstL : p.reqs.firstL = some who → p.waits who := by
    unfold Requests.firstL
    repeat' split
    all_goals (rintro ⟨⟩; try assumption)
  have firstF : p.reqs.firstF = some who → p.waits who := by
    unfold Requests.firstF
    repeat' split
    all_goals (rintro ⟨⟩; try assumption)
  have hostWaits (h : p.hostWaits = true) : p.waits .host := by
    unfold Port.hostWaits at h
    unfold Port.waits
    cases access : p.access <;> simp_all
  unfold choose at h
  split at h
  · next plain =>
    cases h
    exact (Bool.and_eq_true _ _ ▸ plain).1
  · split at h
    · unfold Requests.guarded at h
      split at h
      · next l first =>
        cases h
        exact firstL first
      · exact firstF h
    · split at h
      · next waits =>
        cases h
        exact hostWaits waits
      · split at h
        · exact firstL h
        · split at h
          · next clip =>
            cases h
            exact clip
          · exact firstF h

/-- A grant puts its requester in the RAM and moves the guard count (R192, R193). -/
theorem grantTo_port {who : Requester} {s : State} (waits : s.port.waits who) :
    (grantTo who s).port.ram.map (·.who) = some who ∧ (grantTo who s).port.guard = guardAfter s.port who := by
  cases who
  case host =>
    obtain ⟨x, access⟩ := Option.isSome_iff_exists.1 waits
    simp only [grantTo, grantHost, access]
    cases x.kind with
    | read => exact ⟨rfl, rfl⟩
    | write w =>
      exact ⟨(sameGrant_handOn _ x w).who, (sameGrant_handOn _ x w).guard⟩
  case statusWriter =>
    obtain ⟨i, asked⟩ := Option.isSome_iff_exists.1 waits
    simp only [grantTo, grantStatus, asked]
    exact ⟨rfl, rfl⟩
  case headerMonitor =>
    obtain ⟨i, asked⟩ := Option.isSome_iff_exists.1 waits
    simp only [grantTo, grantHeader, asked]
    exact ⟨rfl, rfl⟩
  case logWriter =>
    obtain ⟨i, asked⟩ := Option.isSome_iff_exists.1 waits
    simp only [grantTo, grantLog, asked]
    exact ⟨rfl, rfl⟩
  all_goals
    obtain ⟨i, asked⟩ := Option.isSome_iff_exists.1 waits
    simp only [grantTo, grantRead, asked]
    exact ⟨rfl, rfl⟩

/-- Who waits, as a list in the order of the classes L and F. -/
theorem lfWaits_eq_any (r : Requests) : r.lfWaits = ([(Requester.statusWriter, r.statusWriter.isSome),
    (.headerMonitor, r.headerMonitor.isSome), (.logWriter, r.logWriter.isSome)]
    ++ [(Requester.recordShadow, r.recordShadow.isSome), (.curveLoader, r.curveLoader.isSome)]).any (·.2) := by
  unfold Requests.lfWaits Requests.firstL Requests.firstF
  generalize r.statusWriter.isSome = a, r.headerMonitor.isSome = b, r.logWriter.isSome = c,
    r.recordShadow.isSome = d, r.curveLoader.isSome = e
  revert a b c d e
  decide

/-- The arbiter's order as a list (R192): the first that waits is granted. -/
theorem choose_eq_find (p : Port) (urgent : Bool) :
    let r := p.reqs
    let classL := [(Requester.statusWriter, r.statusWriter.isSome), (.headerMonitor, r.headerMonitor.isSome),
      (.logWriter, r.logWriter.isSome)]
    let classF := [(Requester.recordShadow, r.recordShadow.isSome), (.curveLoader, r.curveLoader.isSome)]
    let atGuard (l : List (Requester × Bool)) := l.map fun e => (e.1, e.2 && decide (p.guard = 8))
    let order := (Requester.clipPlayer, r.clipPlayer.isSome && urgent) :: (atGuard classL ++ (atGuard classF ++
      ((.host, p.hostWaits) :: (classL ++ ((.clipPlayer, r.clipPlayer.isSome) :: classF)))))
    choose p urgent = (order.find? (·.2)).map (·.1) := by
  unfold choose Requests.lfWaits Requests.guarded Requests.firstL Requests.firstF
  dsimp only
  generalize p.reqs.statusWriter.isSome = a, p.reqs.headerMonitor.isSome = b, p.reqs.logWriter.isSome = c,
    p.reqs.recordShadow.isSome = d, p.reqs.curveLoader.isSome = e, p.reqs.clipPlayer.isSome = f,
    decide (p.guard = 8) = g, p.hostWaits = h
  revert a b c d e f g h urgent
  decide

/-- Settles O29: the bytes of a store, the arbiter's order, the guard count, and the grant. -/
theorem storeChangesItsBytesOnly : Obligations.StoreChangesItsBytesOnly := by
  intro m a w x p urgent s who k
  refine ⟨fun wf => ?store, ⟨?order, ?host, rfl, ?others⟩, fun h => ?none_, fun h => ?some_, fun ram chosen => ?granted, fun h => ?kept⟩
  case store =>
    have ha := a.isLt
    cases w with
    | word v => exact memByte_memSetWord wf (by unfold ramBytes; omega) v x
    | low v => exact memByte_memSet wf _ v x
    | high v => exact memByte_memSet wf _ v x
  case order => exact choose_eq_find p urgent
  case host => rw [guardAfter, lfWaits_eq_any]
  case others =>
    intro host clip
    cases who <;> first | rfl | exact absurd rfl host | exact absurd rfl clip
  case none_ => rw [Port.hostWaits, h]
  case some_ => rw [Port.hostWaits, h]
  case granted =>
    unfold grant
    rw [ram, chosen]
    exact grantTo_port (waits_of_choose chosen)
  case kept =>
    unfold grant
    split
    · rfl
    · next ram => rw [h.resolve_left (not_not.2 ram)]

/-! ## Reads of the host (R185, R188, R209) -/

/-- At rest, the end of a step grants at most an access of the part. -/
theorem port_finish {s : State} (rest : executorStep s = none) (quiet : logQuiet s) (waits : s.port.hostWaits = false) :
    (finish s).port.access = s.port.access ∧ (finish s).port.readData = s.port.readData := by
  have asked := onlyAsked_after rest quiet
  have waits' : (after s).port.hostWaits = false := (hostWaits_congr asked.access).trans waits
  have granted : (grant (after s)).port.access = (after s).port.access
      ∧ (grant (after s)).port.readData = (after s).port.readData := by
    unfold grant
    split
    · exact ⟨rfl, rfl⟩
    · split
      · next who chosen =>
        have host : who ≠ .host := fun h => choose_ne_host waits' (h ▸ chosen)
        cases who <;> simp only [grantTo, grantStatus, grantHeader, grantLog, grantRead] <;>
          first
          | exact absurd rfl host
          | (split <;> exact ⟨rfl, rfl⟩)
      · exact ⟨rfl, rfl⟩
  have body := (body_grant (.inr waits')).trans asked.body
  have again := onlyAsked_after ((executorStep_none_of_body body).2 rest) ((logQuiet_of_body body).2 quiet)
  unfold finish
  rw [again.access, again.readData, granted.1, granted.2, asked.access, asked.readData]
  exact ⟨rfl, rfl⟩

/-- A read that waits while the RAM is busy (R185). -/
theorem read_waits {addr : WordAddr} {s : State} {r : RamAccess} (settled : Settled s) (free : s.port.access = none)
    (busy : s.port.ram = some r) :
    let t := portFinish (hostAccess addr .read s)
    t.body = s.body ∧ t.waitLine = true ∧ t.port.ram = some r := by
  let u : State := { s with port := { s.port with
    access := some { addr := addr, kind := .read, cls := .read, inRam := false } } }
  have taken : hostAccess addr .read s = u := by simp [hostAccess, takeAccess, free, u]
  have rest : executorStep u = none := executor_rest settled.2.1 ⟨rfl, rfl, rfl, rfl, rfl, rfl⟩
  have asked := onlyAsked_after rest settled.2.2.1
  have kept : grant (after u) = after u := by
    unfold grant
    rw [asked.ram, show u.port.ram = some r from busy]
  have again := onlyAsked_after ((executorStep_none_of_body asked.body).2 rest)
    ((logQuiet_of_body asked.body).2 settled.2.2.1)
  dsimp only
  rw [taken, portFinish, show u.resetHeld = false from settled.1, if_neg Bool.false_ne_true, finish, kept]
  refine ⟨again.body.trans asked.body, ?_, ?_⟩
  · rw [State.waitLine, again.access, asked.access]
    rfl
  · rw [again.ram, asked.ram]
    exact busy

/-- The end of the host's access, with none kept behind it (R185): what its notice left is left, and the host holds none. -/
theorem returns_accessEnd {s u : State} {w : Word} (settled : Settled s)
    (ended : (endHostAccess s).body = u.body) (access : (endHostAccess s).port.access = none)
    (data : (endHostAccess s).port.readData = w) (same : SameExecutor s u)
    (log : u.log = s.log) (ring : u.hdr.settings.ringBase = s.hdr.settings.ringBase) (held : u.resetHeld = s.resetHeld) :
    Returns .hostAccessEnd s u w := by
  have rest : executorStep (endHostAccess s) = none :=
    (executorStep_none_of_body ended).2 (executor_rest settled.2.1 same)
  have quiet : logQuiet (endHostAccess s) := (logQuiet_of_body ended).2 (by
    rw [logQuiet, log, ring]
    exact settled.2.2.1)
  have waits : (endHostAccess s).port.hostWaits = false := by rw [Port.hostWaits, access]
  have port := port_finish rest quiet waits
  have live_ : (endHostAccess s).resetHeld = false := by rw [body_resetHeld ended, held, settled.1]
  refine ⟨_, rfl, ?_, ?_, ?_⟩ <;> rw [portFinish, live_, if_neg Bool.false_ne_true]
  · exact (body_finish rest quiet (.inr waits)).trans ended
  · exact port.1.trans access
  · exact port.2.trans data

theorem and_not_of_and_eq_zero {x y : Word} (h : x &&& y = 0) : x &&& ~~~y = x := by
  ext i small
  have bit := congrArg (fun w : Word => w[i]) h
  simp only [BitVec.getElem_and, BitVec.getElem_not] at bit ⊢
  cases hx : x[i] <;> simp_all

/-- The notice of an EVENTS read (R209): the latches shown are cleared. -/
theorem eventsNotice_eq (s : State) : (eventsNotice s).body = ({ s with sw := { s.sw with
    latches := s.sw.latches &&& ~~~((s.sw.copy[2]?).getD 0) } } : State).body ∧ (eventsNotice s).port = s.port := by
  unfold eventsNotice
  dsimp only
  split
  · next none_ =>
    rw [and_not_of_and_eq_zero none_]
    exact ⟨rfl, rfl⟩
  · refine ⟨?_, by simp [markDirty]⟩
    rw [body_markDirty, body_markDirty, body_markIf]

/-- The notice of a STATUS read (R209): IRQ pending is cleared when neither STATUS nor EVENTS is dirty. -/
theorem statusNotice_eq (s : State) : (statusNotice s).body = ({ s with sw := { s.sw with
    irqPending := s.sw.irqPending && (s.sw.dirty.contains 0 || s.sw.dirty.contains 2) } } : State).body
      ∧ (statusNotice s).port = s.port := by
  unfold statusNotice
  split
  · next waits =>
    rw [waits, Bool.and_true]
    exact ⟨rfl, rfl⟩
  · next shown =>
    rw [Bool.eq_false_iff.2 shown, Bool.and_false]
    exact ⟨rfl, rfl⟩

/-- A word has been returned to the host, whose access has ended (R185). -/
def State.wordReturned (w : Word) (s : State) : State :=
  { s with port := { s.port with access := none, ram := none, readData := w } }

theorem readNotice_status {addr : WordAddr} {s : State} (held : s.resetHeld = false) (h : addr.toNat = 64) {w : Word} :
    readNotice addr (s.wordReturned w) = statusNotice (s.wordReturned w) := by
  simp [readNotice, State.wordReturned, held, h]

theorem readNotice_events {addr : WordAddr} {s : State} (held : s.resetHeld = false) (h : addr.toNat = 66) {w : Word} :
    readNotice addr (s.wordReturned w) = eventsNotice (s.wordReturned w) := by
  simp [readNotice, State.wordReturned, held, h]

theorem readNotice_other {addr : WordAddr} {s : State} (status : addr.toNat ≠ 64) (events : addr.toNat ≠ 66) :
    readNotice addr s = s := by
  simp [readNotice, status, events]

theorem readNotice_port (addr : WordAddr) (s : State) : (readNotice addr s).port = s.port := by
  unfold readNotice
  split
  · rfl
  · split
    · exact (statusNotice_eq s).2
    · split
      · exact (eventsNotice_eq s).2
      · rfl

/-- Settles O30: a read is granted or waits, and its end gives the notice of its word. -/
theorem readsAndTheirNotices : Obligations.ReadsAndTheirNotices := by
  intro s a r w addr
  refine ⟨fun ready => ⟨?_, ?_, ?_⟩, fun settled free busy => ?_, fun settled access inRam ram who backlog => ?_⟩
  · obtain ⟨body, has, got⟩ := read_granted (a := statusAddr) ready
    exact ⟨⟨_, rfl, body, has.ram, has.access⟩, _, rfl, got⟩
  · obtain ⟨body, has, got⟩ := read_granted (a := eventsAddr) ready
    exact ⟨⟨_, rfl, body, has.ram, has.access⟩, _, rfl, got⟩
  · obtain ⟨body, has, got⟩ := read_granted (a := addr) ready
    exact ⟨⟨_, rfl, body, has.ram, has.access⟩, _, rfl, got⟩
  · obtain ⟨body, wait, kept⟩ := read_waits (addr := addr) settled free busy
    exact ⟨⟨_, rfl, body⟩, _, rfl, wait, kept⟩
  · have ended {u : State} {d : Word} {t : State} (ht : endHostAccess s = startKept [] t) (body : t.body = u.body)
        (gone : t.port.access = none) (data : t.port.readData = d) (same : SameExecutor s u) (log : u.log = s.log)
        (ring : u.hdr.settings.ringBase = s.hdr.settings.ringBase) (held : u.resetHeld = s.resetHeld) :
        Returns .hostAccessEnd s u d :=
      returns_accessEnd settled (by rw [ht]; exact body) (by rw [ht]; exact gone) (by rw [ht]; exact data) same log ring
        held
    have read (kind : a.kind = .read) : endHostAccess s = startKept [] (readNotice a.addr (s.wordReturned r.data)) := by
      have none_ : (readNotice a.addr (s.wordReturned r.data)).port.backlog = [] := by
        rw [readNotice_port]
        exact backlog
      rw [← none_]
      simp [endHostAccess, access, ram, inRam, who, kind, State.wordReturned]
    refine ⟨fun kind status => ?_, fun kind events => ?_, fun kind status events => ?_, fun kind => ?_⟩
    · obtain ⟨body, port⟩ := statusNotice_eq (s.wordReturned r.data)
      rw [← readNotice_status settled.1 status] at body port
      exact ended (read kind) body (by rw [port]; rfl) (by rw [port]; rfl) ⟨rfl, rfl, rfl, rfl, rfl, rfl⟩ rfl rfl rfl
    · obtain ⟨body, port⟩ := eventsNotice_eq (s.wordReturned r.data)
      rw [← readNotice_events settled.1 events] at body port
      exact ended (read kind) body (by rw [port]; rfl) (by rw [port]; rfl) ⟨rfl, rfl, rfl, rfl, rfl, rfl⟩ rfl rfl rfl
    · have none_ := readNotice_other (s := s.wordReturned r.data) status events
      exact ended (read kind) (by rw [none_]; rfl) (by rw [none_]; rfl) (by rw [none_]; rfl)
        ⟨rfl, rfl, rfl, rfl, rfl, rfl⟩ rfl rfl rfl
    · exact ended (t := { s with port := { s.port with access := none, ram := none } })
        (by simp [endHostAccess, access, ram, inRam, who, kind, backlog]) rfl rfl rfl ⟨rfl, rfl, rfl, rfl, rfl, rfl⟩
        rfl rfl rfl

end Sys2Proof.Machine
end
section
/-! What comes about at once with an event (R2, R140): the executor's course and the Log Writer's next record, and the end
of a step in which they act. -/

namespace Sys2Proof.Machine

/-! ## The end of a step in which something comes about -/

/-- What comes about at once: the executor goes on until it waits, and then the Log Writer takes what it can. -/
def courses (s : State) : State := logPump 5 (settle 40 s)

/-- Nothing more comes about at once, and no access of the host is granted. -/
structure Resting (s : State) : Prop where
  executor : executorStep s = none
  quiet : logQuiet s
  waits : s.port.hostWaits = false

/-- **The end of a step**: it leaves what has come about at once, once that rests. -/
theorem body_finish_courses {s : State} (rest : Resting (courses s)) : (finish s).body = (courses s).body := by
  have asked : OnlyAsked (courses s) (after s) := onlyAsked_present _
  have granted : (grant (after s)).body = (courses s).body :=
    (body_grant (.inr ((hostWaits_congr asked.access).trans rest.waits))).trans asked.body
  have again := onlyAsked_after ((executorStep_none_of_body granted).2 rest.executor)
    ((logQuiet_of_body granted).2 rest.quiet)
  exact again.body.trans granted

theorem resting_of_body {s t : State} (h : t.body = s.body) (executor : executorStep s = none) (quiet : logQuiet s)
    (waits : t.port.hostWaits = false) : Resting t :=
  ⟨(executorStep_none_of_body h).2 executor, (logQuiet_of_body h).2 quiet, waits⟩

/-- **An event** whose course has come to rest leaves its body. -/
theorem ends_courses {c : Instr} {f : State → State} {s u : State} (hc : exec c s = .next (live f s))
    (held : s.resetHeld = false) (body : (courses (f s)).body = u.body) (executor : executorStep u = none)
    (quiet : logQuiet u) (waits : (courses (f s)).port.hostWaits = false) : Ends c s u := by
  refine ⟨_, hc, ?_⟩
  rw [live, if_neg (by simp [held]), body_finish_courses (resting_of_body body executor quiet waits)]
  exact body

theorem settle_step {n : Nat} {s t : State} (h : executorStep s = some t) : settle (n + 1) s = settle n t := by
  rw [settle, h]

theorem courses_of_rest {s : State} (executor : executorStep s = none) (quiet : logQuiet s) : courses s = s := by
  rw [courses, settle_of_none 40 executor, logPump_of_quiet 5 quiet]

/-- **An event at rest**: nothing comes about with it, and it leaves the body of what it does. -/
theorem ends_live {c : Instr} {f : State → State} {s u : State} (settled : Settled s)
    (hc : exec c s = .next (live f s)) (body : (f s).body = u.body) (executor : executorStep u = none)
    (quiet : logQuiet u) (access : (f s).port.access = s.port.access) : Ends c s u := by
  have rest := courses_of_rest ((executorStep_none_of_body body).2 executor) ((logQuiet_of_body body).2 quiet)
  refine ends_courses hc settled.1 (by rw [rest]; exact body) executor quiet ?_
  rw [rest, hostWaits_congr access]
  exact settled.2.2.2

/-! ## The Log Writer (R139, R140) -/

theorem body_putLog_of (l : LogWriter) {s t : State} (h : t.body = s.body) :
    (putLog l t).body = ({ s with log := l } : State).body := by
  rw [body_putLog, h]
  rfl

/-- An IDLE Log Writer takes the first record that the ring has room for. -/
theorem logPump_takes {n : Nat} {s : State} {r : LogRecord} {rest : List LogRecord} (ring : s.hdr.settings.ringBase ≠ 0)
    (idle : s.log.writing = none) (staged : s.log.staging = r :: rest)
    (room : (s.log.w + 1) % s.hdr.settings.ringSize ≠ s.log.rd) :
    logPump (n + 1) s = putLog { s.log with writing := some 0 } s := by
  rw [logPump, if_neg (by simp [ring, idle])]
  simp only [staged, if_neg room]

/-- With the ring full it drops the record, and looks at the next. -/
theorem logPump_drops {n : Nat} {s : State} {r : LogRecord} {rest : List LogRecord} (ring : s.hdr.settings.ringBase ≠ 0)
    (idle : s.log.writing = none) (staged : s.log.staging = r :: rest)
    (full : (s.log.w + 1) % s.hdr.settings.ringSize = s.log.rd) :
    logPump (n + 1) s = logPump n (latch .cueFault
      (putLog { s.log with staging := rest, overflow := countUp s.log.overflow } s)) := by
  rw [logPump, if_neg (by simp [ring, idle])]
  simp only [staged, if_pos full]

/-- A logged record is being written. -/
theorem logged_eq {r : LogRecord} {s : State} (ring : s.hdr.settings.ringBase ≠ 0) : s.logged r = { s with
    log := { s.log with staging := s.log.staging ++ [r], writing := some (s.log.writing.getD 0) } } := by
  rw [State.logged, if_neg ring]

theorem logged_noRing {r : LogRecord} {s : State} (ring : s.hdr.settings.ringBase = 0) : s.logged r = s := by
  rw [State.logged, if_pos ring]

theorem logQuiet_logged {r : LogRecord} {s : State} : logQuiet (s.logged r) := by
  by_cases ring : s.hdr.settings.ringBase = 0
  · rw [logged_noRing ring]
    exact .inl ring
  · rw [logged_eq ring]
    exact .inr (.inl rfl)

/-- A record handed over with room for it is staged, and an IDLE Log Writer takes it at once. -/
theorem body_logPump_handLog {n : Nat} {r : LogRecord} {s t : State} (h : t.body = s.body) (room : logRoom s) :
    (logPump (n + 1) (handLog r t)).body = (s.logged r).body := by
  by_cases ring : s.hdr.settings.ringBase = 0
  · have discarded : handLog r t = t := by rw [handLog, if_pos (by rw [body_hdr h]; exact ring)]
    rw [discarded, logPump_of_quiet _ ((logQuiet_of_body h).2 (.inl ring)), logged_noRing ring]
    exact h
  · have small : s.log.staging.length < 4 := by
      rcases room with none_ | ⟨small, _⟩ | ⟨empty, _⟩
      · exact absurd none_ ring
      · exact small
      · rw [empty]
        decide
    have staged : (handLog r t).body
        = ({ s with log := { s.log with staging := s.log.staging ++ [r] } } : State).body := by
      rw [handLog, if_neg (by rw [body_hdr h]; exact ring), if_pos (by rw [body_log h]; exact small), body_log h]
      exact body_putLog_of _ h
    rw [logged_eq ring]
    cases writing : s.log.writing with
    | some k =>
      rw [logPump_of_quiet _ ((logQuiet_of_body staged).2 (.inr (.inl (by rw [writing]; rfl))))]
      refine staged.trans ?_
      rw [Option.getD_some, ← writing]
    | none =>
      obtain ⟨empty, space⟩ := (room.resolve_left ring).resolve_left (by simp [writing])
      rw [logPump_takes (r := r) (rest := []) (by rw [body_hdr staged]; exact ring) (by rw [body_log staged]; exact writing)
        (by rw [body_log staged, empty]; rfl) (by rw [body_hdr staged, body_log staged]; exact space), body_log staged]
      exact (body_putLog_of _ staged).trans rfl

theorem port_logPump (n : Nat) (s : State) : (logPump n s).port = s.port := by
  induction n generalizing s with
  | zero => rfl
  | succ n ih =>
    unfold logPump
    split
    · rfl
    · split
      · rfl
      · split
        · rw [ih]
          simp
        · simp

/-! ## Landings of the Header Monitor and the Log Writer (R201, R140) -/

theorem body_landWord (a : RamAccess) (s : State) :
    (landWord a s).body = ({ s with mem := memSetWord s.mem a.addr a.data } : State).body := rfl

theorem inRamOf_eq {p : Port} {a : RamAccess} {who : Requester} (ram : p.ram = some a) (h : a.who = who) :
    p.inRamOf who = some a := by
  rw [Port.inRamOf, ram]
  exact if_pos h

theorem endLogWrite_void {s : State} {a : RamAccess} (ram : s.port.ram = some a) (who : a.who = .logWriter)
    (void : a.void = true) : endLogWrite s = landWord a s := by
  rw [endLogWrite, inRamOf_eq ram who]
  exact if_pos void

theorem endLogWrite_landed {s : State} {a : RamAccess} (ram : s.port.ram = some a) (who : a.who = .logWriter)
    (void : a.void = false) : endLogWrite s = logLanded (landWord a s) := by
  rw [endLogWrite, inRamOf_eq ram who]
  exact if_neg (by simp [void])

/-- The writer's last word lands (R140): W has advanced, and the record has left the buffer. -/
def LogWriter.wrote (size : Nat) (l : LogWriter) : LogWriter :=
  { l with
    writing := none, staging := l.staging.drop 1, w := (l.w + 1) % size, rd := l.pendingRd.getD l.rd, pendingRd := none }

theorem body_logLanded_next {s t : State} {k : Nat} (h : t.body = s.body) (writing : s.log.writing = some k)
    (small : k < 3) : (logLanded t).body = ({ s with log := { s.log with writing := some (k + 1) } } : State).body := by
  rw [logLanded, body_log h, writing]
  simp only [small, if_true]
  exact body_putLog_of _ h

theorem body_logLanded_last {s t : State} (h : t.body = s.body) (writing : s.log.writing = some 3) :
    (logLanded t).body = ({ s with log := s.log.wrote s.hdr.settings.ringSize } : State).body := by
  rw [logLanded, body_log h, body_hdr h, writing]
  exact body_putLog_of _ h

theorem port_logLanded (s : State) : (logLanded s).port.access = s.port.access := by
  unfold logLanded
  split
  · split <;> simp
  · rfl

/-- An event that only the Log Writer's course follows. -/
theorem ends_logPump {c : Instr} {f : State → State} {s t u : State} (settled : Settled s)
    (hc : exec c s = .next (live f s)) (body : (f s).body = t.body) (same : SameExecutor s t)
    (pumped : ∀ v : State, v.body = t.body → (logPump 5 v).body = u.body) (same' : SameExecutor s u) (quiet : logQuiet u)
    (access : (f s).port.access = s.port.access) : Ends c s u := by
  have rest := (executorStep_none_of_body body).2 (executor_rest settled.2.1 same)
  have course : courses (f s) = logPump 5 (f s) := by rw [courses, settle_of_none 40 rest]
  refine ends_courses hc settled.1 (by rw [course]; exact pumped _ body) (executor_rest settled.2.1 same') quiet ?_
  rw [course, port_logPump, hostWaits_congr access]
  exact settled.2.2.2

theorem words_getD (values : List Nat) (k : Nat) : (values.map wordOf).getD k 0 = BitVec.ofNat 16 (values.getD k 0) := by
  rw [List.getD_eq_getElem?_getD, List.getD_eq_getElem?_getD, List.getElem?_map]
  cases values[k]? <;> rfl

/-- Settles O31: a corrective write and a word of a record land, and the next record is taken or dropped. -/
theorem correctionsAndLogWordsLand : Obligations.CorrectionsAndLogWordsLand := by
  intro s a k done next rest settled ram m w rd full idle
  have last_ (void : a.void = false) (who : a.who = .logWriter) (writing : s.log.writing = some 3) :
      (endLogWrite s).body = ({ s with mem := m, log := s.log.wrote s.hdr.settings.ringSize } : State).body := by
    rw [endLogWrite_landed ram who void]
    exact body_logLanded_last (s := { s with mem := m }) (body_landWord a s) writing
  have access (void : a.void = false) (who : a.who = .logWriter) : (endLogWrite s).port.access = s.port.access := by
    rw [endLogWrite_landed ram who void, port_logLanded]
    rfl
  refine ⟨fun who => ?_, fun writing staged small => ?_, fun who void => ?_, fun who void writing small => ?_,
    fun who void writing last => ⟨fun alone => ?_, fun ring staged room => ?_, fun ring staged full_ => ?_⟩⟩
  · refine ends_live settled rfl ?_ (executor_rest settled.2.1 ⟨rfl, rfl, rfl, rfl, rfl, rfl⟩) settled.2.2.1 ?_ <;>
      (rw [endCorrection, inRamOf_eq ram who]; rfl)
  · intro flag causeOf words
    have flagged (b : Bool) (v : Nat) : v * flagNat b = flag b v := by cases b <;> simp [flagNat, flag]
    have values : done.words = words.map wordOf := by
      cases done with
      | cue f u kind p time => simp [LogRecord.words, words, flagged]
      | foreign injected u kind p time => simp [LogRecord.words, words, flagged]
      | frameError cause count time => cases cause <;> simp [LogRecord.words, words, causeOf, FrameCause.num, wordOf]
      | execFail injected kind code time => simp [LogRecord.words, words, flagged]
    rw [nextLogWord, writing, staged]
    dsimp only
    rw [if_pos small, values, words_getD]
  · refine ends_live settled rfl (by rw [endLogWrite_void ram who void]; rfl)
      (executor_rest settled.2.1 ⟨rfl, rfl, rfl, rfl, rfl, rfl⟩) settled.2.2.1
      (by rw [endLogWrite_void ram who void]; rfl)
  · refine ends_live settled rfl ?_ (executor_rest settled.2.1 ⟨rfl, rfl, rfl, rfl, rfl, rfl⟩) (.inr (.inl rfl))
      (access void who)
    rw [endLogWrite_landed ram who void]
    exact body_logLanded_next (s := { s with mem := m }) (body_landWord a s) writing small
  · subst last
    have empty : s.log.staging.drop 1 = [] := List.drop_eq_nil_of_le alone
    refine ends_live settled rfl ((last_ void who writing).trans ?_)
      (executor_rest settled.2.1 ⟨rfl, rfl, rfl, rfl, rfl, rfl⟩) (.inr (.inr rfl)) (access void who)
    rw [LogWriter.wrote, empty]
  · subst last
    refine ends_logPump settled rfl (last_ void who writing) ⟨rfl, rfl, rfl, rfl, rfl, rfl⟩ (fun v hv => ?_)
      ⟨rfl, rfl, rfl, rfl, rfl, rfl⟩ (.inr (.inl rfl)) (access void who)
    rw [logPump_takes (r := next) (rest := rest) (by rw [body_hdr hv]; exact ring) (by rw [body_log hv]; rfl)
      (by rw [body_log hv, LogWriter.wrote, staged]; rfl) (by rw [body_hdr hv, body_log hv]; exact room), body_log hv]
    refine (body_putLog_of _ hv).trans ?_
    rw [LogWriter.wrote, staged]
    rfl
  · subst last
    refine ends_logPump settled rfl (last_ void who writing) ⟨rfl, rfl, rfl, rfl, rfl, rfl⟩ (fun v hv => ?_)
      ⟨rfl, rfl, rfl, rfl, rfl, rfl⟩ (.inr (.inr rfl)) (access void who)
    rw [logPump_drops (r := next) (rest := []) (by rw [body_hdr hv]; exact ring) (by rw [body_log hv]; rfl)
      (by rw [body_log hv, LogWriter.wrote, staged]; rfl) (by rw [body_hdr hv, body_log hv]; exact full_), body_log hv]
    have dropped := body_latched (e := .cueFault) (body_putLog_of
      { s.log.wrote s.hdr.settings.ringSize with staging := [], overflow := countUp s.log.overflow } hv)
    refine (congrArg State.body (logPump_of_quiet 4 ?_)).trans (dropped.trans rfl)
    exact (logQuiet_of_body dropped).2 (.inr (.inr rfl))

end Sys2Proof.Machine
end
section
/-! What the executor's ending of an action leaves (R1, R22), and what the Thermal Controller and the lamp decide together
(R87, R90, R107 to R118): one lemma for each operation, up to the traffic on the RAM. -/

namespace Sys2Proof.Machine

/-! ## The executor at rest -/

/-- With no action and no source the executor waits (R2). -/
theorem executorStep_idle {s : State} (completion : s.tray.completion = none) (idle : s.cx.action = none)
    (sources : noSource s) : executorStep s = none := by
  obtain ⟨pending, queue, net, oneShot⟩ := sources
  simp [executorStep, completion, idle, sourceWaiting, pending, queue, net, oneShot]

/-- With an action that waits for no lamp it waits too (R1). -/
theorem executorStep_busy {s : State} {x : Action} (completion : s.tray.completion = none)
    (action : s.cx.action = some x) (phase : x.phase ≠ .warming) : executorStep s = none := by
  simp [executorStep, completion, action, Action.waitsForLamp, phase]

theorem completion_of_rest {s : State} (rest : executorStep s = none) : s.tray.completion = none := by
  cases h : s.tray.completion with
  | none => rfl
  | some c => simp [executorStep, h] at rest

/-- With no LAMP on under way the lamp's state is nothing to the executor (R2, R17). -/
theorem executor_rest_lamp {s t : State} (rest : executorStep s = none) (noLamp : noLampOn s)
    (completion : t.tray.completion = s.tray.completion) (cx : t.cx = s.cx)
    (net : t.remote.netCount = s.remote.netCount) (oneShot : t.remote.oneShot = s.remote.oneShot) :
    executorStep t = none := by
  have none_ := completion_of_rest rest
  cases action : s.cx.action with
  | some x =>
    exact executorStep_busy (completion.trans none_) (by rw [cx]; exact action) (noLamp x (by rw [action]; rfl))
  | none =>
    unfold executorStep at rest ⊢
    rw [none_, action] at rest
    rw [completion, none_, cx, action]
    simpa [sourceWaiting, cx, net, oneShot] using rest

/-- One thing that comes about, after which the executor waits. -/
theorem courses_step {s t : State} (step : executorStep s = some t) (rest : executorStep t = none) :
    courses s = logPump 5 t := by
  rw [courses, settle_step step, settle_of_none 39 rest]

/-! ## An action ended (R1, R22) -/

theorem body_putCx_of {c : CueExecutor} {s t : State} (h : t.body = s.body)
    (queue : c.queue.length = s.cx.queue.length) : (putCx c t).body = ({ s with cx := c } : State).body := by
  have deck : (putCx c t).deck = t.deck := by
    simp [putCx, body_cx h, queue]
  rw [body_putCx, deck, body_deck h, h]
  rfl

theorem body_closeWindow {s t : State} (h : t.body = s.body) : (closeWindow t).body = ({ s with
    lamp := if s.lamp.window = true then { s.lamp with window := false, darkOwed := false, darkSent := false }
      else s.lamp } : State).body := by
  unfold closeWindow
  rw [body_lamp h]
  split
  · exact body_putLamp_of _ h
  · exact h

theorem body_orphanRamps {s t : State} (h : t.body = s.body) : (orphanRamps t).body = ({ s with
    lamp := { s.lamp with rampDone := s.lamp.rampDone.map (fun d => { d with byAction := false }) } } : State).body := by
  unfold orphanRamps
  rw [body_lamp h]
  exact body_putLamp_of _ h

theorem body_putRecord_of (r : CommandRecord) {s t : State} (h : t.body = s.body) :
    (putRecord r t).body = ({ s with hdr := { s.hdr with record := r } } : State).body := by
  rw [body_putRecord, h, body_hdr h]
  rfl

theorem body_result {tag : Byte} {code : ResultCode} {remaining lastSlot : Nat} {s t : State} (h : t.body = s.body) :
    ({ t with sw := { t.sw with
      resultTag := tag, resultCode := code, remaining := remaining, lastSlot := lastSlot } } : State).body
      = ({ s with sw := { s.sw with
        resultTag := tag, resultCode := code, remaining := remaining, lastSlot := lastSlot } } : State).body := by
  rw [eq_traffic h]
  rfl

theorem body_endCommand {code : ResultCode} {remaining lastSlot : Nat} {s t : State} (h : t.body = s.body)
    (active : s.hdr.record.state = .active) :
    (endCommand code remaining lastSlot t).body = (s.ended code remaining lastSlot).body := by
  rw [eq_traffic h]
  unfold endCommand
  exact (congrArg State.body (if_pos active)).trans (body_result (body_putRecord_of
    { s.hdr.record with state := .closing, handed := true, toLand := [3, 4, 5] } (body_traffic _ _ _ _)))

/-- A result posted by the source of an action (R22). -/
def State.posted (x : Action) (code : ResultCode) (values : Nat × Nat) (s : State) : State :=
  match x.source with
  | .command _ => if x.silent then s else s.ended code values.1 values.2
  | .remote => s
  | .tape time => if code = .ok then s else s.logged (.execFail false x.request.cueKind code time)
  | .injected => if code = .ok then s else s.logged (.execFail true x.request.cueKind code 0)

/-- The action is over: its window is closed, and the completion events on their way belong to no action (R1, R20). -/
def State.unheld (x : Action) (s : State) : State :=
  { s with
    cx := { s.cx with action := none }
    lamp := { s.lamp.windowShut x with
      rampDone := (s.lamp.windowShut x).rampDone.map (fun d => { d with byAction := false }) } }

theorem actionEnded_eq (x : Action) (code : ResultCode) (values : Nat × Nat) (s : State) :
    s.actionEnded x code values = (s.unheld x).posted x code values := rfl

theorem ended_log (code : ResultCode) (remaining lastSlot : Nat) (s : State) :
    (s.ended code remaining lastSlot).log = s.log := rfl

/-- A result posted, with room for its record, and what the Log Writer then takes. -/
theorem body_logPump_postResult {n : Nat} {x : Action} {code : ResultCode} {remaining lastSlot : Nat} {s t : State}
    (h : t.body = s.body) (quiet : logQuiet s) (room : logRoom s)
    (active : x.source.isCommand = true → s.hdr.record.state = .active) :
    (logPump (n + 1) (postResult x.request x.source x.silent code remaining lastSlot t)).body
      = (s.posted x code (remaining, lastSlot)).body := by
  have still : (logPump (n + 1) t).body = s.body := by
    rw [logPump_of_quiet _ ((logQuiet_of_body h).2 quiet)]
    exact h
  unfold postResult State.posted
  cases source : x.source with
  | command tag =>
    dsimp only
    split
    · exact still
    · have posted := body_endCommand (code := code) (remaining := remaining) (lastSlot := lastSlot) h
        (active (by rw [source]; rfl))
      rw [logPump_of_quiet _ ((logQuiet_of_body posted).2 quiet)]
      exact posted
  | remote => exact still
  | tape time =>
    dsimp only
    split
    · exact still
    · exact body_logPump_handLog h room
  | injected =>
    dsimp only
    split
    · exact still
    · exact body_logPump_handLog h room

/-- The action taken off, with its window closed. -/
def takeOff (x : Action) (t : State) : State :=
  orphanRamps (putCx { (if x.window then closeWindow t else t).cx with action := none }
    (if x.window then closeWindow t else t))

theorem endAction_eq {x : Action} {t : State} (action : t.cx.action = some x) (code : ResultCode) :
    endAction code t = postResult x.request x.source x.silent code
      (x.completion.getD (0, plainLastSlot (takeOff x t))).1 (x.completion.getD (0, plainLastSlot (takeOff x t))).2
        (takeOff x t) := by
  unfold endAction
  rw [action]
  cases answered : x.completion <;> simp only [answered] <;> rfl

theorem body_takeOff {x : Action} {s t : State} (h : t.body = s.body) : (takeOff x t).body = (s.unheld x).body := by
  have shut : (if x.window then closeWindow t else t).body = ({ s with lamp := s.lamp.windowShut x } : State).body := by
    unfold Lamp.windowShut
    cases window : x.window
    · simpa using h
    · simpa using body_closeWindow h
  unfold takeOff
  rw [body_cx shut]
  exact (body_orphanRamps (body_putCx_of (c := { s.cx with action := none }) shut rfl)).trans rfl

theorem plainLastSlot_of_body {s t : State} (h : t.body = s.body) : plainLastSlot t = plainLastSlot s := by
  rw [plainLastSlot, body_tray h]
  rfl

/-- What the current action leaves when it ends, with the record it posts taken by the Log Writer (R1, R22). -/
theorem body_logPump_endAction {n : Nat} {x : Action} {code : ResultCode} {s t : State} (h : t.body = s.body)
    (action : s.cx.action = some x) (quiet : logQuiet s) (room : logRoom s)
    (active : x.source.isCommand = true → s.hdr.record.state = .active) :
    (logPump (n + 1) (endAction code t)).body = (s.actionEnded x code (x.answer s)).body := by
  have unheld := body_takeOff (x := x) h
  have last : plainLastSlot (takeOff x t) = plainLastSlot s := by
    rw [plainLastSlot, body_tray unheld]
    rfl
  rw [actionEnded_eq, endAction_eq (by rw [body_cx h]; exact action), last]
  exact body_logPump_postResult unheld quiet room active

theorem logQuiet_posted {x : Action} {code : ResultCode} {values : Nat × Nat} {s : State} (quiet : logQuiet s) :
    logQuiet (s.posted x code values) := by
  unfold State.posted
  split
  · split <;> exact quiet
  · exact quiet
  · split
    · exact quiet
    · exact logQuiet_logged
  · split
    · exact quiet
    · exact logQuiet_logged

/-- What a result posted leaves alone. -/
theorem posted_frame (x : Action) (code : ResultCode) (values : Nat × Nat) (s : State) :
    (s.posted x code values).tray = s.tray ∧ (s.posted x code values).cx = s.cx
      ∧ (s.posted x code values).remote = s.remote ∧ (s.posted x code values).lamp = s.lamp := by
  have logged (r : LogRecord) : (s.logged r).tray = s.tray ∧ (s.logged r).cx = s.cx ∧ (s.logged r).remote = s.remote
      ∧ (s.logged r).lamp = s.lamp := by
    unfold State.logged
    split <;> exact ⟨rfl, rfl, rfl, rfl⟩
  unfold State.posted
  split
  · split <;> exact ⟨rfl, rfl, rfl, rfl⟩
  · exact ⟨rfl, rfl, rfl, rfl⟩
  · split
    · exact ⟨rfl, rfl, rfl, rfl⟩
    · exact logged _
  · split
    · exact ⟨rfl, rfl, rfl, rfl⟩
    · exact logged _

/-- With its sources empty the executor is IDLE after the action (R1, R2). -/
theorem executorStep_actionEnded {x : Action} {code : ResultCode} {values : Nat × Nat} {s : State}
    (completion : s.tray.completion = none) (sources : noSource s) :
    executorStep (s.actionEnded x code values) = none := by
  obtain ⟨tray, cx, remote, lamp⟩ := posted_frame x code values (s.unheld x)
  rw [actionEnded_eq]
  refine executorStep_idle ?_ ?_ ⟨?_, ?_, ?_, ?_⟩
  · rw [tray]
    exact completion
  · rw [cx]
    rfl
  · rw [cx]
    exact sources.1
  · rw [cx]
    exact sources.2.1
  · rw [remote]
    exact sources.2.2.1
  · rw [remote]
    exact sources.2.2.2

theorem executorStep_endAction {x : Action} {code : ResultCode} {s t : State} (h : t.body = s.body)
    (action : s.cx.action = some x) (completion : s.tray.completion = none) (sources : noSource s) :
    executorStep (endAction code t) = none := by
  have unheld := body_takeOff (x := x) h
  rw [endAction_eq (by rw [body_cx h]; exact action)]
  refine executorStep_idle ?_ ?_ ⟨?_, ?_, ?_, ?_⟩ <;> simp only [postResult_frame]
  · rw [body_tray unheld]
    exact completion
  · rw [body_cx unheld]
    rfl
  · rw [body_cx unheld]
    exact sources.1
  · rw [body_cx unheld]
    exact sources.2.1
  · rw [body_remote unheld]
    exact sources.2.2.1
  · rw [body_remote unheld]
    exact sources.2.2.2

/-- **An event with which the action that waits ends**: the executor ends it at once, with the values it has. -/
theorem ends_actionEnded {c : Instr} {f : State → State} {s v : State} {x : Action} {code : ResultCode}
    (settled : Settled s) (hc : exec c s = .next (live f s)) (body : (f s).body = v.body)
    (step : executorStep (f s) = some (endAction code (f s))) (action : v.cx.action = some x) (alone : endsAlone v x)
    (completion : v.tray.completion = none) (quiet : logQuiet v) (access : (f s).port.access = s.port.access) :
    Ends c s (v.actionEnded x code (x.answer v)) := by
  obtain ⟨sources, room, active⟩ := alone
  have course := courses_step step (executorStep_endAction body action completion sources)
  refine ends_courses hc settled.1 (by rw [course]; exact body_logPump_endAction body action quiet room active)
    (executorStep_actionEnded completion sources) ?_ ?_
  · rw [actionEnded_eq]
    exact logQuiet_posted quiet
  · rw [course, port_logPump, hostWaits_congr (q := s.port) (by rw [← access]; simp)]
    exact settled.2.2.2

/-! ## The duty and the standby deferral (R108, R109, R118) -/

theorem body_putThermal_of (th : Thermal) {s t : State} (h : t.body = s.body) :
    (putThermal th t).body = ({ s with thermal := th } : State).body := by
  rw [body_putThermal, h]
  rfl

theorem body_decideDuty {s t : State} (h : t.body = s.body) : (decideDuty t).body = s.dutied.body := by
  rw [eq_traffic h, decideDuty]
  exact (body_putThermal _ _).trans rfl

theorem zoneDuty_pos (zone : Nat) : zoneDuty zone ≠ 0 := by
  unfold zoneDuty
  split <;> decide

/-- Only STANDBY stops the fan (R108). -/
theorem dutyOf_eq_zero {s : State} : dutyOf s = 0 ↔ s.thermal.power = .standby := by
  have := zoneDuty_pos s.thermal.zone
  unfold dutyOf
  split
  · next standby => simp [standby]
  · next other =>
    split
    · simp [other]
    · split <;> simp only [other, iff_false] <;> omega

theorem dutyOf_dutied (s : State) : dutyOf s.dutied = dutyOf s := rfl

/-- Deciding the duty a second time, on a state whose duty an earlier decision left, with the power state as it was. -/
theorem dutied_after {s u : State} (duty : u.thermal.duty = dutyOf s)
    (start : u.thermal.tachStart = s.dutied.thermal.tachStart) (power : u.thermal.power = s.thermal.power)
    (now : u.now = s.now) : u.dutied = ({ u with
      thermal := { u.thermal with duty := s.thermal.duty, tachStart := s.thermal.tachStart } } : State).dutied := by
  have same : dutyOf u = dutyOf { u with
      thermal := { u.thermal with duty := s.thermal.duty, tachStart := s.thermal.tachStart } } := rfl
  have zero : dutyOf s = 0 ↔ dutyOf u = 0 := by rw [dutyOf_eq_zero, dutyOf_eq_zero, power]
  unfold State.dutied
  rw [← same, duty, start, now]
  by_cases stopped : dutyOf s = 0
  · simp [stopped, zero.1 stopped, State.dutied]
  · have running : dutyOf u ≠ 0 := fun h => stopped (zero.2 h)
    simp [stopped, running, State.dutied]

theorem dutied_dutied (s : State) : s.dutied.dutied = s.dutied :=
  dutied_after (s := s) (u := s.dutied) rfl rfl rfl rfl

theorem body_startRunOn {s t : State} (h : t.body = s.body) : (startRunOn t).body =
    (State.dutied { s with thermal := { s.thermal with runOn := some s.now } }).body := by
  rw [eq_traffic h]
  exact body_decideDuty (body_putThermal_of _ (body_traffic _ _ _ s))

/-- The unit stays out of STANDBY (R118). -/
abbrev staysUp (s : State) : Prop :=
  ¬(s.thermal.power = .standbyPending ∧ s.lamp.state.lit = false ∧ s.thermal.runOn = none)

theorem body_evalStandby_stays {s t : State} (h : t.body = s.body) (stays : staysUp s) :
    (evalStandby t).body = s.body := by
  rw [evalStandby, if_neg (by rw [body_thermal h, body_lamp h]; exact stays)]
  exact h

/-- STANDBY is entered, with the fan off (R118). -/
def State.stoodBy (s : State) : State := { s with thermal := { s.thermal with power := .standby, duty := 0 } }

theorem body_evalStandby_enters {s t : State} (h : t.body = s.body) (pending : s.thermal.power = .standbyPending)
    (unlit : s.lamp.state.lit = false) (cold : s.thermal.runOn = none) : (evalStandby t).body = s.stoodBy.body := by
  rw [evalStandby, if_pos (by rw [body_thermal h, body_lamp h]; exact ⟨pending, unlit, cold⟩), body_thermal h]
  refine (body_decideDuty (body_putThermal_of _ h)).trans ?_
  simp [State.dutied, State.stoodBy, dutyOf]

/-- The lamp has left a state for one that is neither WARMING nor ON (R87, R90, R91): run-on starts when it was lit, and
the duty is decided again. -/
def State.putOut (st : LampState) (s : State) : State :=
  State.dutied { s with
    lamp := s.lamp.unlit st
    thermal := { s.thermal with runOn := if s.lamp.state.lit = true then some s.now else s.thermal.runOn } }

theorem lampState_ne_warming {st : LampState} (unlit : st.lit = false) : st ≠ .warming := by
  rintro rfl
  exact absurd unlit (by decide)

/-- A lamp that is not lit is reported: one that was lit starts run-on, and the duty is decided again (R108, R110). -/
theorem body_lampReport_unlit {old : LampState} {s t : State} (h : t.body = s.body) (unlit : s.lamp.state.lit = false)
    (stays : old.lit = true ∨ staysUp s) : (lampReport old t).body = (State.dutied { s with
      thermal := { s.thermal with runOn := if old.lit = true then some s.now else s.thermal.runOn } }).body := by
  have dark := lampState_ne_warming unlit
  unfold lampReport
  rw [body_lamp h, unlit, Bool.not_false, Bool.and_true]
  by_cases lit : old.lit = true
  · have ran := body_startRunOn h
    have stays' : staysUp (State.dutied { s with thermal := { s.thermal with runOn := some s.now } }).dutied :=
      fun h => absurd h.2.2 (by simp [State.dutied])
    simp only [if_pos lit]
    rw [if_neg (by rw [body_lamp ran]; exact fun h => dark h.1)]
    refine (body_evalStandby_stays (body_decideDuty ran) stays').trans ?_
    rw [dutied_dutied]
  · simp only [if_neg lit]
    rw [if_neg (by rw [body_lamp h]; exact fun h => dark h.1)]
    exact body_evalStandby_stays (body_decideDuty h) (stays.resolve_left lit)

theorem body_setLampState_unlit {st : LampState} {s t : State} (h : t.body = s.body) (unlit : st.lit = false)
    (ne : s.lamp.state ≠ st) (stays : s.lamp.state.lit = true ∨ staysUp s) :
    (setLampState st t).body = (s.putOut st).body := by
  have out : (putLamp { s.lamp with
      state := st, judging := s.lamp.judging && st.lit, firing := if st.lit then s.lamp.firing else none } t).body
      = ({ s with lamp := s.lamp.unlit st } : State).body := by
    rw [unlit, Bool.and_false]
    exact body_putLamp_of _ h
  unfold setLampState
  rw [body_lamp h, if_neg ne]
  have stays' : s.lamp.state.lit = true ∨ staysUp ({ s with lamp := s.lamp.unlit st } : State) := by
    cases lit : s.lamp.state.lit
    · exact .inr fun down => (stays.resolve_left (by simp [lit])) ⟨down.1, lit, down.2.2⟩
    · exact .inl rfl
  exact body_lampReport_unlit out unlit stays'

theorem putOut_dutied (st : LampState) (s : State) : s.dutied.putOut st = s.putOut st :=
  dutied_after (s := s) (u := { s.dutied with
    lamp := s.lamp.unlit st
    thermal := { s.dutied.thermal with runOn := if s.lamp.state.lit = true then some s.now else s.thermal.runOn } })
    rfl rfl rfl rfl

/-- A cooling fault is latched and trips the lamp (R106, R109). -/
theorem body_coolingFault {s t : State} (h : t.body = s.body) (ne : s.lamp.state ≠ .tripped)
    (power : s.thermal.power ≠ .standbyPending) :
    (coolingFault t).body = (State.latched .coolingFault (s.putOut .tripped)).body := by
  have stays : staysUp ((s.latched .coolingFault).dutied) := fun down => power down.1
  refine (body_setLampState_unlit (s := (s.latched .coolingFault).dutied) (body_decideDuty (body_latched h)) rfl ne
    (.inr stays)).trans ?_
  rw [putOut_dutied]
  rfl

/-- Run-on ends, and the unit stays out of STANDBY (R110). -/
theorem body_endRunOn_stays {s t : State} (h : t.body = s.body)
    (stays : ¬(s.thermal.power = .standbyPending ∧ s.lamp.state.lit = false)) : (endRunOn t).body =
      (State.dutied { s with thermal := { s.thermal with runOn := none } }).body := by
  unfold endRunOn
  rw [body_thermal h]
  exact body_evalStandby_stays (body_decideDuty (body_putThermal_of _ h)) fun down => stays ⟨down.1, down.2.1⟩

/-- Run-on ends, and the unit that waits for it is in STANDBY (R110, R118). -/
theorem body_endRunOn_enters {s t : State} (h : t.body = s.body) (pending : s.thermal.power = .standbyPending)
    (unlit : s.lamp.state.lit = false) : (endRunOn t).body =
      (State.stoodBy (State.dutied { s with thermal := { s.thermal with runOn := none } })).body := by
  unfold endRunOn
  rw [body_thermal h]
  exact body_evalStandby_enters (body_decideDuty (body_putThermal_of _ h)) pending unlit rfl

/-- A fan that turns and is stopped with STANDBY keeps the start of its tach watch (R109). -/
theorem stoodBy_dutied {s : State} (turns : s.thermal.duty ≠ 0) : s.dutied.stoodBy = s.stoodBy := by
  simp [State.stoodBy, State.dutied, turns]

/-- An event of the Thermal Controller or the lamp, with no LAMP on under way. -/
theorem ends_lampEvent {c : Instr} {f : State → State} {s u : State} (settled : Settled s)
    (hc : exec c s = .next (live f s)) (noLamp : noLampOn s) (body : (f s).body = u.body)
    (tray : u.tray = s.tray) (cx : u.cx = s.cx) (remote : u.remote = s.remote) (log : u.log = s.log)
    (settings : u.hdr.settings = s.hdr.settings) (access : (f s).port.access = s.port.access) : Ends c s u := by
  refine ends_live settled hc body ?_ ?_ access
  · exact executor_rest_lamp settled.2.1 noLamp (by rw [tray]) cx (by rw [remote]) (by rw [remote])
  · rw [logQuiet, settings, log]
    exact settled.2.2.1

theorem port_tachExpiry (s : State) : (tachExpiry s).port = s.port := by
  unfold tachExpiry
  split
  · dsimp only
    split <;> simp
  · rfl

theorem port_tachPulse (s : State) : (tachPulse s).port = s.port := by
  unfold tachPulse
  split <;> simp

theorem port_tryEndRunOn (s : State) : (tryEndRunOn s).port = s.port := by
  unfold tryEndRunOn
  split <;> simp

theorem port_dwellReached (s : State) : (dwellReached s).port = s.port := by
  unfold dwellReached
  split <;> simp [setDwellFlag]

theorem runOnServed_some {s : State} {start : Nat} (h : s.thermal.runOn = some start) :
    runOnServed s = decide (60000000 ≤ s.now - start) := by
  unfold runOnServed
  rw [h]
  rfl

theorem tryEndRunOn_served {s : State} {start : Nat} (h : s.thermal.runOn = some start)
    (time : 60000000 ≤ s.now - start) (cool : s.thermal.th < 45) (sound : s.thermal.failTh ≠ 4) :
    tryEndRunOn s = endRunOn s := by
  simp [tryEndRunOn, runOnServed_some h, time, cool, sound]

theorem tryEndRunOn_waits {s : State} {start : Nat} (h : s.thermal.runOn = none ∨ 45 ≤ s.thermal.th
    ∨ s.thermal.failTh = 4 ∨ (s.thermal.runOn = some start ∧ s.now - start < 60000000)) : tryEndRunOn s = s := by
  unfold tryEndRunOn
  refine if_neg ?_
  rcases h with none_ | warm | fault | ⟨some_, short⟩
  · simp [runOnServed, none_]
  · simp only [Bool.and_eq_true, decide_eq_true_eq]
    omega
  · simp [fault]
  · rw [runOnServed_some some_]
    simp only [Bool.and_eq_true, decide_eq_true_eq]
    omega

theorem tachDue_iff {s : State} :
    tachDue s = true ↔ s.thermal.duty ≠ 0 ∧ 2000000 ≤ s.now - s.thermal.tachStart := by
  unfold tachDue
  rw [Bool.and_eq_true, decide_eq_true_iff, decide_eq_true_iff]
  rfl

theorem dwellDue_iff {s : State} : dwellDue s = true ↔ s.dwellCounts = true
    ∧ s.hdr.settings.dwellLimit * 1000000 ≤ s.thermal.dwellUs := by
  unfold dwellDue
  rw [Bool.and_eq_true, decide_eq_true_iff]
  rfl

/-- Settles O46: each row is one decision of the Thermal Controller, made anew after the trip where there is one. -/
theorem fanAndThermalTimers : Obligations.FanAndThermalTimers := by
  intro s start settled noLamp
  refine ⟨fun turns => ?_, fun stopped => ?_, fun turns due stands => ?_, fun turns due clear ne power => ?_,
    fun early => ?_, fun ⟨some_, time, cool, sound⟩ power => ?_,
    fun ⟨some_, time, cool, sound⟩ pending unlit turns => ?_, fun waits => ?_, fun ⟨counts, limit⟩ => ?_, fun waits => ?_⟩
  · refine ends_live settled rfl (f := tachPulse) ?_ (executor_rest settled.2.1 ⟨rfl, rfl, rfl, rfl, rfl, rfl⟩)
      settled.2.2.1 (by rw [port_tachPulse])
    exact (congrArg State.body (if_neg turns)).trans (body_decideDuty (body_putThermal _ s))
  · exact ends_live settled rfl (f := tachPulse) (congrArg State.body (if_pos stopped)) settled.2.1 settled.2.2.1
      (by rw [port_tachPulse])
  · have due' : tachDue s = true := tachDue_iff.2 ⟨turns, due⟩
    refine ends_live settled rfl (f := tachExpiry) ?_ (executor_rest settled.2.1 ⟨rfl, rfl, rfl, rfl, rfl, rfl⟩)
      settled.2.2.1 (by rw [port_tachExpiry])
    refine (congrArg State.body ((if_pos due').trans (if_pos stands))).trans ((body_putThermal _ s).trans ?_)
    exact congrArg (fun b => ({ s with thermal := { s.thermal with tachStart := s.now, fanFault := b } } : State).body)
      stands.symm
  · have due' : tachDue s = true := tachDue_iff.2 ⟨turns, due⟩
    refine ends_lampEvent settled rfl (f := tachExpiry) noLamp ?_ rfl rfl rfl rfl rfl (by rw [port_tachExpiry])
    refine (congrArg State.body ((if_pos due').trans (if_neg (by simp [clear])))).trans ?_
    exact body_coolingFault (s := { s with thermal := { s.thermal with tachStart := s.now, fanFault := true } })
      (body_putThermal _ s) ne (by simp [power])
  · have notDue : ¬tachDue s = true := fun due =>
      early.elim (tachDue_iff.1 due).1 (Nat.not_lt.2 (tachDue_iff.1 due).2)
    exact ends_live settled rfl (f := tachExpiry) (congrArg State.body (if_neg notDue)) settled.2.1 settled.2.2.1
      (by rw [port_tachExpiry])
  · refine ends_live settled rfl (f := tryEndRunOn) ?_ (executor_rest settled.2.1 ⟨rfl, rfl, rfl, rfl, rfl, rfl⟩)
      settled.2.2.1 (by rw [port_tryEndRunOn])
    rw [tryEndRunOn_served some_ time cool sound]
    exact body_endRunOn_stays rfl (by simp [power])
  · refine ends_live settled rfl (f := tryEndRunOn) ?_ (executor_rest settled.2.1 ⟨rfl, rfl, rfl, rfl, rfl, rfl⟩)
      settled.2.2.1 (by rw [port_tryEndRunOn])
    rw [tryEndRunOn_served some_ time cool sound]
    refine (body_endRunOn_enters rfl pending unlit).trans ?_
    exact congrArg State.body (stoodBy_dutied (s := { s with thermal := { s.thermal with runOn := none } }) turns)
  · exact ends_live settled rfl (f := tryEndRunOn) (by rw [tryEndRunOn_waits waits]) settled.2.1 settled.2.2.1
      (by rw [port_tryEndRunOn])
  · refine ends_live settled rfl (f := dwellReached) ?_ (executor_rest settled.2.1 ⟨rfl, rfl, rfl, rfl, rfl, rfl⟩)
      settled.2.2.1 (by rw [port_dwellReached])
    exact (congrArg State.body (if_pos (dwellDue_iff.2 ⟨counts, limit⟩))).trans (body_setDwellFlag rfl)
  · have notDue : ¬dwellDue s = true := fun due => waits (dwellDue_iff.1 due)
    exact ends_live settled rfl (f := dwellReached) (congrArg State.body (if_neg notDue)) settled.2.1 settled.2.2.1
      (by rw [port_dwellReached])

theorem accepted_none {r : SensorRead}
    (failed : r = .noAnswer ∨ r = .badCheck ∨ ∃ v, r = .value v ∧ (v < 0 ∨ 200 < v)) : SensorRead.accepted r = none := by
  rcases failed with rfl | rfl | ⟨v, rfl, range⟩
  · rfl
  · rfl
  · simp only [SensorRead.accepted, ite_eq_right_iff, reduceCtorEq, imp_false]
    omega

theorem sensorDone_failed {sensor : Sensor} {r : SensorRead} (failed : SensorRead.accepted r = none) (s : State) :
    sensorDone sensor r s = match sensor with
      | .lampHouse => failTh s
      | .gate => failTg s := by
  unfold sensorDone
  cases sensor <;> rw [failed]

section FailedRead

variable {sensor : Sensor} {r : SensorRead} {s : State} (settled : Settled s) (noLamp : noLampOn s)
  (failed : SensorRead.accepted r = none)
include settled noLamp failed

/-- A read that fails and brings its sensor no fault only counts (R105). -/
theorem ends_read_counted {t : Thermal} (counts : (match sensor with
      | .lampHouse => failTh s
      | .gate => failTg s) = putThermal t s) : Ends (.sensorReadDone sensor r) s { s with thermal := t } := by
  have done := (sensorDone_failed (sensor := sensor) failed s).trans counts
  exact ends_lampEvent settled rfl (f := sensorDone sensor r) noLamp (by rw [done]; exact body_putThermal _ s)
    rfl rfl rfl rfl rfl (by simp [done])

/-- The fourth that fails in a row is a cooling fault (R106). -/
theorem ends_read_fault {t : Thermal} (counts : (match sensor with
      | .lampHouse => failTh s
      | .gate => failTg s) = coolingFault (putThermal t s)) (power : t.power = .normal)
    (ne : s.lamp.state ≠ .tripped) : Ends (.sensorReadDone sensor r) s
      (State.latched .coolingFault (State.putOut .tripped { s with thermal := t })) := by
  have done := (sensorDone_failed (sensor := sensor) failed s).trans counts
  refine ends_lampEvent settled rfl (f := sensorDone sensor r) noLamp ?_ rfl rfl rfl rfl rfl (by simp [done])
  rw [done]
  exact body_coolingFault (s := { s with thermal := t }) (body_putThermal _ s) ne (by simp [power])

end FailedRead

theorem failTh_of {s : State} {n : Nat} (h : min 4 (s.thermal.failTh + 1) = n) : failTh s =
    if s.thermal.failTh = 3 then coolingFault (putThermal { s.thermal with failTh := n, readingTh := false } s)
    else putThermal { s.thermal with failTh := n, readingTh := false } s := by
  subst h
  simp [failTh]

theorem failTg_of {s : State} {n : Nat} (h : min 4 (s.thermal.failTg + 1) = n) : failTg s =
    if s.thermal.failTg = 3 then coolingFault (putThermal { s.thermal with failTg := n, readingTg := false } s)
    else putThermal { s.thermal with failTg := n, readingTg := false } s := by
  subst h
  simp [failTg]

/-- Settles O45. -/
theorem failedReadings : Obligations.FailedReadings := by
  intro s r settled noLamp power ne h fault failure
  have failed := accepted_none failure
  refine ⟨fun few => ?_, fun three => ?_, fun four => ?_, fun few => ?_, fun three => ?_, fun four => ?_⟩
  · have n : min 4 (s.thermal.failTh + 1) = s.thermal.failTh + 1 := by change s.thermal.failTh < 3 at few; omega
    exact ends_read_counted settled noLamp failed ((failTh_of n).trans (if_neg (Nat.ne_of_lt few)))
  · have n : min 4 (s.thermal.failTh + 1) = 4 := by change s.thermal.failTh = 3 at three; omega
    exact ends_read_fault (t := { h with failTh := 4, readingTh := false }) settled noLamp failed ((failTh_of n).trans (if_pos three))
      power ne
  · have n : min 4 (s.thermal.failTh + 1) = s.thermal.failTh := by change s.thermal.failTh = 4 at four; omega
    exact ends_read_counted settled noLamp failed ((failTh_of n).trans (if_neg (ne_of_eq_of_ne four (by decide))))
  · have n : min 4 (s.thermal.failTg + 1) = s.thermal.failTg + 1 := by change s.thermal.failTg < 3 at few; omega
    exact ends_read_counted settled noLamp failed ((failTg_of n).trans (if_neg (Nat.ne_of_lt few)))
  · have n : min 4 (s.thermal.failTg + 1) = 4 := by change s.thermal.failTg = 3 at three; omega
    exact ends_read_fault (t := { h with failTg := 4, readingTg := false }) settled noLamp failed ((failTg_of n).trans (if_pos three))
      power ne
  · have n : min 4 (s.thermal.failTg + 1) = s.thermal.failTg := by change s.thermal.failTg = 4 at four; omega
    exact ends_read_counted settled noLamp failed ((failTg_of n).trans (if_neg (ne_of_eq_of_ne four (by decide))))

end Sys2Proof.Machine
end
section
/-! The readings of the sensors (R105 to R117): what an accepted reading sets off, in the order of its re-evaluations. -/

namespace Sys2Proof.Machine

/-! ## An accepted lamp-house reading (R105) -/

/-- The reading taken, with the zone it gives (R105, R107). -/
def State.heated (v : Nat) (s : State) : State :=
  { s with thermal := { s.thermal with
    th := v, failTh := 0, readingTh := false, zone := zoneAfter s.thermal.zone v } }

/-- The zone's thresholds written out (R107). -/
theorem zoneAfter_eq {zone : Nat} (h : zone ≤ 3) (v : Nat) : zoneAfter zone v =
    if v < 45 then 0 else if v < 50 then min zone 1 else if v < 65 then 1
      else if v < 70 then max 1 (min zone 2) else if v < 85 then 2 else if v < 90 then max 2 (min zone 3) else 3 := by
  unfold zoneAfter
  grind

theorem accepted_value {v : Nat} (h : v ≤ 200) : SensorRead.accepted (.value v) = some v := by
  simp only [SensorRead.accepted, Int.toNat_natCast]
  exact if_pos ⟨by omega, by omega⟩

theorem runOnServed_eq (s : State) : runOnServed s
    = (s.thermal.runOn.map fun start => decide (60000000 ≤ s.now - start)).getD false := by
  unfold runOnServed
  cases s.thermal.runOn <;> rfl

theorem judgeOverTemp_eq {s t : State} (h : t.body = s.body) : judgeOverTemp t =
    if s.hdr.settings.tt ≤ s.thermal.th then
      if s.thermal.overTemp = true then t
      else tripLamp (latch .thermalTrip (putThermal { s.thermal with overTemp := true } t))
    else putThermal { s.thermal with overTemp := false } t := by
  unfold judgeOverTemp
  rw [body_hdr h, body_thermal h]

/-- The over-temperature flag follows a reading that does not set it anew (R116). -/
theorem body_judgeOverTemp_plain {w t : State} (h : t.body = w.dutied.body)
    (plain : w.thermal.th < w.hdr.settings.tt ∨ w.thermal.overTemp = true) : (judgeOverTemp t).body =
      (State.dutied { w with
        thermal := { w.thermal with overTemp := decide (w.hdr.settings.tt ≤ w.thermal.th) } }).body := by
  rw [judgeOverTemp_eq h]
  by_cases reached : w.hdr.settings.tt ≤ w.thermal.th
  · have stands : w.thermal.overTemp = true := plain.resolve_left (Nat.not_lt.2 reached)
    rw [decide_eq_true reached]
    exact (congrArg State.body ((if_pos reached).trans (if_pos stands))).trans (h.trans (congrArg
      (fun b => (State.dutied { w with thermal := { w.thermal with overTemp := b } }).body) stands))
  · rw [decide_eq_false reached]
    exact (congrArg State.body (if_neg reached)).trans
      (body_putThermal_of (s := w.dutied) { w.dutied.thermal with overTemp := false } h)

/-- One that sets the flag latches thermal_trip and trips the lamp (R90, R116). -/
theorem body_judgeOverTemp_trips {w t : State} (h : t.body = w.dutied.body)
    (reached : w.hdr.settings.tt ≤ w.thermal.th) (clear : w.thermal.overTemp = false)
    (ne : w.lamp.state ≠ .tripped) (stays : w.lamp.state.lit = true ∨ staysUp w) : (judgeOverTemp t).body =
      (State.latched .thermalTrip
        (State.putOut .tripped { w with thermal := { w.thermal with overTemp := true } })).body := by
  let d : State := { w with thermal := { w.thermal with overTemp := true } }
  have latched := body_latched (e := .thermalTrip) (s := d.dutied)
    (body_putThermal_of (s := w.dutied) { w.dutied.thermal with overTemp := true } h)
  rw [judgeOverTemp_eq h]
  refine (congrArg State.body ((if_pos reached).trans (if_neg (ne_true_of_eq_false clear)))).trans ?_
  refine (body_setLampState_unlit (s := d.dutied.latched .thermalTrip) latched rfl ne stays).trans ?_
  exact congrArg (fun u => (State.latched .thermalTrip u).body) (putOut_dutied .tripped d)

/-- A lamp that is TRIPPED already stays so. -/
theorem body_judgeOverTemp_tripped {w t : State} (h : t.body = w.dutied.body)
    (reached : w.hdr.settings.tt ≤ w.thermal.th) (clear : w.thermal.overTemp = false)
    (tripped : w.lamp.state = .tripped) : (judgeOverTemp t).body =
      (State.latched .thermalTrip (State.dutied { w with thermal := { w.thermal with overTemp := true } })).body := by
  let d : State := { w with thermal := { w.thermal with overTemp := true } }
  have latched := body_latched (e := .thermalTrip) (s := d.dutied)
    (body_putThermal_of (s := w.dutied) { w.dutied.thermal with overTemp := true } h)
  rw [judgeOverTemp_eq h]
  refine (congrArg State.body ((if_pos reached).trans (if_neg (ne_true_of_eq_false clear)))).trans ?_
  refine (congrArg State.body (if_pos ?_)).trans latched
  exact (congrArg Lamp.state (body_lamp latched)).trans tripped

theorem tryEndRunOn_keeps {s t : State} (h : t.body = s.body) (keeps : ¬(runOnServed s = true ∧ s.thermal.th < 45)) :
    tryEndRunOn t = t := by
  have served : runOnServed t = runOnServed s := by
    rw [runOnServed_eq, runOnServed_eq, body_thermal h, body_now h]
  unfold tryEndRunOn
  rw [served, body_thermal h]
  refine if_neg ?_
  simp only [Bool.and_eq_true, decide_eq_true_eq]
  exact fun due => keeps due.1

theorem tryEndRunOn_ends {s t : State} (h : t.body = s.body) (served : runOnServed s = true) (cool : s.thermal.th < 45)
    (sound : s.thermal.failTh ≠ 4) : tryEndRunOn t = endRunOn t := by
  have served' : runOnServed t = true := by
    rw [runOnServed_eq, body_thermal h, body_now h]
    rwa [runOnServed_eq] at served
  unfold tryEndRunOn
  rw [served', body_thermal h]
  exact if_pos (by simpa using ⟨cool, sound⟩)

/-- The reading finds an OFF lamp warm, with no run-on, in a part that is not in STANDBY (R111). -/
abbrev hot (s : State) : Prop :=
  45 ≤ s.thermal.th ∧ s.lamp.state = .off ∧ s.thermal.runOn = none ∧ s.thermal.power ≠ .standby

theorem hotRestart_eq {s t : State} (h : t.body = s.body) : hotRestart t =
    if s.thermal.firstTaken = true then t
    else
      let u := if hot s then startRunOn t else t
      putThermal { u.thermal with firstTaken := true } u := by
  have same : (decide (45 ≤ s.thermal.th) && decide (s.lamp.state = .off) && s.thermal.runOn.isNone
      && decide (s.thermal.power ≠ .standby)) = decide (hot s) := by
    rw [Bool.eq_iff_iff]
    simp only [hot, Bool.and_eq_true, decide_eq_true_eq, Option.isNone_iff_eq_none, and_assoc]
  unfold hotRestart
  rw [body_thermal h, body_lamp h, same]
  simp only [decide_eq_true_eq]

/-- No run-on starts with the reading (R111). -/
theorem body_hotRestart_cold {s t : State} (h : t.body = s.body) (cold : ¬(s.thermal.firstTaken = false ∧ hot s)) :
    (hotRestart t).body = ({ s with thermal := { s.thermal with firstTaken := true } } : State).body := by
  rw [hotRestart_eq h]
  cases taken : s.thermal.firstTaken with
  | true =>
    exact h.trans (congrArg (fun b => ({ s with thermal := { s.thermal with firstTaken := b } } : State).body) taken)
  | false =>
    simp only [Bool.false_eq_true, if_false, if_neg (fun k => cold ⟨taken, k⟩)]
    rw [body_thermal h]
    exact body_putThermal_of _ h

/-- The first reading of 45 or more starts run-on (R111). -/
theorem body_hotRestart_hot {w t : State} (h : t.body = w.dutied.body) (first : w.thermal.firstTaken = false)
    (warm : hot w) : (hotRestart t).body =
      (State.dutied { w with thermal := { w.thermal with runOn := some w.now, firstTaken := true } }).body := by
  have again : State.dutied { w.dutied with thermal := { w.dutied.thermal with runOn := some w.now } }
      = State.dutied { w with thermal := { w.thermal with runOn := some w.now } } :=
    dutied_after (s := w) rfl rfl rfl rfl
  have started := (body_startRunOn h).trans (congrArg State.body again)
  have isHot : hot w.dutied := warm
  rw [hotRestart_eq h]
  refine (congrArg State.body (if_neg (ne_true_of_eq_false first))).trans ?_
  simp only [if_pos isHot]
  rw [body_thermal started]
  exact body_putThermal_of
    (s := State.dutied { w with thermal := { w.thermal with runOn := some w.now } }) _ started

/-! ## The rest of an accepted reading: run-on, the hot restart and the ceiling -/

/-- What follows the over-temperature flag (R105). -/
def acceptRest (t : State) : State := updateCeiling (hotRestart (tryEndRunOn t))

theorem acceptTh_eq (v : Nat) (s : State) : acceptTh v s = acceptRest (judgeOverTemp (decideDuty (putThermal
    { s.thermal with th := v, failTh := 0, readingTh := false, zone := zoneAfter s.thermal.zone v } s))) := rfl

section
variable {w t : State}

theorem body_acceptRest_keeps (h : t.body = w.dutied.body) (keeps : ¬(runOnServed w = true ∧ w.thermal.th < 45))
    (cold : ¬(w.thermal.firstTaken = false ∧ hot w)) : (acceptRest t).body =
      (State.recapped (State.dutied { w with thermal := { w.thermal with firstTaken := true } })).body := by
  unfold acceptRest
  rw [tryEndRunOn_keeps h keeps]
  exact body_updateCeiling (body_hotRestart_cold h cold)

theorem body_acceptRest_hot (h : t.body = w.dutied.body) (first : w.thermal.firstTaken = false)
    (warm : hot w) : (acceptRest t).body = (State.recapped (State.dutied { w with
      thermal := { w.thermal with runOn := some w.now, firstTaken := true } })).body := by
  have keeps : ¬(runOnServed w = true ∧ w.thermal.th < 45) := fun served => Nat.not_lt.2 warm.1 served.2
  unfold acceptRest
  rw [tryEndRunOn_keeps h keeps]
  exact body_updateCeiling (body_hotRestart_hot h first warm)

theorem body_acceptRest_ends (h : t.body = w.dutied.body) (served : runOnServed w = true) (cool : w.thermal.th < 45)
    (sound : w.thermal.failTh ≠ 4) (stays : ¬(w.thermal.power = .standbyPending ∧ w.lamp.state.lit = false)) :
    (acceptRest t).body = (State.recapped (State.dutied { w with
      thermal := { w.thermal with runOn := none, firstTaken := true } })).body := by
  have again : State.dutied { w.dutied with thermal := { w.dutied.thermal with runOn := none } }
      = State.dutied { w with thermal := { w.thermal with runOn := none } } := dutied_after (s := w) rfl rfl rfl rfl
  have ended := (body_endRunOn_stays h stays).trans (congrArg State.body again)
  unfold acceptRest
  rw [tryEndRunOn_ends h served cool sound]
  exact body_updateCeiling (body_hotRestart_cold ended fun hot => Nat.not_lt.2 hot.2.1 cool)

theorem body_acceptRest_enters (h : t.body = w.dutied.body) (served : runOnServed w = true) (cool : w.thermal.th < 45)
    (sound : w.thermal.failTh ≠ 4) (pending : w.thermal.power = .standbyPending) (unlit : w.lamp.state.lit = false)
    (turns : w.thermal.duty ≠ 0) : (acceptRest t).body = (State.recapped { w with
      thermal := { w.thermal with runOn := none, firstTaken := true, power := .standby, duty := 0 } }).body := by
  have again : State.dutied { w.dutied with thermal := { w.dutied.thermal with runOn := none } }
      = State.dutied { w with thermal := { w.thermal with runOn := none } } := dutied_after (s := w) rfl rfl rfl rfl
  have ended := (body_endRunOn_enters h pending unlit).trans (congrArg State.body ((congrArg State.stoodBy again).trans
    (stoodBy_dutied (s := { w with thermal := { w.thermal with runOn := none } }) turns)))
  unfold acceptRest
  rw [tryEndRunOn_ends h served cool sound]
  exact body_updateCeiling (body_hotRestart_cold ended fun hot => Nat.not_lt.2 hot.2.1 cool)

end

/-- A LAMP on that waits ends as the lamp answers it (R17). -/
theorem executorStep_warming {s : State} {x : Action} (completion : s.tray.completion = none)
    (action : s.cx.action = some x) (phase : x.phase = .warming) : executorStep s =
      if s.lamp.state = .tripped then some (endAction .thermalHold s)
      else if s.lamp.state = .failed then some (endAction .aborted s)
      else if s.lamp.state = .on then some (endAction .ok s)
      else if choiceIsLampOff s then some (endAction .aborted s)
      else none := by
  simp [executorStep, completion, action, Action.waitsForLamp, phase]

/-- **The lamp answers a LAMP on that waits**: an event brings the lamp to the state that ends it (R17). -/
theorem ends_lampAnswered {c : Instr} {f : State → State} {s v : State} {x : Action} {code : ResultCode}
    (settled : Settled s) (hc : exec c s = .next (live f s)) (body : (f s).body = v.body) (waits : awaitsLamp v x)
    (answer : v.lamp.state = .tripped ∧ code = .thermalHold ∨ v.lamp.state = .failed ∧ code = .aborted
      ∨ v.lamp.state = .on ∧ code = .ok)
    (tray : v.tray = s.tray) (quiet : logQuiet v) (access : (f s).port.access = s.port.access) :
    Ends c s (v.actionEnded x code (x.answer v)) := by
  have completion : v.tray.completion = none := by
    rw [tray]
    exact completion_of_rest settled.2.1
  refine ends_actionEnded settled hc body ?_ waits.1 waits.2.2 completion quiet access
  rw [executorStep_warming (x := x) (by rw [body_tray body]; exact completion) (by rw [body_cx body]; exact waits.1)
    waits.2.1, body_lamp body]
  rcases answer with ⟨state, rfl⟩ | ⟨state, rfl⟩ | ⟨state, rfl⟩ <;> simp [state]

/-- A reading taken, with its zone, its run-on and its over-temperature flag. -/
def Thermal.readAs (v zone : Nat) (runOn : Option Nat) (overTemp : Bool) (h : Thermal) : Thermal :=
  { h with
    th := v, failTh := 0, readingTh := false, firstTaken := true, zone := zone, runOn := runOn, overTemp := overTemp }

/-- A lamp-house reading, accepted. -/
theorem sensorDone_accepted {v : Nat} (h : v ≤ 200) (s : State) :
    sensorDone .lampHouse (.value v) s = acceptTh v s := by
  unfold sensorDone
  rw [accepted_value h]

theorem sensorDone_acceptedGate {v : Nat} (h : v ≤ 200) (s : State) :
    sensorDone .gate (.value v) s = acceptTg v s := by
  unfold sensorDone
  rw [accepted_value h]

theorem port_acceptTh (v : Nat) (s : State) : (acceptTh v s).port = s.port := by
  have judged (s : State) : (judgeOverTemp s).port = s.port := by
    unfold judgeOverTemp
    split
    · split <;> simp
    · simp
  have restart (s : State) : (hotRestart s).port = s.port := by
    unfold hotRestart
    split
    · rfl
    · dsimp only
      split <;> simp
  rw [acceptTh_eq]
  unfold acceptRest
  rw [port_updateCeiling, restart, port_tryEndRunOn, judged]
  simp

theorem port_startReadCycle (s : State) : (startReadCycle s).port = s.port := by
  unfold startReadCycle
  split <;> simp

theorem body_heated (v : Nat) (s : State) : (decideDuty (putThermal { s.thermal with
    th := v, failTh := 0, readingTh := false, zone := zoneAfter s.thermal.zone v } s)).body = (s.heated v).dutied.body :=
  body_decideDuty (body_putThermal _ s)

/-- A gate reading taken, with the gate flag it gives (R113). -/
def Thermal.gateRead (v limit : Nat) (h : Thermal) : Thermal :=
  Thermal.judged limit { h with tg := v, failTg := 0, readingTg := false }

theorem body_acceptTg (v : Nat) (s : State) : (acceptTg v s).body = (State.recapped (State.dutied { s with
    thermal := s.thermal.gateRead v s.hdr.settings.gateLimit })).body :=
  (body_updateGateFlag (s := State.dutied { s with
    thermal := { s.thermal with tg := v, failTg := 0, readingTg := false } })
    (body_decideDuty (body_putThermal _ s))).trans rfl

/-- An accepted gate reading (R105, R113). -/
theorem ends_acceptedGate {v : Nat} {s : State} (settled : Settled s) (range : v ≤ 200) :
    Ends (.sensorReadDone .gate (.value v)) s (State.recapped (State.dutied { s with
      thermal := s.thermal.gateRead v s.hdr.settings.gateLimit })) := by
  have done := sensorDone_acceptedGate range s
  refine ends_live settled rfl (f := sensorDone .gate (.value v)) ?_
    (executor_rest settled.2.1 ⟨rfl, rfl, rfl, rfl, rfl, rfl⟩) settled.2.2.1 ?_
  · rw [done]
    exact body_acceptTg v s
  · rw [done, acceptTg, port_updateGateFlag]
    simp

/-- A reading that trips the lamp starts no run-on of its own (R111, R116). -/
theorem body_acceptTh_trips {v : Nat} {s : State} (reached : s.hdr.settings.tt ≤ v) (clear : s.thermal.overTemp = false)
    (warm : 45 ≤ v) (ne : s.lamp.state ≠ .tripped) (stays : s.lamp.state.lit = true ∨ staysUp s) :
    (acceptTh v s).body = (State.latched .thermalTrip (State.recapped (State.dutied { s with
      lamp := s.lamp.unlit .tripped
      thermal := s.thermal.readAs v (zoneAfter s.thermal.zone v)
        (if s.lamp.state.lit = true then some s.now else s.thermal.runOn) true }))).body := by
  have body := body_judgeOverTemp_trips (body_heated v s) reached clear ne stays
  let w : State := State.latched .thermalTrip { s.heated v with
    lamp := s.lamp.unlit .tripped
    thermal := { (s.heated v).thermal with
      overTemp := true, runOn := if s.lamp.state.lit = true then some s.now else s.thermal.runOn } }
  exact body_acceptRest_keeps (w := w) body (fun k => Nat.not_lt.2 warm k.2) fun k => by
    simpa [w, State.latched, Lamp.unlit] using k.2.2.1

theorem body_acceptTh_tripped {v : Nat} {s : State} (reached : s.hdr.settings.tt ≤ v)
    (clear : s.thermal.overTemp = false) (warm : 45 ≤ v) (tripped : s.lamp.state = .tripped) :
    (acceptTh v s).body = (State.latched .thermalTrip (State.recapped (State.dutied { s with
      thermal := s.thermal.readAs v (zoneAfter s.thermal.zone v) s.thermal.runOn true }))).body := by
  have body := body_judgeOverTemp_tripped (body_heated v s) reached clear tripped
  let w : State := State.latched .thermalTrip { s.heated v with
    thermal := { (s.heated v).thermal with overTemp := true } }
  exact body_acceptRest_keeps (w := w) body (fun k => Nat.not_lt.2 warm k.2) fun k =>
    absurd (tripped.symm.trans k.2.2.1) (by decide)

/-- Settles O44. -/
theorem sensorReadings : Obligations.SensorReadings := by
  intro s v x settled range h zone served isHot read st limit flag reads decided
  have zoneEq (low : h.zone ≤ 3) : zone = zoneAfter s.thermal.zone v := (zoneAfter_eq low v).symm
  have servedEq : served ↔ runOnServed s = true ∧ v < 45 := by rw [runOnServed_eq]
  have takes {u : State} (body : (acceptTh v s).body = u.body) (tray : u.tray = s.tray) (cx : u.cx = s.cx)
      (lamp : u.lamp = s.lamp) (remote : u.remote = s.remote) (log : u.log = s.log) (hdr : u.hdr = s.hdr) : reads u := by
    refine ends_live settled rfl (f := sensorDone .lampHouse (.value v)) ?_
      (executor_rest settled.2.1 ⟨by rw [tray], cx, by rw [lamp], by rw [remote], by rw [remote], by rw [hdr]⟩)
      (by rw [logQuiet, hdr, log]; exact settled.2.2.1) ?_
    · rw [sensorDone_accepted range]
      exact body
    · rw [sensorDone_accepted range, port_acceptTh]
  have asRead (low : h.zone ≤ 3) {r : Option Nat} {b : Bool}
      (ran : (if served then none else if isHot then some s.now else h.runOn) = r) :
      { read with overTemp := b } = h.readAs v (zoneAfter s.thermal.zone v) r b := by
    rw [← zoneEq low]
    exact congrArg (fun r => h.readAs v zone r b) ran
  have done := sensorDone_accepted range s
  have trips (low : h.zone ≤ 3) (reached : st.tt ≤ v) (clear : h.overTemp = false) (warm : 45 ≤ v)
      (lit : s.lamp.state.lit = true) : (acceptTh v s).body = (State.latched .thermalTrip
        (decided (s.lamp.unlit .tripped) { read with overTemp := true, runOn := some s.now })).body := by
    have body := body_acceptTh_trips reached clear warm (fun k => by simp [k, LampState.lit] at lit) (.inl lit)
    rw [if_pos lit, ← zoneEq low] at body
    exact body
  refine ⟨fun due => ?_, fun early => ?_, fun low plain => ⟨fun stays => ?_, fun ran pending unlit turns => ?_⟩,
    fun low reached clear warm => ⟨fun lit => ⟨fun noLamp => ?_, fun waits => ?_⟩, fun unlit noLamp holds => ?_⟩, ?_⟩
  · refine ends_live settled rfl (f := startReadCycle) ?_ (executor_rest settled.2.1 ⟨rfl, rfl, rfl, rfl, rfl, rfl⟩)
      settled.2.2.1 (by rw [port_startReadCycle])
    exact (congrArg State.body (if_pos (decide_eq_true due))).trans (body_putThermal _ s)
  · refine ends_live settled rfl (f := startReadCycle) ?_ settled.2.1 settled.2.2.1 (by rw [port_startReadCycle])
    exact congrArg State.body (if_neg (by simpa [readCycleDue] using early))
  · have body := body_judgeOverTemp_plain (body_heated v s) plain
    refine takes ?_ rfl rfl rfl rfl rfl rfl
    dsimp only [decided]
    by_cases ran : served
    · rw [asRead low (if_pos ran)]
      exact body_acceptRest_ends body (servedEq.1 ran).1 ran.2 (by simp [State.heated]) fun k => stays ⟨ran, k⟩
    have keeps := fun k => ran (servedEq.2 k)
    by_cases warm : isHot
    · rw [asRead low ((if_neg ran).trans (if_pos warm))]
      exact body_acceptRest_hot body warm.1 warm.2
    · rw [asRead low ((if_neg ran).trans (if_neg warm))]
      exact body_acceptRest_keeps body keeps warm
  · have body := body_judgeOverTemp_plain (body_heated v s) plain
    refine takes ?_ rfl rfl rfl rfl rfl rfl
    rw [asRead low (if_pos ran)]
    exact body_acceptRest_enters body (servedEq.1 ran).1 ran.2 (by simp [State.heated]) pending unlit turns
  · refine ends_lampEvent settled rfl (f := sensorDone .lampHouse (.value v)) noLamp ?_ rfl rfl rfl rfl rfl
      (by rw [done, port_acceptTh])
    rw [done]
    exact trips low reached clear warm lit
  · exact ends_lampAnswered settled rfl (f := sensorDone .lampHouse (.value v))
      (by rw [done]; exact trips low reached clear warm lit) waits (.inl ⟨rfl, rfl⟩) rfl settled.2.2.1
      (by rw [done, port_acceptTh])
  · refine ends_lampEvent settled rfl (f := sensorDone .lampHouse (.value v)) noLamp ?_ rfl rfl rfl rfl rfl
      (by rw [done, port_acceptTh])
    rw [done]
    have same : { read with overTemp := true, runOn := h.runOn }
        = h.readAs v (zoneAfter s.thermal.zone v) h.runOn true := by
      rw [← zoneEq low]
      rfl
    dsimp only [decided]
    rw [same]
    by_cases tripped : s.lamp.state = .tripped
    · rw [if_pos tripped]
      exact body_acceptTh_tripped reached clear warm tripped
    · have body := body_acceptTh_trips reached clear warm tripped (.inr fun down => holds down.1 down.2.2)
      rw [if_neg (by simp [unlit])] at body
      rw [if_neg tripped]
      exact body
  · exact ends_acceptedGate settled range

end Sys2Proof.Machine
end
section
/-! The Lamp Drive's rows (R73 to R101): APPLY and the curve loads, warming and firings, lamp minutes, and the half-cycle
event stage by stage. -/

namespace Sys2Proof.Machine

/-! ## APPLY and the curve loads (R94 to R97) -/

theorem body_putClip_of (c : ClipPlayer) {s t : State} (h : t.body = s.body) :
    (putClip c t).body = ({ s with clip := c } : State).body := by
  rw [body_putClip, h]
  rfl

/-- With the record's code and its first parameter as they were, nothing else comes about (R2, R17). -/
theorem executor_rest_code {s t : State} (rest : executorStep s = none) (tray : t.tray.completion = s.tray.completion)
    (cx : t.cx = s.cx) (lamp : t.lamp.state = s.lamp.state) (net : t.remote.netCount = s.remote.netCount)
    (oneShot : t.remote.oneShot = s.remote.oneShot) (code : t.hdr.record.code = s.hdr.record.code)
    (p1 : t.hdr.record.p1 = s.hdr.record.p1) : executorStep t = none := by
  have none_ := completion_of_rest rest
  unfold executorStep sourceWaiting choiceIsLampOff at rest ⊢
  rw [none_] at rest
  rw [tray, none_, cx, lamp, net, oneShot, code, p1]
  dsimp only at rest ⊢
  cases action : s.cx.action with
  | some x =>
    rw [action] at rest
    dsimp only at rest ⊢
    split_ifs at rest ⊢ <;> rfl
  | none =>
    rw [action] at rest
    dsimp only at rest ⊢
    split_ifs at rest ⊢
    rfl

/-- A new F handed over raises Ce to it (R81, R115). -/
theorem body_handFloor {s t : State} (h : t.body = s.body) : (handFloor t).body = ({ s.recapped with
    thermal := { s.recapped.thermal with ce := max s.lamp.f s.recapped.thermal.ce } } : State).body := by
  have capped := body_updateCeiling h
  unfold handFloor
  dsimp only
  rw [body_thermal capped, body_lamp capped]
  by_cases below : s.recapped.thermal.ce < s.lamp.f
  · refine (congrArg State.body (if_pos below)).trans ((body_putThermal_of _ capped).trans ?_)
    rw [Nat.max_eq_left (Nat.le_of_lt below)]
    rfl
  · refine (congrArg State.body (if_neg below)).trans (capped.trans ?_)
    rw [Nat.max_eq_right (Nat.not_lt.1 below)]

theorem retarget_inFlight (now : Nat) (c : ClipPlayer) (b : Bool) :
    ClipPlayer.retarget now { c with inFlight := b } = { ClipPlayer.retarget now c with inFlight := b } := by
  unfold ClipPlayer.retarget
  change (if c.gainTarget = c.gainGoal then _ else if c.gainTarget = c.gain then _ else _) = _
  split_ifs <;> rfl

theorem body_handAudio {volume duck : Nat} {s t : State} (h : t.body = s.body) : (handAudio volume duck t).body =
    ({ s with clip := ClipPlayer.retarget s.now { s.clip with volume := volume, duck := duck } } : State).body := by
  rw [eq_traffic h, handAudio]
  refine (body_putClip _ _).trans ?_
  rw [body_traffic]
  exact congrArg (fun c => ({ s with clip := { c with inFlight := false } } : State).body)
    (retarget_inFlight s.now { s.clip with volume := volume, duck := duck } t.clip.inFlight)

theorem body_endPlain {code : ResultCode} {s t : State} (h : t.body = s.body)
    (active : s.hdr.record.state = .active) :
    (endPlain code t).body = (s.ended code 0 (plainLastSlot s)).body := by
  unfold endPlain
  rw [plainLastSlot_of_body h]
  exact body_endCommand h active

theorem activeWith_of_body {code : Byte} {s t : State} (h : t.body = s.body) : activeWith code t = activeWith code s := by
  rw [activeWith, activeWith, body_hdr h]

theorem activeWith_iff {code : Byte} {s : State} :
    activeWith code s = true ↔ s.hdr.record.state = .active ∧ s.hdr.record.code = code := by
  simp [activeWith]

theorem body_applyEffect {p : PendingSettings} {s t : State} (h : t.body = s.body) :
    (applyEffect p t).body = (s.applied p).body := by
  have floored := body_handFloor (body_putLamp_of { s.lamp with f := p.f, m := p.m, applyRec := none } h)
  have audio := body_handAudio (volume := p.volume) (duck := p.duck) floored
  unfold applyEffect State.applied
  rw [body_lamp h]
  dsimp only
  by_cases active : s.hdr.record.state = .active ∧ s.hdr.record.code = codeApply
  · refine (congrArg State.body (if_pos ?_)).trans ((body_endPlain audio active.1).trans ?_)
    · exact (activeWith_of_body audio).trans (activeWith_iff.2 active)
    · exact congrArg State.body (if_pos active).symm
  · refine (congrArg State.body (if_neg ?_)).trans (audio.trans ?_)
    · exact fun k => active (activeWith_iff.1 ((activeWith_of_body audio).symm.trans k))
    · exact congrArg State.body (if_neg active).symm

theorem applyWithoutLoad_takes {s : State} {p : PendingSettings} (record : s.lamp.applyRec = some p)
    (loader : s.lamp.loader = none) : applyWithoutLoad s = applyEffect p s := by
  simp [applyWithoutLoad, record, loader]

theorem applyWithoutLoad_none {s : State} (h : s.lamp.applyRec = none ∨ s.lamp.loader ≠ none) :
    applyWithoutLoad s = s := by
  unfold applyWithoutLoad
  split
  · next record loader => exact absurd h (by simp [record, loader])
  · rfl

theorem applied_frame (p : PendingSettings) (s : State) : (s.applied p).tray = s.tray ∧ (s.applied p).cx = s.cx
    ∧ (s.applied p).lamp.state = s.lamp.state ∧ (s.applied p).remote = s.remote ∧ (s.applied p).log = s.log
    ∧ (s.applied p).hdr.settings = s.hdr.settings ∧ (s.applied p).hdr.record.code = s.hdr.record.code
    ∧ (s.applied p).hdr.record.p1 = s.hdr.record.p1 := by
  unfold State.applied
  dsimp only
  split <;> exact ⟨rfl, rfl, rfl, rfl, rfl, rfl, rfl, rfl⟩

/-- An event with which an apply record takes effect. -/
theorem ends_applied {c : Instr} {f : State → State} {s u : State} {p : PendingSettings} (settled : Settled s)
    (hc : exec c s = .next (live f s)) (body : (f s).body = (u.applied p).body) (tray : u.tray = s.tray)
    (cx : u.cx = s.cx) (lamp : u.lamp.state = s.lamp.state) (remote : u.remote = s.remote) (hdr : u.hdr = s.hdr)
    (log : u.log = s.log) (access : (f s).port.access = s.port.access) : Ends c s (u.applied p) := by
  obtain ⟨tray', cx', lamp', remote', log', settings', code', p1'⟩ := applied_frame p u
  refine ends_live settled hc body ?_ ?_ access
  · exact executor_rest_code settled.2.1 (by rw [tray', tray]) (cx'.trans cx) (lamp'.trans lamp)
      (by rw [remote', remote]) (by rw [remote', remote]) (by rw [code', hdr]) (by rw [p1', hdr])
  · rw [logQuiet, settings', log', hdr, log]
    exact settled.2.2.1

theorem curveSwapNow_swaps {s : State} {ld : Loading} (loader : s.lamp.loader = some ld) (full : ld.index = 33) :
    curveSwapNow s = applyWithoutLoad (putLamp { s.lamp with
      bank := s.lamp.spare, spare := s.lamp.bank, curve := .loaded ld.curve, loader := none } s) := by
  unfold curveSwapNow
  rw [loader]
  exact if_pos full

theorem curveSwapNow_waits {s : State} (waits : ∀ x, s.lamp.loader = some x → x.index ≠ 33) : curveSwapNow s = s := by
  unfold curveSwapNow
  split
  · next l loader => exact if_neg (waits l loader)
  · rfl

theorem port_curveSwapNow (s : State) : (curveSwapNow s).port = s.port := by
  unfold curveSwapNow
  split
  · split
    · simp
    · rfl
  · rfl

theorem port_curveWord (w : Word) (s : State) : (curveWord w s).port = s.port := by
  unfold curveWord
  split
  · split
    · dsimp only
      split <;> simp
    · rfl
  · rfl

theorem body_curveWord {w : Word} {ld : Loading} {s t : State} (h : t.body = s.body) (loader : s.lamp.loader = some ld)
    (more : ld.index < 33) : (curveWord w t).body = ({ s with lamp := { s.lamp with
      spare := s.lamp.spare.setIfInBounds ld.index (if ld.index = 0 then min 4095 w.toNat
        else max (min 4095 w.toNat) ((s.lamp.spare[ld.index - 1]?).getD 0))
      loader := some { ld with index := ld.index + 1 } } } : State).body := by
  unfold curveWord
  rw [body_lamp h, loader]
  dsimp only
  rw [if_pos more]
  exact body_putLamp_of _ h

/-- Settles O43. -/
theorem applyAndCurveLoads : Obligations.ApplyAndCurveLoads := by
  intro s p ld a settled
  refine ⟨fun record loader => ?_, fun waits => ?_, fun loader full => ⟨fun record => ?_, fun record => ?_⟩,
    fun waits => ?_, fun ram who => ⟨fun void => ?_, fun kept loader more => ?_⟩⟩
  · refine ends_applied settled rfl (f := applyWithoutLoad) ?_ rfl rfl rfl rfl rfl rfl (by simp)
    rw [applyWithoutLoad_takes record loader]
    exact body_applyEffect rfl
  · exact ends_live settled rfl (f := applyWithoutLoad) (by rw [applyWithoutLoad_none waits]) settled.2.1 settled.2.2.1
      (by simp)
  · refine ends_applied settled rfl (f := curveSwapNow) ?_ rfl rfl rfl rfl rfl rfl (by rw [port_curveSwapNow])
    rw [curveSwapNow_swaps loader full, applyWithoutLoad_takes (p := p) (by simpa using record) (by simp)]
    exact body_applyEffect (body_putLamp _ s)
  · refine ends_live settled rfl (f := curveSwapNow) ?_ (executor_rest settled.2.1 ⟨rfl, rfl, rfl, rfl, rfl, rfl⟩)
      settled.2.2.1 (by rw [port_curveSwapNow])
    rw [curveSwapNow_swaps loader full, applyWithoutLoad_none (.inl (by simpa using record))]
    exact body_putLamp _ s
  · exact ends_live settled rfl (f := curveSwapNow) (by rw [curveSwapNow_waits waits]) settled.2.1 settled.2.2.1
      (by rw [port_curveSwapNow])
  · have done : endCurveRead s = freeRam s := by
      rw [endCurveRead, inRamOf_eq ram who]
      exact if_pos void
    exact ends_live settled rfl (f := endCurveRead) (by rw [done]; rfl) settled.2.1 settled.2.2.1 (by rw [done]; rfl)
  · have done : endCurveRead s = curveWord a.data (freeRam s) := by
      rw [endCurveRead, inRamOf_eq ram who]
      exact if_neg (by simp [kept])
    refine ends_live settled rfl (f := endCurveRead) ?_ (executor_rest settled.2.1 ⟨rfl, rfl, rfl, rfl, rfl, rfl⟩)
      settled.2.2.1 (by rw [done, port_curveWord]; rfl)
    rw [done]
    exact body_curveWord (s := s) rfl loader more

/-! ## Warming, firings and lamp minutes (R83, R88, R89, R100, R101) -/

/-- The lamp is ON after its warming (R88), and the duty is decided again (R108). -/
def State.lampOn (s : State) : State := State.dutied { s with lamp := { s.lamp with state := .on } }

/-- A lamp that is ON is reported: the duty is decided again, and the unit stays out of STANDBY (R108, R118). -/
theorem body_lampReport_on {old : LampState} {s t : State} (h : t.body = s.body) (on : s.lamp.state = .on) :
    (lampReport old t).body = s.dutied.body := by
  have skip : ¬(old.lit && !t.lamp.state.lit) = true := by
    rw [body_lamp h, on]
    simp [LampState.lit]
  have stays : staysUp s.dutied := fun down => by
    have lit : s.lamp.state.lit = false := down.2.1
    rw [on] at lit
    exact absurd lit (by decide)
  unfold lampReport
  simp only [if_neg skip]
  rw [if_neg (by rw [body_lamp h, on]; exact fun k => absurd k.1 (by decide))]
  exact body_evalStandby_stays (body_decideDuty h) stays

theorem body_setLampState_on {s t : State} (h : t.body = s.body) (warming : s.lamp.state = .warming) :
    (setLampState .on t).body = s.lampOn.body := by
  have on : (putLamp { s.lamp with
      state := .on, judging := s.lamp.judging && LampState.on.lit
      firing := if LampState.on.lit then s.lamp.firing else none } t).body
      = ({ s with lamp := { s.lamp with state := .on } } : State).body := by
    rw [show LampState.on.lit = true from rfl, Bool.and_true, if_pos rfl]
    exact body_putLamp_of _ h
  unfold setLampState
  rw [body_lamp h, if_neg (by simp [warming])]
  exact body_lampReport_on on rfl

theorem body_warmedUp {s t : State} (h : t.body = s.body) (warming : s.lamp.state = .warming)
    (full : s.lamp.warmTarget ≤ s.lamp.warmCount) : (warmedUp t).body = s.lampOn.body := by
  unfold warmedUp
  rw [body_lamp h, if_pos ⟨warming, full⟩]
  exact body_setLampState_on h warming

theorem body_warmedUp_waits {s t : State} (h : t.body = s.body)
    (waits : ¬(s.lamp.state = .warming ∧ s.lamp.warmTarget ≤ s.lamp.warmCount)) : (warmedUp t).body = s.body := by
  unfold warmedUp
  rw [body_lamp h, if_neg waits]
  exact h

theorem port_warmedUp (s : State) : (warmedUp s).port = s.port := by
  unfold warmedUp
  split <;> simp

theorem fireLamp_pulses {s : State} {fr : Firing} (firing : s.lamp.firing = some fr) (due : fr.time ≤ s.now) :
    fireLamp s = putLamp { s.lamp with
      firing := none
      fired := if s.lamp.state.lit && s.lamp.mainsPresent then some fr else s.lamp.fired
      judging := s.lamp.judging || (s.lamp.state.lit && s.lamp.mainsPresent && decide (400 ≤ fr.k)) } s := by
  unfold fireLamp
  rw [firing]
  exact if_pos due

theorem fireLamp_waits {s : State} (waits : ∀ fr, s.lamp.firing = some fr → s.now < fr.time) : fireLamp s = s := by
  unfold fireLamp
  split
  · next fr firing => exact if_neg (Nat.not_le.2 (waits fr firing))
  · rfl

theorem port_fireLamp (s : State) : (fireLamp s).port = s.port := by
  unfold fireLamp
  split
  · split <;> simp
  · rfl

theorem port_lampCurrentSeen (s : State) : (lampCurrentSeen s).port = s.port := by
  unfold lampCurrentSeen
  split <;> simp

theorem port_minuteTick (s : State) : (minuteTick s).port = s.port := by
  unfold minuteTick checkLife
  split
  · split <;> simp
  · rfl

/-- The minutes count one more (R100). -/
def Lamp.minuteCounted (l : Lamp) : Lamp :=
  { l with minuteUs := l.minuteUs - 60000000, minutes := min 16777215 (l.minutes + 1) }

theorem body_checkLife_quiet {s t : State} (h : t.body = s.body) (quiet : s.hdr.settings.lifeLimit = 0
    ∨ s.lamp.minutes < s.hdr.settings.lifeLimit * 60 ∨ s.lamp.lifeReported = true) : (checkLife t).body = s.body := by
  unfold checkLife
  rw [body_hdr h, body_lamp h, if_neg ?_]
  · exact h
  · rintro ⟨set, reached, clear⟩
    rcases quiet with zero | below | reported
    · exact set zero
    · omega
    · simp [clear] at reported

theorem body_checkLife_reports {s t : State} (h : t.body = s.body) (set : s.hdr.settings.lifeLimit ≠ 0)
    (reached : s.hdr.settings.lifeLimit * 60 ≤ s.lamp.minutes) (clear : s.lamp.lifeReported = false) :
    (checkLife t).body
      = (State.latched .lampLife { s with lamp := { s.lamp with lifeReported := true } }).body := by
  unfold checkLife
  rw [body_hdr h, body_lamp h, if_pos ⟨set, reached, clear⟩]
  exact body_latched (body_putLamp_of _ h)

/-- Settles O42. -/
theorem warmingAndFirings : Obligations.WarmingAndFirings := by
  intro s x fr settled
  have atRest {c : Instr} {f : State → State} {u : State} (hc : exec c s = .next (live f s))
      (body : (f s).body = u.body) (access : (f s).port = s.port) (tray : u.tray = s.tray) (cx : u.cx = s.cx)
      (lamp : u.lamp.state = s.lamp.state) (remote : u.remote = s.remote) (hdr : u.hdr = s.hdr) (log : u.log = s.log) :
      Ends c s u :=
    ends_live settled hc body (executor_rest settled.2.1 ⟨by rw [tray], cx, lamp, by rw [remote], by rw [remote],
      by rw [hdr]⟩) (by rw [logQuiet, hdr, log]; exact settled.2.2.1) (by rw [access])
  refine ⟨fun warm noLamp => ?_, fun warm waits => ?_, fun cold => ?_, fun firing due => ?_, fun firing early => ?_,
    fun none_ => ?_, fun judging => ?_, fun idle => ?_, fun early => ?_, fun due quiet => ?_,
    fun due set reached clear => ?_⟩
  · exact ends_lampEvent settled rfl (f := warmedUp) noLamp (body_warmedUp rfl warm.1 warm.2) rfl rfl rfl rfl rfl
      (by rw [port_warmedUp])
  · exact ends_lampAnswered settled rfl (f := warmedUp) (v := s.lampOn) (body_warmedUp rfl warm.1 warm.2) waits
      (.inr (.inr ⟨rfl, rfl⟩)) rfl settled.2.2.1 (by rw [port_warmedUp])
  · exact atRest rfl (body_warmedUp_waits rfl cold) (port_warmedUp s) rfl rfl rfl rfl rfl rfl
  · refine atRest (f := fireLamp) rfl ?_ (port_fireLamp s) rfl rfl rfl rfl rfl rfl
    rw [fireLamp_pulses firing due]
    refine (body_putLamp _ s).trans ?_
    simp only [Bool.and_eq_true]
    rfl
  · exact atRest (f := fireLamp) rfl (by rw [fireLamp_waits (fun y hy => by
      obtain rfl := Option.some.inj (firing.symm.trans hy)
      exact early)]) (port_fireLamp s) rfl rfl rfl rfl rfl rfl
  · exact atRest (f := fireLamp) rfl (by rw [fireLamp_waits (fun y hy => absurd (none_.symm.trans hy) (by simp))])
      (port_fireLamp s) rfl rfl rfl rfl rfl rfl
  · exact atRest (f := lampCurrentSeen) rfl ((congrArg State.body (if_pos judging)).trans (body_putLamp _ s))
      (port_lampCurrentSeen s) rfl rfl rfl rfl rfl rfl
  · exact atRest (f := lampCurrentSeen) rfl (congrArg State.body (if_neg (by simp [idle])))
      (port_lampCurrentSeen s) rfl rfl rfl rfl rfl rfl
  · exact atRest (f := minuteTick) rfl (congrArg State.body (if_neg (Nat.not_le.2 early)))
      (port_minuteTick s) rfl rfl rfl rfl rfl rfl
  · refine atRest (f := minuteTick) rfl ?_ (port_minuteTick s) rfl rfl rfl rfl rfl rfl
    exact (congrArg State.body (if_pos due)).trans
      (body_checkLife_quiet (s := { s with lamp := s.lamp.minuteCounted }) (body_putLamp _ s) quiet)
  · refine atRest (f := minuteTick) rfl ?_ (port_minuteTick s) rfl rfl rfl rfl rfl rfl
    exact (congrArg State.body (if_pos due)).trans
      (body_checkLife_reports (s := { s with lamp := s.lamp.minuteCounted }) (body_putLamp _ s) set reached clear)

end Sys2Proof.Machine
end
section
/-! The half-cycle event (R73, R74, R78 to R89), stage by stage. -/

namespace Sys2Proof.Machine

/-- The last firing judged unlit, if it waits to be judged (R89). -/
def Lamp.judgedUnlit (l : Lamp) : Lamp :=
  { l with judging := false, failures := if l.judging then l.failures + 1 else l.failures }

/-- One step of the ramp (R78). -/
def Lamp.stepped (l : Lamp) : Lamp :=
  let reached := match l.ramp with
    | some r => if r.up then decide (r.target ≤ l.q + r.increment) else decide (l.q ≤ r.target + r.increment)
    | none => false
  { l with
    q := match l.ramp with
      | some r => if r.up then min r.target (l.q + r.increment) else max r.target (l.q - r.increment)
      | none => l.q
    ramp := if reached then none else l.ramp
    rampDone := match l.ramp with
      | some r => if reached then l.rampDone ++ [{ byAction := r.byAction, offMark := r.offMark }] else l.rampDone
      | none => l.rampDone }

/-- One half-cycle of warming counted (R88). -/
def Lamp.warmCounted (l : Lamp) : Lamp :=
  { l with warmCount := if l.state = .warming then l.warmCount + 1 else l.warmCount }

/-- Ce one step nearer to C (R115). -/
def Thermal.slewed (h : Thermal) : Thermal :=
  { h with ce := if h.ce < h.c then min h.c (h.ce + 8) else h.ce }

/-- The light of a half-cycle computed (R80 to R83). -/
def State.lightComputed (crossing : Bool) (s : State) : State :=
  { s with lamp := { s.lamp with
    lout := loutOf s
    k := curveStage s.lamp.bank (loutOf s)
    firing :=
      if crossing = true ∧ s.lamp.mainsPresent = true ∧ s.lamp.state.lit = true
        ∧ curveStage s.lamp.bank (loutOf s) ≠ 0 then
        some { time := s.now + firingDelay s.lamp.h (curveStage s.lamp.bank (loutOf s))
               k := curveStage s.lamp.bank (loutOf s) }
      else none
    fired := none } }

/-- An owed dark event is sent once dark holds (R86). -/
def Lamp.darkReported (l : Lamp) : Lamp :=
  let dark := l.state ≠ .on ∨ l.mainsPresent = false ∨ l.lout ≤ l.f
  { l with
    darkOwed := if l.window = true ∧ l.darkOwed = true ∧ dark then false else l.darkOwed
    darkSent := if l.window = true ∧ l.darkOwed = true ∧ dark then true else l.darkSent }

/-- The light computed, and dark evaluated (R80 to R86). -/
def State.shone (crossing : Bool) (s : State) : State :=
  { s.lightComputed crossing with lamp := (s.lightComputed crossing).lamp.darkReported }

/-- The stages between the settings and the light: Ce, the ramp and the warming count (R78, R88, R115). -/
def State.advanced (s : State) : State :=
  { s with thermal := s.thermal.slewed, lamp := s.lamp.stepped.warmCounted }

/-- The half-cycle of the statements is these stages. -/
theorem halfCycled_eq {crossing : Bool} {s : State} (judged : s.lamp.judging = false) :
    s.halfCycled crossing = s.advanced.shone crossing := by
  have same : s.halfCycled crossing = { s.halfCycled crossing with
      lamp := { (s.halfCycled crossing).lamp with judging := s.lamp.judging, failures := s.lamp.failures } } := by
    simp only [State.halfCycled, judged, Bool.false_eq_true, if_false]
  rw [same]
  rfl

section
variable {s t : State} (h : t.body = s.body)
include h

theorem body_judgeUnlit (plain : s.lamp.judging = true → s.lamp.failures ≠ 3) :
    (judgeUnlit t).body = ({ s with lamp := s.lamp.judgedUnlit } : State).body := by
  unfold judgeUnlit Lamp.judgedUnlit
  rw [body_lamp h]
  cases judging : s.lamp.judging with
  | true =>
    have few : s.lamp.failures + 1 ≠ 4 := by
      have := plain judging
      omega
    simp only [if_true, if_neg few]
    exact body_putLamp_of _ h
  | false => exact h.trans (congrArg (fun b => ({ s with lamp := { s.lamp with judging := b } } : State).body) judging)

/-- The fourth firing in a row judged unlit (R89). -/
theorem body_judgeUnlit_fails (judging : s.lamp.judging = true) (three : s.lamp.failures = 3)
    (lit : s.lamp.state.lit = true) : (judgeUnlit t).body =
      (State.latched .lampFailed (State.putOut .failed { s with
        lamp := { s.lamp with judging := false, failures := 4 } })).body := by
  have ne : s.lamp.state ≠ .failed := fun failed => by simp [failed, LampState.lit] at lit
  unfold judgeUnlit
  rw [body_lamp h]
  refine (congrArg State.body (if_pos judging)).trans ((congrArg State.body (if_pos (by omega))).trans ?_)
  rw [three]
  exact body_latched (body_setLampState_unlit (s := { s with lamp := { s.lamp with judging := false, failures := 4 } })
    (body_putLamp_of _ h) rfl ne (.inl lit))

theorem takeUpSettings_nothing (none_ : nothingToApply s) : takeUpSettings t = t := by
  unfold takeUpSettings
  rw [body_lamp h, none_.1]
  exact applyWithoutLoad_none (.inl (by rw [body_lamp h]; exact none_.2))

theorem body_slewCeiling : (slewCeiling t).body = ({ s with thermal := s.thermal.slewed } : State).body := by
  unfold slewCeiling Thermal.slewed
  rw [body_thermal h]
  by_cases below : s.thermal.ce < s.thermal.c
  · simp only [if_pos below]
    exact body_putThermal_of _ h
  · simp only [if_neg below]
    exact h

theorem body_rampStep : (rampStep t).body = ({ s with lamp := s.lamp.stepped } : State).body := by
  unfold rampStep Lamp.stepped
  rw [body_lamp h]
  cases ramp : s.lamp.ramp with
  | none => exact h.trans (congrArg (fun r => ({ s with lamp := { s.lamp with ramp := r } } : State).body) ramp)
  | some r =>
    dsimp only
    cases up : r.up with
    | true =>
      by_cases reached : r.target ≤ s.lamp.q + r.increment
      · simp only [if_true, decide_eq_true reached, Nat.min_eq_left reached]
        exact body_putLamp_of _ h
      · simp only [if_true, decide_eq_false reached, Nat.min_eq_right (Nat.le_of_not_le reached), if_false,
          Bool.false_eq_true]
        exact (body_putLamp_of _ h).trans (by rw [ramp])
    | false =>
      by_cases reached : s.lamp.q ≤ r.target + r.increment
      · simp only [if_false, Bool.false_eq_true, if_true, decide_eq_true reached,
          Nat.max_eq_left (Nat.sub_le_iff_le_add.2 reached)]
        exact body_putLamp_of _ h
      · have past : r.target ≤ s.lamp.q - r.increment := by omega
        simp only [if_false, Bool.false_eq_true, decide_eq_false reached, Nat.max_eq_right past]
        exact (body_putLamp_of _ h).trans (by rw [ramp])

theorem body_warmStep (cold : s.lamp.state = .warming → s.lamp.warmCount + 1 < s.lamp.warmTarget) :
    (warmStep t).body = ({ s with lamp := s.lamp.warmCounted } : State).body := by
  unfold warmStep Lamp.warmCounted
  rw [body_lamp h]
  by_cases warming : s.lamp.state = .warming
  · simp only [if_pos warming]
    exact body_warmedUp_waits (body_putLamp_of _ h) fun full => absurd full.2 (Nat.not_le.2 (cold warming))
  · simp only [if_neg warming]
    exact h

/-- The half-cycle that completes the warming count (R88). -/
theorem body_warmStep_on (warming : s.lamp.state = .warming) (full : s.lamp.warmTarget ≤ s.lamp.warmCount + 1) :
    (warmStep t).body
      = (State.lampOn { s with lamp := { s.lamp with warmCount := s.lamp.warmCount + 1 } }).body := by
  unfold warmStep
  rw [body_lamp h, if_pos warming]
  exact body_warmedUp (body_putLamp_of { s.lamp with warmCount := s.lamp.warmCount + 1 } h) warming full

theorem body_computeLight {crossing : Bool} : (computeLight crossing t).body = (s.lightComputed crossing).body := by
  rw [eq_traffic h]
  unfold computeLight State.lightComputed
  refine (body_putLamp _ _).trans ?_
  have same (port : Port) (dirty : List Nat) (flight : Bool) : loutOf (s.traffic port dirty flight) = loutOf s := rfl
  rw [same, body_traffic]
  simp only [Bool.and_eq_true, decide_eq_true_eq, and_assoc]
  rfl

theorem body_sendDark : (sendDark t).body = ({ s with lamp := s.lamp.darkReported } : State).body := by
  have same : (s.lamp.window && s.lamp.darkOwed && s.lamp.dark) = true ↔ s.lamp.window = true
      ∧ s.lamp.darkOwed = true ∧ (s.lamp.state ≠ .on ∨ s.lamp.mainsPresent = false ∨ s.lamp.lout ≤ s.lamp.f) := by
    simp [Lamp.dark, and_assoc, or_assoc]
  unfold sendDark Lamp.darkReported
  rw [body_lamp h]
  by_cases due : s.lamp.window = true
      ∧ s.lamp.darkOwed = true ∧ (s.lamp.state ≠ .on ∨ s.lamp.mainsPresent = false ∨ s.lamp.lout ≤ s.lamp.f)
  · rw [if_pos (same.2 due)]
    simp only [if_pos due]
    exact body_putLamp_of _ h
  · rw [if_neg fun k => due (same.1 k)]
    simp only [if_neg due]
    exact h

theorem body_light {crossing : Bool} : (sendDark (computeLight crossing t)).body = (s.shone crossing).body :=
  body_sendDark (body_computeLight h)

/-- The stages after the settings taken up, in a lamp whose warming does not end. -/
theorem body_halfCycle_stages {crossing : Bool} (judged : s.lamp.judging = false)
    (cold : s.lamp.state = .warming → s.lamp.warmCount + 1 < s.lamp.warmTarget) :
    (sendDark (computeLight crossing (warmStep (rampStep (slewCeiling t))))).body = (s.halfCycled crossing).body := by
  rw [halfCycled_eq judged]
  exact body_light (body_warmStep (body_rampStep (body_slewCeiling h)) cold)

/-- A half-cycle event in which the lamp neither fails nor ends its warming. -/
theorem body_halfCycle {crossing : Bool} (plain : plainHalfCycle s) :
    (halfCycle crossing t).body = (s.halfCycled crossing).body := by
  obtain ⟨loader, record, judging, cold⟩ := plain
  have judged := body_judgeUnlit h judging
  unfold halfCycle
  rw [takeUpSettings_nothing judged ⟨loader, record⟩]
  exact (body_halfCycle_stages judged rfl cold).trans rfl

/-- The half-cycle event that makes the lamp ON (R88). -/
theorem body_halfCycle_on {crossing : Bool} (none_ : nothingToApply s)
    (judging : s.lamp.judging = true → s.lamp.failures ≠ 3) (warming : s.lamp.state = .warming)
    (full : s.lamp.warmTarget ≤ s.lamp.warmCount + 1) : (halfCycle crossing t).body =
      (State.halfCycled crossing (State.dutied { s with
        lamp := { s.lamp with state := .on, warmCount := s.lamp.warmCount + 1 } })).body := by
  have judged := body_judgeUnlit h judging
  let u : State := State.dutied { s with
    lamp := { s.lamp.judgedUnlit with state := .on, warmCount := s.lamp.warmCount + 1 } }
  have on := body_warmStep_on (body_rampStep (body_slewCeiling judged)) warming full
  unfold halfCycle
  rw [takeUpSettings_nothing judged none_]
  calc _ = (u.advanced.shone crossing).body := body_light (on.trans rfl)
    _ = (u.halfCycled crossing).body := by rw [halfCycled_eq rfl]
    _ = _ := rfl

/-- The half-cycle event with the fourth failure (R89). -/
theorem body_halfCycle_fails {crossing : Bool} (none_ : nothingToApply s) (judging : s.lamp.judging = true)
    (three : s.lamp.failures = 3) (lit : s.lamp.state.lit = true) : (halfCycle crossing t).body =
      (State.halfCycled crossing (State.dutied (State.latched .lampFailed { s with
        lamp := { s.lamp with state := .failed, judging := false, failures := 4 }
        thermal := { s.thermal with runOn := some s.now } }))).body := by
  have judged := body_judgeUnlit_fails h judging three lit
  unfold halfCycle
  rw [takeUpSettings_nothing judged none_]
  refine (body_halfCycle_stages judged rfl fun warming => nomatch warming).trans ?_
  unfold State.putOut
  rw [if_pos lit]
  rfl

end

theorem halfCycled_frame (c : Bool) (s : State) : (s.halfCycled c).tray = s.tray ∧ (s.halfCycled c).cx = s.cx
    ∧ (s.halfCycled c).lamp.state = s.lamp.state ∧ (s.halfCycled c).remote = s.remote ∧ (s.halfCycled c).hdr = s.hdr
    ∧ (s.halfCycled c).log = s.log := ⟨rfl, rfl, rfl, rfl, rfl, rfl⟩

theorem port_halfCycle (c : Bool) (s : State) : (halfCycle c s).port = s.port := by
  have light (c : Bool) (s : State) : (sendDark (computeLight c s)).port = s.port := by
    unfold sendDark computeLight
    split <;> simp
  have judge (s : State) : (judgeUnlit s).port = s.port := by
    unfold judgeUnlit
    split
    · dsimp only
      split <;> simp
    · rfl
  have warm (s : State) : (warmStep s).port = s.port := by
    unfold warmStep
    split
    · rw [port_warmedUp]
      simp
    · rfl
  have ramp (s : State) : (rampStep s).port = s.port := by
    unfold rampStep
    split
    · rfl
    · simp [apply_ite State.port]
  have slew (s : State) : (slewCeiling s).port = s.port := by
    unfold slewCeiling
    split <;> simp
  have take (s : State) : (takeUpSettings s).port = s.port := by
    unfold takeUpSettings
    split
    · exact port_curveSwapNow s
    · simp
  rw [halfCycle, light, warm, ramp, slew, take, judge]

theorem port_crossing (s : State) : (crossing s).port = s.port := by
  unfold crossing
  split
  · dsimp only
    split
    · rw [port_halfCycle]
      simp
    · rfl
  · rw [port_halfCycle]
    simp

theorem port_loseMains (s : State) : (loseMains s).port = s.port := by
  unfold loseMains
  split
  · rw [port_halfCycle]
    simp
  · rfl

theorem port_substitute (s : State) : (substitute s).port = s.port := by
  unfold substitute
  split
  · rw [port_halfCycle]
    simp
  · rfl

/-- The history takes an accepted measurement, and H is worked out again (R73). -/
def Lamp.crossedAt (now m : Nat) (l : Lamp) : Lamp :=
  { l with history := l.history.drop 1 ++ [m], h := averageOf (l.history.drop 1 ++ [m]), lastCross := now }

theorem crossing_accepted {s : State} (present : s.lamp.mainsPresent = true)
    (low : 7500 ≤ s.now - s.lamp.lastCross) (high : s.now - s.lamp.lastCross ≤ 11000) :
    crossing s = halfCycle true (putLamp (s.lamp.crossedAt s.now (s.now - s.lamp.lastCross)) s) :=
  (if_pos present).trans (if_pos ⟨low, high⟩)

theorem crossing_refused {s : State} (present : s.lamp.mainsPresent = true)
    (out : s.now - s.lamp.lastCross < 7500 ∨ 11000 < s.now - s.lamp.lastCross) : crossing s = s :=
  (if_pos present).trans (if_neg fun ⟨low, high⟩ => out.elim (Nat.not_lt.2 low) (Nat.not_lt.2 high))

theorem crossing_returns {s : State} (absent : s.lamp.mainsPresent = false) :
    crossing s = halfCycle true (putLamp { s.lamp with mainsPresent := true, lastCross := s.now } s) :=
  if_neg (by simp [absent])

theorem mainsLossDue_iff {s : State} :
    mainsLossDue s = true ↔ s.lamp.mainsPresent = true ∧ 15000 ≤ s.now - s.lamp.lastCross := by
  unfold mainsLossDue
  rw [Bool.and_eq_true, decide_eq_true_iff]
  rfl

theorem substituteDue_iff {s : State} :
    substituteDue s = true ↔ s.lamp.mainsPresent = false ∧ s.lamp.nextSub ≤ s.now := by
  simp [substituteDue]

/-- Settles O40: a half-cycle event goes through its stages, and the executor follows the lamp's state only. -/
theorem halfCycleEvents : Obligations.HalfCycleEvents := by
  intro s x settled l m history crossed accepted warm on fails failed
  have atRest {c : Instr} {f : State → State} {u : State} {b : Bool} (hc : exec c s = .next (live f s))
      (body : (f s).body = (u.halfCycled b).body) (access : (f s).port = s.port) (tray : u.tray = s.tray)
      (cx : u.cx = s.cx) (lamp : u.lamp.state = s.lamp.state) (remote : u.remote = s.remote) (hdr : u.hdr = s.hdr)
      (log : u.log = s.log) : Ends c s (u.halfCycled b) := by
    obtain ⟨tray', cx', lamp', remote', hdr', log'⟩ := halfCycled_frame b u
    exact ends_live settled hc body (executor_rest settled.2.1 ⟨by rw [tray', tray], cx'.trans cx, lamp'.trans lamp,
      by rw [remote', remote], by rw [remote', remote], by rw [hdr', hdr]⟩)
      (by rw [logQuiet, hdr', log', hdr, log]; exact settled.2.2.1) (by rw [access])
  have turnsOn (k : warm) : (crossing s).body = on.body := by
    obtain ⟨⟨present, low, high⟩, none_, judging, warming, full⟩ := k
    rw [crossing_accepted present low high]
    exact body_halfCycle_on (s := { s with lamp := crossed }) (body_putLamp _ s) none_ judging warming full
  have goesOut (k : fails) : (crossing s).body = failed.body := by
    obtain ⟨⟨present, low, high⟩, none_, judging, three, lit⟩ := k
    rw [crossing_accepted present low high]
    exact body_halfCycle_fails (s := { s with lamp := crossed }) (body_putLamp _ s) none_ judging three lit
  refine ⟨fun plain ⟨present, low, high⟩ => ?_, fun present out => ?_, fun plain absent => ?_,
    fun plain present late => ?_, fun early => ?_, fun plain absent due => ?_, fun early => ?_, fun k noLamp => ?_,
    fun k waits => ?_, fun k noLamp => ?_, fun k waits => ?_⟩
  · refine atRest (f := crossing) rfl ?_ (port_crossing s) rfl rfl rfl rfl rfl rfl
    rw [crossing_accepted present low high]
    exact body_halfCycle (s := { s with lamp := crossed }) (body_putLamp _ s) plain
  · exact ends_live settled rfl (f := crossing) (by rw [crossing_refused present out]) settled.2.1 settled.2.2.1
      (by rw [port_crossing])
  · refine atRest (f := crossing) rfl ?_ (port_crossing s) rfl rfl rfl rfl rfl rfl
    rw [crossing_returns absent]
    exact body_halfCycle (s := { s with lamp := { s.lamp with mainsPresent := true, lastCross := s.now } })
      (body_putLamp _ s) plain
  · refine atRest (f := loseMains) rfl ?_ (port_loseMains s) rfl rfl rfl rfl rfl rfl
    exact (congrArg State.body (if_pos (mainsLossDue_iff.2 ⟨present, late⟩))).trans
      (body_halfCycle (body_latched (body_putLamp_of (s := s) _ rfl)) plain)
  · have notDue : ¬mainsLossDue s = true := fun due =>
      early.elim (by simp [(mainsLossDue_iff.1 due).1, l]) (Nat.not_lt.2 (mainsLossDue_iff.1 due).2)
    exact ends_live settled rfl (f := loseMains) (congrArg State.body (if_neg notDue)) settled.2.1 settled.2.2.1
      (by rw [port_loseMains])
  · refine atRest (f := substitute) rfl ?_ (port_substitute s) rfl rfl rfl rfl rfl rfl
    exact (congrArg State.body (if_pos (substituteDue_iff.2 ⟨absent, due⟩))).trans
      (body_halfCycle (body_putLamp_of (s := s) _ rfl) plain)
  · have notDue : ¬substituteDue s = true := fun due =>
      early.elim (by simp [(substituteDue_iff.1 due).1, l]) (Nat.not_lt.2 (substituteDue_iff.1 due).2)
    exact ends_live settled rfl (f := substitute) (congrArg State.body (if_neg notDue)) settled.2.1 settled.2.2.1
      (by rw [port_substitute])
  · exact ends_lampEvent settled rfl (f := crossing) noLamp (turnsOn k) rfl rfl rfl rfl rfl (by rw [port_crossing])
  · exact ends_lampAnswered settled rfl (f := crossing) (turnsOn k) waits (.inr (.inr ⟨rfl, rfl⟩)) rfl settled.2.2.1
      (by rw [port_crossing])
  · exact ends_lampEvent settled rfl (f := crossing) noLamp (goesOut k) rfl rfl rfl rfl rfl (by rw [port_crossing])
  · exact ends_lampAnswered settled rfl (f := crossing) (goesOut k) waits (.inr (.inl ⟨rfl, rfl⟩)) rfl settled.2.2.1
      (by rw [port_crossing])

end Sys2Proof.Machine
end
section
/-! The Record Shadow's lookups and the transport's pins (R56 to R58, R62): each changes the Watch Table only, and what it
makes of it depends on the table, the bases and the lookups of the users alone. -/

namespace Sys2Proof.Machine

/-! ## What an operation of the Record Shadow changes -/

/-- The operation changes the Watch Table, up to the traffic, and nothing else. -/
def OnlyShadow (s t : State) : Prop := t.body = ({ s with shadow := t.shadow } : State).body

theorem OnlyShadow.refl (s : State) : OnlyShadow s s := rfl

theorem OnlyShadow.trans {s t u : State} (h : OnlyShadow s t) (k : OnlyShadow t u) : OnlyShadow s u := by
  refine Eq.trans k ?_
  have same := congrArg (fun b : State => { b with shadow := u.shadow }) h
  exact same

theorem onlyShadow_putShadow (sh : Shadow) (s : State) : OnlyShadow s (putShadow sh s) := by
  refine (body_putShadow sh s).trans ?_
  rw [putShadow_shadow]
  rfl

theorem onlyShadow_lookup (kind : RecKind) (key : Nat) (pin : Bool) (s : State) :
    OnlyShadow s (lookup kind key pin s).1 := by
  unfold lookup
  dsimp only
  repeat' split
  all_goals first
    | exact OnlyShadow.refl s
    | exact onlyShadow_putShadow _ s

theorem onlyShadow_serveWaiting (s : State) : OnlyShadow s (serveWaiting s) := by
  unfold serveWaiting
  generalize waitingLookups s = ls
  induction ls generalizing s with
  | nil => exact OnlyShadow.refl s
  | cons l rest ih => exact (onlyShadow_lookup l.kind l.key l.pin s).trans (ih _)

theorem onlyShadow_lowerPin (kind : RecKind) (key : Nat) (s : State) : OnlyShadow s (lowerPin kind key s) := by
  unfold lowerPin
  dsimp only
  repeat' split
  all_goals first
    | exact OnlyShadow.refl s
    | exact onlyShadow_putShadow _ s

theorem onlyShadow_releasePin (kind : RecKind) (key : Nat) (s : State) : OnlyShadow s (releasePin kind key s) := by
  unfold releasePin
  split
  · exact (onlyShadow_lowerPin kind key s).trans (onlyShadow_serveWaiting _)
  · exact onlyShadow_lowerPin kind key s

/-! ## What it depends on -/

/-- Two states with one Watch Table, one set of bases and the same lookups of the users. -/
structure SameLookups (s t : State) : Prop where
  shadow : t.shadow = s.shadow
  settings : t.hdr.settings = s.hdr.settings
  users : userLookups t = userLookups s

theorem recordBase_congr {s t : State} (settings : t.hdr.settings = s.hdr.settings) (kind : RecKind) :
    recordBase kind t = recordBase kind s := by
  cases kind <;> simp only [recordBase, settings]

theorem lookup_congr {s t : State} (shadow : t.shadow = s.shadow) (settings : t.hdr.settings = s.hdr.settings)
    (kind : RecKind) (key : Nat) (pin : Bool) : (lookup kind key pin t).1.shadow = (lookup kind key pin s).1.shadow
      ∧ (lookup kind key pin t).2 = (lookup kind key pin s).2 := by
  unfold lookup
  rw [recordBase_congr settings, shadow]
  split
  · exact ⟨shadow, rfl⟩
  · dsimp only
    split
    · split
      · simp
      · simp
      · exact ⟨shadow, rfl⟩
    · split
      · simp
      · exact ⟨shadow, rfl⟩

theorem foldl_lookup_congr (ls : List RecordLookup) {s t : State} (shadow : t.shadow = s.shadow)
    (settings : t.hdr.settings = s.hdr.settings) :
    (ls.foldl (fun s l => (lookup l.kind l.key l.pin s).1) t).shadow
      = (ls.foldl (fun s l => (lookup l.kind l.key l.pin s).1) s).shadow := by
  induction ls generalizing s t with
  | nil => exact shadow
  | cons l rest ih => exact ih (lookup_congr shadow settings l.kind l.key l.pin).1 (by simp [settings])

theorem waitingLookups_congr {s t : State} (same : SameLookups s t) : waitingLookups t = waitingLookups s := by
  rw [waitingLookups, waitingLookups, same.users, same.shadow]

theorem serveWaiting_congr {s t : State} (same : SameLookups s t) : (serveWaiting t).shadow = (serveWaiting s).shadow := by
  unfold serveWaiting
  rw [waitingLookups_congr same]
  exact foldl_lookup_congr _ same.shadow same.settings

theorem lowerPin_congr {s t : State} (shadow : t.shadow = s.shadow) (kind : RecKind) (key : Nat) :
    (lowerPin kind key t).shadow = (lowerPin kind key s).shadow := by
  unfold lowerPin
  rw [shadow]
  dsimp only
  split
  · split
    · split <;> simp
    · simp
    · simp
    · exact shadow
  · exact shadow

theorem userLookups_lowerPin (kind : RecKind) (key : Nat) (s : State) :
    userLookups (lowerPin kind key s) = userLookups s := by
  simp [userLookups]

theorem releasePin_congr {s t : State} (same : SameLookups s t) (kind : RecKind) (key : Nat) :
    (releasePin kind key t).shadow = (releasePin kind key s).shadow := by
  unfold releasePin
  rw [same.shadow]
  split
  · refine serveWaiting_congr ⟨lowerPin_congr same.shadow kind key, ?_, ?_⟩
    · simp [same.settings]
    · rw [userLookups_lowerPin, userLookups_lowerPin, same.users]
  · exact lowerPin_congr same.shadow kind key

/-! ## A pin found, and one released (R56, R57, R62) -/

/-- A record found stands in an entry that is FILLING or VALID. -/
theorem entry_of_find {sh : Shadow} {kind : RecKind} {key i : Nat} (h : sh.find kind key = some i) :
    ∃ d : EntryData, (sh.entry i).fields = some d ∧ d.kind = kind ∧ d.key = key := by
  unfold Shadow.find at h
  obtain ⟨hi, holds, -⟩ := List.findIdx?_eq_some_iff_getElem.1 h
  have entry : sh.entry i = sh.table.toList[i] := by
    have hi' : i < 16 := by simpa using hi
    simp [Shadow.entry, hi']
  rw [← entry] at holds
  unfold WatchEntry.holds at holds
  split at holds
  · next d fields => exact ⟨d, fields, by simpa using holds⟩
  · exact absurd holds (by simp)

theorem shadow_lowerPin {kind : RecKind} {key m : Nat} {s : State} (found : s.shadow.find kind key = some m) :
    (lowerPin kind key s).shadow = s.shadow.released m := by
  obtain ⟨d, fields, -, -⟩ := entry_of_find found
  unfold lowerPin Shadow.released
  simp only [found]
  cases entry : s.shadow.entry m with
  | free => simp [entry, WatchEntry.fields] at fields
  | filling d => simp
  | valid d stale used =>
    cases stale with
    | true => by_cases last : d.pins ≤ 1 <;> simp [last]
    | false => simp

/-- A release that serves no lookup that waits (R62). -/
theorem shadow_releasePin {kind : RecKind} {key m : Nat} {s : State} (found : s.shadow.find kind key = some m)
    (none_ : waitingLookups { s with shadow := s.shadow.released m } = []) :
    (releasePin kind key s).shadow = s.shadow.released m := by
  have lowered := shadow_lowerPin found
  unfold releasePin
  split
  · rw [serveWaiting_of_none]
    · exact lowered
    · rw [← none_]
      refine waitingLookups_congr ⟨lowered, by simp, userLookups_lowerPin kind key s⟩
  · exact lowered

/-! ## The transport's pins (R34, R62) -/

theorem body_releasePin {kind : RecKind} {key : Nat} {s t : State} (h : t.body = s.body) :
    (releasePin kind key t).body = ({ s with shadow := (releasePin kind key s).shadow } : State).body := by
  have same : (releasePin kind key t).shadow = (releasePin kind key s).shadow := by
    refine releasePin_congr ⟨body_shadow h, by rw [body_hdr h], ?_⟩ kind key
    exact userLookups_congr (body_tray h) (body_clipStart h)
  have only : (releasePin kind key t).body = ({ t with shadow := (releasePin kind key t).shadow } : State).body :=
    onlyShadow_releasePin kind key t
  rw [only, same]
  exact congrArg (fun b : State => { b with shadow := (releasePin kind key s).shadow }) h

theorem body_releaseDest {s t : State} (h : t.body = s.body) : (releaseDest t).body = ({ s with
    tray := { s.tray with destPin := none }, shadow := (releaseDest s).shadow } : State).body := by
  unfold releaseDest
  rw [body_tray h]
  cases pin : s.tray.destPin with
  | none => exact h.trans (congrArg (fun d => ({ s with tray := { s.tray with destPin := d } } : State).body) pin)
  | some slot =>
    refine (body_releasePin (body_putTray_of { s.tray with destPin := none } h)).trans ?_
    dsimp only
    rw [releasePin_congr (s := putTray { s.tray with destPin := none } s)
      ⟨by simp, by simp, userLookups_congr (by simp) (by simp)⟩]

theorem body_releaseShown {s t : State} (h : t.body = s.body) : (releaseShown t).body = ({ s with
    tray := { s.tray with shownPin := none }, shadow := (releaseShown s).shadow } : State).body := by
  unfold releaseShown
  rw [body_tray h]
  cases pin : s.tray.shownPin with
  | none => exact h.trans (congrArg (fun d => ({ s with tray := { s.tray with shownPin := d } } : State).body) pin)
  | some slot =>
    refine (body_releasePin (body_putTray_of { s.tray with shownPin := none } h)).trans ?_
    dsimp only
    rw [releasePin_congr (s := putTray { s.tray with shownPin := none } s)
      ⟨by simp, by simp, userLookups_congr (by simp) (by simp)⟩]

/-- Two states with one Watch Table, one set of bases and the same pins and waits of the users. -/
structure SamePins (s t : State) : Prop where
  shadow : t.shadow = s.shadow
  settings : t.hdr.settings = s.hdr.settings
  dest : t.tray.destPin = s.tray.destPin
  wait : searchLookups t.tray.wait = searchLookups s.tray.wait
  shown : t.tray.shownPin = s.tray.shownPin
  start : t.clip.start = s.clip.start

theorem SamePins.lookups {s t : State} (same : SamePins s t) : SameLookups s t :=
  ⟨same.shadow, same.settings, by rw [userLookups, userLookups, same.dest, same.wait, same.shown, same.start]⟩

theorem shadow_releaseDest_congr {s t : State} (same : SamePins s t) :
    (releaseDest t).shadow = (releaseDest s).shadow := by
  unfold releaseDest
  rw [same.dest]
  cases s.tray.destPin with
  | none => exact same.shadow
  | some slot =>
    exact releasePin_congr (SamePins.lookups ⟨by simp [same.shadow], by simp [same.settings], by simp, by simp [same.wait],
      by simp [same.shown], by simp [same.start]⟩) .slot slot

theorem shadow_releaseShown_congr {s t : State} (same : SamePins s t) :
    (releaseShown t).shadow = (releaseShown s).shadow := by
  unfold releaseShown
  rw [same.shown]
  cases s.tray.shownPin with
  | none => exact same.shadow
  | some slot =>
    exact releasePin_congr (SamePins.lookups ⟨by simp [same.shadow], by simp [same.settings], by simp [same.dest],
      by simp [same.wait], by simp, by simp [same.start]⟩) .slot slot

/-- The pins released in a transport that waits for no record, its other fields as they are. -/
theorem body_releasePins {s t : State} {tr : Tray} (h : t.body = ({ s with tray := tr } : State).body)
    (dest : tr.destPin = s.tray.destPin) (shown : tr.shownPin = s.tray.shownPin) (wait : tr.wait = .none) :
    (releaseShown (releaseDest t)).body = ({ s with
      tray := { tr with destPin := none, shownPin := none }, shadow := s.unpinned.shadow } : State).body := by
  let w : State := { s with tray := { s.tray with wait := .none } }
  let v : State := { s with tray := tr }
  have destSame : (releaseDest v).shadow = (releaseDest w).shadow :=
    shadow_releaseDest_congr ⟨rfl, rfl, dest, by rw [show v.tray.wait = .none from wait], shown, rfl⟩
  have d := body_releaseDest h
  have dw := body_releaseDest (s := w) (t := w) rfl
  refine (body_releaseShown d).trans ?_
  have shownSame : (releaseShown { v with tray := { v.tray with destPin := none }, shadow := (releaseDest v).shadow }).shadow
      = s.unpinned.shadow := by
    refine shadow_releaseShown_congr ⟨destSame, ?_, ?_, ?_, ?_, ?_⟩
    · exact (congrArg Header.settings (body_hdr dw)).symm
    · exact (congrArg Tray.destPin (body_tray dw)).symm
    · have hw := congrArg Tray.wait (body_tray dw)
      rw [show v.tray.wait = .none from wait]
      exact congrArg searchLookups hw.symm
    · exact shown.trans (congrArg Tray.shownPin (body_tray dw)).symm
    · exact (body_clipStart dw).symm
  exact congrArg (fun sh => ({ v with
    tray := { tr with destPin := none, shownPin := none }, shadow := sh } : State).body) shownSame

theorem unpinned_body (s : State) : s.unpinned.body = ({ s with
    tray := { s.tray with wait := .none, destPin := none, shownPin := none }, shadow := s.unpinned.shadow } : State).body :=
  body_releasePins (tr := { s.tray with wait := .none }) rfl rfl rfl rfl

/-! ## The answers of the transport (R42) -/

/-- The transport's completion event is on its way, with the values it answered. -/
def Tray.completed (o : TrayOutcome) (t : Tray) : Tray :=
  { t with completion := some { outcome := o, remaining := t.remaining, lastSlot := t.lastSlot } }

theorem answered_some {t : Tray} {r : TrayRequest} (h : t.request = some r) : t.answered = { t with
    request := none, wait := .none, repin := false
    remaining := (t.endValues r).1, lastSlot := (t.endValues r).2 } := by
  cases plan : r.plan <;> simp [Tray.answered, Tray.endValues, Tray.slotIfKnown, h, plan]

theorem answered_none {t : Tray} (h : t.request = none) : t.answered = t := by
  unfold Tray.answered
  rw [h]

theorem body_endRequest {o : TrayOutcome} {r : TrayRequest} {s t : State} (h : t.body = s.body)
    (request : s.tray.request = some r) :
    (endRequest o t).body = ({ s with tray := s.tray.answered.completed o } : State).body := by
  unfold endRequest sendCompletion
  rw [body_tray h, request]
  dsimp only
  rw [answered_some request]
  have ended := body_putTray_of { s.tray with request := none, wait := .none, repin := false } h
  rw [body_tray ended]
  exact (body_putTray_of _ ended).trans rfl

theorem endRequest_none {o : TrayOutcome} {s t : State} (h : t.body = s.body) (request : s.tray.request = none) :
    endRequest o t = t := by
  unfold endRequest
  rw [body_tray h, request]

/-! ## The executor at the transport's answer (R10) -/

/-- The result of an action whose request the transport has answered, unless the action goes on (R10). -/
def Action.resultOf (x : Action) : TrayOutcome → Option ResultCode
  | .jammed => some .jammed
  | .trayOut => some .trayOut
  | .refused => some .aborted
  | .stopped => some .aborted
  | .ok => some (if x.stopped then .aborted else .ok)
  | .empty => if x.stopped then some .aborted else if x.restore = none then some .ok else none
  | .seated => if x.stopped then some .aborted else none

/-- The action that has its answer, with the window closed. -/
def trayAnswered (x : Action) (c : TrayCompletion) (t : State) : State :=
  setAction { x with window := false, completion := some (c.remaining, c.lastSlot) }
    (if x.window then closeWindow t else t)

theorem executorStep_answered {s : State} {c : TrayCompletion} (h : s.tray.completion = some c) :
    executorStep s = some (transportCompleted c (putTray { s.tray with completion := none } s)) := by
  unfold executorStep
  rw [h]

theorem setAction_action (x : Action) (s : State) : (setAction x s).cx.action = some x := by
  simp [setAction]

theorem transportCompleted_ends {x : Action} {c : TrayCompletion} {code : ResultCode} {t : State}
    (action : t.cx.action = some x) (phase : x.phase = .moving) (issued : x.issued = true)
    (result : x.resultOf c.outcome = some code) :
    transportCompleted c t = endAction code (trayAnswered x c t) := by
  unfold transportCompleted
  rw [action]
  dsimp only
  rw [if_pos ⟨phase, issued⟩]
  unfold trayAnswered
  cases outcome : c.outcome <;> rw [outcome] at result <;> simp only [Action.resultOf] at result
  case empty =>
    split at result
    · next stopped => simp_all
    · next going =>
      split at result
      · next none_ =>
        simp only [if_neg going, restoreOrEnd, setAction_action, none_]
        simp_all
      · cases result
  all_goals simp_all
  all_goals split <;> simp_all

/-- The action as it stands once it has its answer. -/
def Action.answeredWith (x : Action) (values : Nat × Nat) : Action :=
  { x with window := false, completion := some values }

/-- The state in which the action has its answer (R10). -/
def State.trayAnswered (x : Action) (values : Nat × Nat) (s : State) : State :=
  { s with lamp := s.lamp.windowShut x, cx := { s.cx with action := some (x.answeredWith values) } }

theorem body_shut {x : Action} {s t : State} (h : t.body = s.body) :
    (if x.window then closeWindow t else t).body = ({ s with lamp := s.lamp.windowShut x } : State).body := by
  unfold Lamp.windowShut
  cases window : x.window
  · simpa using h
  · simpa using body_closeWindow h

theorem body_setAction {x : Action} {s t : State} (h : t.body = s.body) : (setAction x t).body = (s.doing x).body := by
  unfold setAction
  rw [body_cx h]
  exact body_putCx_of (s := s) (c := { s.cx with action := some x }) h rfl

theorem body_trayAnswered {x : Action} {c : TrayCompletion} {s t : State} (h : t.body = s.body) :
    (trayAnswered x c t).body = (s.trayAnswered x (c.remaining, c.lastSlot)).body :=
  (body_setAction (body_shut h)).trans rfl

theorem actionEnded_trayAnswered (x : Action) (code : ResultCode) (values : Nat × Nat) (s : State) :
    (s.trayAnswered x values).actionEnded (x.answeredWith values) code values = s.actionEnded x code values := by
  have shut : ((s.trayAnswered x values).lamp).windowShut (x.answeredWith values) = s.lamp.windowShut x :=
    if_neg (by simp [Action.answeredWith])
  simp only [State.actionEnded, shut]
  rfl

/-- The transport's answer, and the executor at the action that waits for it (R10, R13). -/
theorem courses_answered {o : TrayOutcome} {s t : State}
    (h : t.body = ({ s with tray := s.tray.completed o } : State).body) (completion : s.tray.completion = none) :
    ∃ w, w.body = s.body ∧ w.port = t.port ∧ executorStep t = some (transportCompleted
      { outcome := o, remaining := s.tray.remaining, lastSlot := s.tray.lastSlot } w) := by
  refine ⟨putTray { t.tray with completion := none } t, ?_, by simp, executorStep_answered (by rw [body_tray h]; rfl)⟩
  rw [body_tray h]
  refine (body_putTray_of _ h).trans ?_
  exact congrArg (fun c => ({ s with tray := { s.tray with completion := c } } : State).body) completion.symm

/-- **The transport answers**, and the action that waits for it ends (R10, R22). -/
theorem ends_moveEnded {c : Instr} {f : State → State} {s v : State} {x : Action} {o : TrayOutcome} {code : ResultCode}
    (settled : Settled s) (hc : exec c s = .next (live f s))
    (body : (f s).body = ({ v with tray := v.tray.completed o } : State).body) (action : v.cx.action = some x)
    (phase : x.phase = .moving) (issued : x.issued = true) (alone : endsAlone v x)
    (completion : v.tray.completion = none) (result : x.resultOf o = some code) (quiet : logQuiet v)
    (access : (f s).port.access = s.port.access) : Ends c s (v.moveEnded x code) := by
  obtain ⟨sources, room, active⟩ := alone
  obtain ⟨w, wBody, wPort, step⟩ := courses_answered body completion
  rw [transportCompleted_ends (by rw [body_cx wBody]; exact action) phase issued result] at step
  have answered := body_trayAnswered (x := x)
    (c := { outcome := o, remaining := v.tray.remaining, lastSlot := v.tray.lastSlot }) wBody
  have rest := executorStep_endAction (code := code) answered rfl completion sources
  have same : (v.trayAnswered x (v.tray.remaining, v.tray.lastSlot)).actionEnded
      (x.answeredWith (v.tray.remaining, v.tray.lastSlot)) code
      ((x.answeredWith (v.tray.remaining, v.tray.lastSlot)).answer
        (v.trayAnswered x (v.tray.remaining, v.tray.lastSlot))) = v.moveEnded x code :=
    actionEnded_trayAnswered x code _ v
  have course := courses_step step rest
  refine ends_courses hc settled.1 ?_ (executorStep_actionEnded completion sources) ?_ ?_
  · rw [course, ← same]
    exact body_logPump_endAction answered rfl quiet room active
  · unfold State.moveEnded
    rw [actionEnded_eq]
    exact logQuiet_posted quiet
  · rw [course, port_logPump, hostWaits_congr (q := s.port)]
    · exact settled.2.2.2
    · rw [← access, ← wPort]
      simp [trayAnswered, setAction, apply_ite State.port]

end Sys2Proof.Machine
end
section
/-! The tray's own events (R27, R28, R36 to R48): the limit switches, the time limits, the removal and the seating. -/

namespace Sys2Proof.Machine

/-! ## Events after which nothing else comes about -/

/-- An event that leaves alone what the executor and the Log Writer look at. -/
theorem ends_still {c : Instr} {f : State → State} {s u : State} (settled : Settled s)
    (hc : exec c s = .next (live f s)) (body : (f s).body = u.body)
    (completion : u.tray.completion = s.tray.completion) (cx : u.cx = s.cx) (lamp : u.lamp.state = s.lamp.state)
    (remote : u.remote = s.remote) (hdr : u.hdr = s.hdr) (log : u.log = s.log)
    (access : (f s).port.access = s.port.access) : Ends c s u := by
  refine ends_live settled hc body (executor_rest settled.2.1 ⟨completion, cx, lamp, by rw [remote], by rw [remote],
    by rw [hdr]⟩) ?_ access
  rw [logQuiet, hdr, log]
  exact settled.2.2.1

/-- An event that changes nothing. -/
theorem ends_nothing {c : Instr} {f : State → State} {s : State} (settled : Settled s)
    (hc : exec c s = .next (live f s)) (same : f s = s) : Ends c s s :=
  ends_live settled hc (by rw [same]) settled.2.1 settled.2.2.1 (by rw [same])

/-! ## The lift (R36) -/

/-- LIFT releases the pin of a slide shown, and what the entry then leaves is v, but for that pin. -/
def LiftsTo (t v : State) : Prop :=
  (v.tray.shownPin = none → t.body = v.body) ∧
  ∀ k m, v.tray.shownPin = some k → v.shadow.find .slot k = some m → noLookupWaits (v.unshown m) →
    t.body = (v.unshown m).body

theorem liftsTo_releaseShown {s t : State} (h : t.body = s.body) : LiftsTo (releaseShown t) s := by
  have released := body_releaseShown h
  constructor
  · intro none_
    refine released.trans ?_
    have same : (releaseShown s).shadow = s.shadow := by rw [releaseShown, none_]
    rw [same]
    exact congrArg (fun p => ({ s with tray := { s.tray with shownPin := p } } : State).body) none_.symm
  · intro k m some_ found waits
    refine released.trans ?_
    have same : (releaseShown s).shadow = s.shadow.released m := by
      rw [releaseShown, some_]
      have found' : (putTray { s.tray with shownPin := none } s).shadow.find .slot k = some m := by simpa using found
      refine (shadow_releasePin found' ?_).trans (by simp)
      rw [← waits]
      exact waitingLookups_congr ⟨by simp [State.unshown], by simp [State.unshown],
        userLookups_congr (by simp [State.unshown]) (by simp [State.unshown])⟩
    rw [same]
    rfl

/-- What is done after the release of the pin. -/
theorem LiftsTo.map {F G : State → State} {s t : State} (h : LiftsTo t s)
    (body : ∀ {a b : State}, b.tray = { s.tray with shownPin := b.tray.shownPin } → a.body = b.body →
      (F a).body = (G b).body)
    (shown : (G s).tray.shownPin = s.tray.shownPin) (shadow : (G s).shadow = s.shadow)
    (unshown : ∀ m, G (s.unshown m) = (G s).unshown m)
    (waits : ∀ m, waitingLookups ((G s).unshown m) = waitingLookups (s.unshown m)) : LiftsTo (F t) (G s) := by
  obtain ⟨bare, pinned⟩ := h
  refine ⟨fun none_ => body rfl (bare (shown ▸ none_)), fun k m some_ found none_ => ?_⟩
  rw [← unshown m]
  refine body (b := s.unshown m) rfl (pinned k m (shown ▸ some_) (shadow ▸ found) ?_)
  rw [noLookupWaits, ← waits m]
  exact none_

/-- **An event that begins a lift.** -/
theorem ends_lifts {c : Instr} {f : State → State} {s v : State} (settled : Settled s)
    (hc : exec c s = .next (live f s)) (lifts : LiftsTo (f s) v) (executor : executorStep v = none) (quiet : logQuiet v)
    (access : (f s).port.access = s.port.access) : Lifts c s v := by
  obtain ⟨bare, pinned⟩ := lifts
  refine ⟨fun none_ => ends_live settled hc (bare none_) executor quiet access, fun k m some_ found none_ => ?_⟩
  refine ends_live settled hc (pinned k m some_ found none_) ?_ quiet access
  exact executor_rest executor ⟨rfl, rfl, rfl, rfl, rfl, rfl⟩

/-- DROP has been entered (R39). -/
def State.dropping (s : State) : State :=
  { s with tray := { s.tray with state := .drop, timerStart := s.now, wait := .none } }

theorem body_enterDrop {s t : State} (h : t.body = s.body) : (enterDrop t).body = s.dropping.body := by
  rw [enterDrop, body_tray h, body_now h]
  exact body_putTray_of _ h

/-- The arm at its top limit has ended a lift (R36). -/
def State.lifted (s : State) : State :=
  let u : State := { s with tray := { s.tray with gate := .empty } }
  if s.tray.stopping = true ∨ s.tray.toGo = 0 then u.dropping
  else { u with tray := { u.tray with state := .rotate, timerStart := s.now } }

theorem body_liftReached {s t : State} (h : t.body = s.body) : (liftReached t).body = s.lifted.body := by
  have up := body_putTray_of { s.tray with gate := .empty } h
  unfold liftReached State.lifted
  rw [body_tray h]
  dsimp only
  rw [body_tray up]
  by_cases stops : s.tray.stopping = true ∨ s.tray.toGo = 0
  · rw [if_pos stops]
    refine (congrArg State.body (if_pos ?_)).trans (body_enterDrop up)
    rw [Bool.or_eq_true, decide_eq_true_iff]
    exact stops
  · rw [if_neg stops]
    refine (congrArg State.body (if_neg ?_)).trans ?_
    · rw [Bool.or_eq_true, decide_eq_true_iff]
      exact stops
    · rw [body_now up]
      exact (body_putTray_of _ up).trans rfl

theorem port_liftReached (s : State) : (liftReached s).port = s.port := by
  unfold liftReached enterDrop
  dsimp only
  split <;> simp

theorem lifted_rotates {s : State} (going : s.tray.stopping = false) (more : s.tray.toGo ≠ 0) : s.lifted = { s with
    tray := { s.tray with gate := .empty, state := .rotate, timerStart := s.now } } :=
  if_neg fun stops => stops.elim (by simp [going]) more

theorem lifted_drops {s : State} (stops : s.tray.stopping = true ∨ s.tray.toGo = 0) : s.lifted = { s with
    tray := { s.tray with gate := .empty, state := .drop, timerStart := s.now, wait := .none } } := if_pos stops

/-! ## The limit switches (R27, R28, R36) -/

theorem body_armTop {active : Bool} (s : State) : (putTray { s.tray with topOn := active } s).body
    = ({ s with tray := { s.tray with topOn := active } } : State).body := body_putTray _ s

theorem armTopChange_lift {s : State} (state : s.tray.state = .lift) : armTopChange true s =
    if s.tray.lowering then putTray { s.tray with topOn := true } s
    else liftReached (putTray { s.tray with topOn := true } s) := by
  simp [armTopChange, state]

theorem armTopChange_homing {s : State} (state : s.tray.state = .homing) : armTopChange true s =
    if s.tray.homingStep = .lift ∧ s.tray.lowering = false then homingRotate (putTray { s.tray with topOn := true } s)
    else putTray { s.tray with topOn := true } s := by
  simp [armTopChange, state]

theorem armTopChange_other {s : State} (lift : s.tray.state ≠ .lift) (homing : s.tray.state ≠ .homing) :
    armTopChange true s = putTray { s.tray with topOn := true } s := by
  cases state : s.tray.state <;> simp_all [armTopChange]

theorem body_homingRotate {s t : State} (h : t.body = s.body) : (homingRotate t).body = ({ s with tray := { s.tray with
    gate := .empty, homingStep := .rotate, homingCount := 0, timerStart := s.now } } : State).body := by
  rw [homingRotate, body_tray h, body_now h]
  exact body_putTray_of _ h

/-- Settles O33. -/
theorem armTopEndsTheLift : Obligations.ArmTopEndsTheLift := by
  intro s settled t up
  have only {c : Instr} {f : State → State} {tr : Tray} (hc : exec c s = .next (live f s)) (h : f s = putTray tr s)
      (completion : tr.completion = s.tray.completion) : Ends c s { s with tray := tr } :=
    ends_still settled hc (by rw [h]; exact body_putTray tr s) completion rfl rfl rfl rfl rfl (by simp [h])
  refine ⟨fun state going on_ more => ?_, fun state going stops => ?_, fun state lowering => ?_, fun state step going => ?_,
    fun lift homing => ?_, ?_, ?_⟩
  · have done := (armTopChange_lift state).trans (if_neg (ne_true_of_eq_false going))
    refine ends_still settled rfl (f := armTopChange true) ?_ rfl rfl rfl rfl rfl rfl (by rw [done, port_liftReached]; simp)
    rw [done]
    exact (body_liftReached (body_armTop s)).trans (congrArg State.body (lifted_rotates on_ more))
  · have done := (armTopChange_lift state).trans (if_neg (ne_true_of_eq_false going))
    refine ends_still settled rfl (f := armTopChange true) ?_ rfl rfl rfl rfl rfl rfl (by rw [done, port_liftReached]; simp)
    rw [done]
    exact (body_liftReached (body_armTop s)).trans (congrArg State.body (lifted_drops stops))
  · exact only (f := armTopChange true) rfl ((armTopChange_lift state).trans (if_pos lowering)) rfl
  · have done := (armTopChange_homing state).trans (if_pos ⟨step, going⟩)
    refine ends_still settled rfl (f := armTopChange true) ?_ rfl rfl rfl rfl rfl rfl (by rw [done]; simp)
    rw [done]
    exact (body_homingRotate (body_armTop s)).trans rfl
  · exact only (f := armTopChange true) rfl (armTopChange_other lift homing) rfl
  · exact only (f := armTopChange false) rfl rfl rfl
  · rfl

/-! ## ARM_BOTTOM (R35, R36, R39, R44) -/

theorem body_dropDone {seen : Bool} {s t : State} (h : t.body = s.body) : (dropDone seen t).body =
    (State.recapped { s with
      tray := { s.tray with
        gate := if seen then .loaded else .empty, timerStart := s.now
        presence := s.tray.presence.setIfInBounds s.tray.slot (if seen then .present else .empty) }
      thermal := { s.thermal with dwellUs := 0, dwellFlag := false } }).body := by
  unfold dropDone
  rw [body_tray h, body_now h]
  exact (body_dropReported (body_putTray_of _ h)).trans rfl

theorem relift_eq {s t : State} (h : t.body = s.body) : ∃ u, u.body = ({ s with
    tray := { s.tray with lowering := false, timerStart := s.now } } : State).body
      ∧ relift t = if s.tray.topOn then liftReached u else u := by
  have down := body_putTray_of { s.tray with lowering := false, timerStart := s.now } h
  refine ⟨_, down, ?_⟩
  unfold relift
  rw [body_tray h, body_now h]
  dsimp only
  rw [body_tray down]

theorem port_relift (s : State) : (relift s).port = s.port := by
  unfold relift
  dsimp only
  split
  · rw [port_liftReached]
    simp
  · simp

/-- The transport's completion event is on its way. -/
def State.trayDone (o : TrayOutcome) (s : State) : State := { s with tray := s.tray.completed o }

/-- The recovery ends, and its request is answered (R44). -/
theorem body_recoverDone {r : TrayRequest} {s t : State} (h : t.body = s.body) (request : s.tray.request = some r) :
    (recoverDone t).body = (State.trayDone .ok { s with
      tray := Tray.answered { s.tray with state := if s.tray.known then .ready else .unhomed } }).body := by
  unfold recoverDone
  rw [body_tray h]
  exact (body_endRequest (s := { s with
    tray := { s.tray with state := if s.tray.known then .ready else .unhomed } }) (body_putTray_of _ h) request).trans rfl

/-- Homing drives the arm up (R35). -/
theorem body_homingUp {s t : State} (h : t.body = s.body) (top : s.tray.topOn = false) : (homingUp t).body =
    ({ s with tray := { s.tray with lowering := false, timerStart := s.now } } : State).body := by
  have up := body_putTray_of { s.tray with lowering := false, timerStart := s.now } h
  unfold homingUp
  rw [body_tray h, body_now h]
  dsimp only
  rw [body_tray up]
  exact (congrArg State.body (if_neg (by simp [top]))).trans up

/-- Homing has begun its lift (R35). -/
def State.homingLifted (s : State) : State :=
  { s with tray := { s.tray with homingStep := .lift, retry := false, lowering := false, timerStart := s.now } }

theorem liftsTo_homingLift {s t : State} (h : t.body = s.body) (top : s.tray.topOn = false) :
    LiftsTo (homingLift t) s.homingLifted := by
  refine (liftsTo_releaseShown h).map
    (F := fun t => homingUp (putTray { t.tray with homingStep := .lift, retry := false } t)) (G := State.homingLifted)
    (fun {a b} same k => ?_) rfl rfl (fun m => rfl) fun m => rfl
  dsimp only
  rw [body_tray k]
  exact (body_homingUp (s := { b with tray := { b.tray with homingStep := .lift, retry := false } })
    (body_putTray_of _ k) ((congrArg Tray.topOn same).trans top)).trans rfl

theorem port_homingLift (s : State) : (homingLift s).port = s.port := by
  unfold homingLift homingUp homingRotate
  dsimp only
  split <;> simp

section
variable {seen : Bool} {s : State}

theorem armBottomChange_drop (state : s.tray.state = .drop) : armBottomChange true seen s =
    putTray { (dropDone seen (putTray { s.tray with bottomOn := true } s)).tray with state := .settle }
      (dropDone seen (putTray { s.tray with bottomOn := true } s)) := by
  simp [armBottomChange, state]

theorem armBottomChange_homingDrop (state : s.tray.state = .homing) (step : s.tray.homingStep = .drop) :
    armBottomChange true seen s =
      putTray { (dropDone seen (putTray { s.tray with bottomOn := true } s)).tray with homingStep := .settle }
        (dropDone seen (putTray { s.tray with bottomOn := true } s)) := by
  simp [armBottomChange, state, step]

theorem armBottomChange_lift (state : s.tray.state = .lift) (lowering : s.tray.lowering = true) :
    armBottomChange true seen s = relift (putTray { s.tray with bottomOn := true } s) := by
  simp [armBottomChange, state, lowering]

theorem armBottomChange_recover (state : s.tray.state = .recover) :
    armBottomChange true seen s = recoverDone (putTray { s.tray with bottomOn := true } s) := by
  simp [armBottomChange, state]

theorem armBottomChange_homingLower (state : s.tray.state = .homing) (step : s.tray.homingStep = .lower) :
    armBottomChange true seen s = homingLift (putTray { s.tray with bottomOn := true } s) := by
  simp [armBottomChange, state, step]

theorem armBottomChange_other (lift : s.tray.state ≠ .lift) (homing : s.tray.state ≠ .homing)
    (drop : s.tray.state ≠ .drop) (recover : s.tray.state ≠ .recover) :
    armBottomChange true seen s = putTray { s.tray with bottomOn := true } s := by
  cases state : s.tray.state <;> simp_all [armBottomChange]

end

theorem body_bottom {b : Bool} (s : State) : (putTray { s.tray with bottomOn := b } s).body
    = ({ s with tray := { s.tray with bottomOn := b } } : State).body := body_putTray _ s

/-- Settles O34. -/
theorem armBottomEndsTheDrop : Obligations.ArmBottomEndsTheDrop := by
  intro s seen x r settled t down
  have only {f : State → State} {c : Instr} {tr : Tray} (hc : exec c s = .next (live f s)) (h : f s = putTray tr s)
      (completion : tr.completion = s.tray.completion) : Ends c s { s with tray := tr } :=
    ends_still settled hc (by rw [h]; exact body_putTray tr s) completion rfl rfl rfl rfl rfl (by simp [h])
  have dropped := body_dropDone (seen := seen) (body_bottom (b := true) s)
  have down_ := body_bottom (b := true) s
  refine ⟨fun state => ?_, fun state step => ?_, fun state lowering top => ?_, fun state lowering top going more => ?_,
    fun state waits => ?_, fun state step top => ?_, fun lift homing drop recover => ?_, ?_⟩
  · have done := armBottomChange_drop (seen := seen) state
    refine ends_still settled rfl (f := armBottomChange true seen) ?_ rfl rfl rfl rfl rfl rfl
      (by rw [done]; simp)
    rw [done, body_tray dropped]
    exact (body_putTray_of _ dropped).trans rfl
  · have done := armBottomChange_homingDrop (seen := seen) state step
    refine ends_still settled rfl (f := armBottomChange true seen) ?_ rfl rfl rfl rfl rfl rfl
      (by rw [done]; simp)
    rw [done, body_tray dropped]
    exact (body_putTray_of _ dropped).trans rfl
  · have done := armBottomChange_lift (seen := seen) state lowering
    obtain ⟨u, body, lifts⟩ := relift_eq down_
    refine ends_still settled rfl (f := armBottomChange true seen) ?_ rfl rfl rfl rfl rfl rfl
      (by rw [done, port_relift]; simp)
    rw [done, lifts]
    exact (congrArg State.body (if_neg (ne_true_of_eq_false top))).trans body
  · have done := armBottomChange_lift (seen := seen) state lowering
    obtain ⟨u, body, lifts⟩ := relift_eq down_
    refine ends_still settled rfl (f := armBottomChange true seen) ?_ rfl rfl rfl rfl rfl rfl
      (by rw [done, port_relift]; simp)
    rw [done, lifts]
    exact (congrArg State.body (if_pos top)).trans ((body_liftReached body).trans
      (congrArg State.body (lifted_rotates going more)))
  · have done := armBottomChange_recover (seen := seen) state
    obtain ⟨action, phase, issued, request, alone⟩ := waits
    have none_ := completion_of_rest settled.2.1
    have body := body_recoverDone down_ request
    refine ends_moveEnded settled rfl (f := armBottomChange true seen) (o := .ok) (by rw [done]; exact body) action phase
      issued alone ?_ rfl settled.2.2.1 ?_
    · rw [answered_some (by exact request)]
      exact none_
    · rw [done]
      simp [recoverDone]
  · have done := armBottomChange_homingLower (seen := seen) state step
    refine ends_lifts settled rfl (f := armBottomChange true seen) ?_
      (executor_rest settled.2.1 ⟨rfl, rfl, rfl, rfl, rfl, rfl⟩) settled.2.2.1 (by rw [done, port_homingLift]; simp)
    rw [done]
    exact liftsTo_homingLift down_ top
  · exact only (f := armBottomChange true seen) rfl (armBottomChange_other lift homing drop recover) rfl
  · exact only (f := armBottomChange false seen) rfl rfl rfl

/-! ## Jams and the removal (R43, R47) -/

theorem samePins_releaseDest {s t : State} (same : SamePins s t) : SamePins (releaseDest s) (releaseDest t) := by
  have ds := body_releaseDest (s := s) rfl
  have dt := body_releaseDest (s := t) rfl
  refine ⟨shadow_releaseDest_congr same, by simp [same.settings], ?_, ?_, ?_, by simp [same.start]⟩
  · rw [body_tray ds, body_tray dt]
  · rw [body_tray ds, body_tray dt]
    exact same.wait
  · rw [body_tray ds, body_tray dt]
    exact same.shown

theorem shadow_unpinned_latched (e : Event) (s : State) : (s.latched e).unpinned.shadow = s.unpinned.shadow :=
  shadow_releaseShown_congr (samePins_releaseDest ⟨rfl, rfl, rfl, rfl, rfl, rfl⟩)

/-- The transport gives up its request and its pins, with an event: in what state it does so is in tr. -/
theorem body_givenUp {e : Event} {tr : Tray} {s t : State} (h : t.body = s.body) (dest : tr.destPin = s.tray.destPin)
    (shown : tr.shownPin = s.tray.shownPin) (wait : tr.wait = .none) :
    (releaseShown (releaseDest (latch e (putTray tr t)))).body = (State.latched e { s.unpinned with
      tray := { tr with destPin := none, shownPin := none } }).body := by
  have latched := body_latched (e := e) (body_putTray_of tr h)
  refine (body_releasePins (s := s.latched e) latched dest shown wait).trans ?_
  rw [shadow_unpinned_latched]
  exact congrArg (fun b : State => ({ b with
    tray := { tr with destPin := none, shownPin := none } } : State).latched e) (unpinned_body s).symm

theorem unpinned_tray (s : State) :
    s.unpinned.tray = { s.tray with wait := .none, destPin := none, shownPin := none } :=
  body_tray (unpinned_body s)

theorem unpinned_completion (s : State) : s.unpinned.tray.completion = s.tray.completion := by rw [unpinned_tray]

theorem body_enterJam {known : Bool} {r : TrayRequest} {s t : State} (h : t.body = s.body)
    (request : s.tray.request = some r) : (enterJam known t).body = (State.trayDone .jammed (s.jammedNow known)).body := by
  unfold enterJam State.jammedNow
  dsimp only
  rw [body_tray h, unpinned_tray]
  exact (body_endRequest (body_givenUp (tr := { s.tray with
    state := .jammed, gate := .unknown, known := known, wait := .none }) h rfl rfl rfl) request).trans rfl

theorem limitPassed_iff {limit : Nat} {s : State} :
    limitPassed limit s = true ↔ limit ≤ s.now - s.tray.timerStart := by
  simp [limitPassed]

theorem port_enterJam (known : Bool) (s : State) : (enterJam known s).port = s.port := by
  simp [enterJam]

/-- What the unpinned state has of the other fields. -/
theorem unpinned_frame (s : State) : s.unpinned.cx = s.cx ∧ s.unpinned.remote = s.remote ∧ s.unpinned.hdr = s.hdr
    ∧ s.unpinned.log = s.log ∧ s.unpinned.lamp = s.lamp := by
  simp [State.unpinned]

theorem answered_completion (t : Tray) : t.answered.completion = t.completion := by
  unfold Tray.answered
  split <;> rfl

/-- **The transport gives up**: with the event e and the outcome o, and the action that waits for it ends. -/
theorem ends_givenUp {c : Instr} {f : State → State} {s v : State} {e : Event} {tr : Tray} {x : Action}
    {r : TrayRequest} {o : TrayOutcome} {code : ResultCode} (settled : Settled s) (hc : exec c s = .next (live f s))
    (body : (f s).body = (State.trayDone o (State.latched e { v.unpinned with tray := tr.answered })).body)
    (waits : awaitsTray v x r) (completion : tr.completion = none) (quiet : logQuiet v) (result : x.resultOf o = some code)
    (access : (f s).port.access = s.port.access) :
    Ends c s ((State.latched e { v.unpinned with tray := tr.answered }).moveEnded x code) := by
  obtain ⟨action, phase, issued, -, alone⟩ := waits
  obtain ⟨cx, remote, hdr, log, -⟩ := unpinned_frame v
  refine ends_moveEnded settled hc body (by rw [← action, ← cx]; rfl) phase issued ?_ ?_ result ?_ access
  · simp only [endsAlone, noSource, logRoom, State.latched, cx, remote, hdr, log]
    exact alone
  · exact (answered_completion tr).trans completion
  · simp only [logQuiet, State.latched, hdr, log]
    exact quiet

theorem ends_jam {c : Instr} {f : State → State} {s t v : State} {known : Bool} {x : Action} {r : TrayRequest}
    (settled : Settled s) (hc : exec c s = .next (live f s)) (jams : f s = enterJam known t) (body : t.body = v.body)
    (waits : awaitsTray v x r) (completion : v.tray.completion = none) (quiet : logQuiet v)
    (access : t.port.access = s.port.access) : Ends c s ((v.jammedNow known).moveEnded x .jammed) := by
  refine ends_givenUp (tr := { v.unpinned.tray with state := .jammed, gate := .unknown, known := known }) settled hc
    (by rw [jams]; exact body_enterJam body waits.2.2.2.1) waits ?_ quiet rfl (by rw [jams, port_enterJam]; exact access)
  rw [unpinned_tray]
  exact completion

/-- A row of the tray that is due under a limit. -/
theorem due_iff {b : Bool} {limit : Nat} {s : State} :
    (b && limitPassed limit s) = true ↔ b = true ∧ limit ≤ s.now - s.tray.timerStart := by
  rw [Bool.and_eq_true, limitPassed_iff]

theorem not_due {b : Bool} {limit : Nat} {s : State} (early : b = false ∨ s.now - s.tray.timerStart < limit) :
    ¬(b && limitPassed limit s) = true := fun due =>
  early.elim (ne_false_of_eq_true (due_iff.1 due).1) (Nat.not_lt.2 (due_iff.1 due).2)

theorem liftExpiry_first {s : State} (due : liftDue s = true) (first : s.tray.retry = false)
    (below : s.tray.bottomOn = false) :
    liftExpiry s = putTray { s.tray with retry := true, lowering := true, timerStart := s.now } s := by
  simp [liftExpiry, due, first, below]

theorem liftExpiry_second {s : State} (due : liftDue s = true) (again : s.tray.retry = true) :
    liftExpiry s = enterJam s.tray.keptKnown s := by
  simp [liftExpiry, due, again]

/-- Settles O35. -/
theorem trayTimeLimits : Obligations.TrayTimeLimits := by
  intro s x r settled t e jam
  have jams {c : Instr} {f : State → State} {known : Bool} (hc : exec c s = .next (live f s))
      (jams : f s = enterJam known s) (waits : awaitsTray s x r) : Ends c s (jam known) :=
    ends_jam settled hc jams rfl waits (completion_of_rest settled.2.1) settled.2.2.1 rfl
  refine ⟨fun lifting late first below => ?_, fun lifting late again waits => ?_, fun early => ?_,
    fun lowering late waits => ?_, fun early => ?_, fun turning late waits => ?_, fun early => ?_,
    fun dropping late waits => ?_, fun early => ?_, fun recover late waits => ?_, fun early => ?_⟩
  · have done := liftExpiry_first (due_iff.2 ⟨lifting, late⟩) first below
    exact ends_still settled rfl (f := liftExpiry) (by rw [done]; exact body_putTray _ s) rfl rfl rfl rfl rfl rfl
      (by simp [done])
  · exact jams rfl (f := liftExpiry) (liftExpiry_second (due_iff.2 ⟨lifting, late⟩) again) waits
  · exact ends_nothing settled rfl (f := liftExpiry) (if_neg (not_due early))
  · exact jams rfl (f := lowerExpiry) (if_pos (due_iff.2 ⟨lowering, late⟩)) waits
  · exact ends_nothing settled rfl (f := lowerExpiry) (if_neg (not_due early))
  · exact jams rfl (f := rotateExpiry) (if_pos (due_iff.2 ⟨turning, late⟩)) waits
  · exact ends_nothing settled rfl (f := rotateExpiry) (if_neg (not_due early))
  · exact jams rfl (f := dropExpiry) (if_pos (due_iff.2 ⟨dropping, late⟩)) waits
  · exact ends_nothing settled rfl (f := dropExpiry) (if_neg (not_due early))
  · exact jams rfl (f := recoverExpiry) (if_pos (due_iff.2 ⟨decide_eq_true recover, late⟩)) waits
  · exact ends_nothing settled rfl (f := recoverExpiry) (if_neg (not_due (early.imp_left decide_eq_false)))

/-- The removal, before its answer (R47). -/
theorem body_removed {s t : State} (h : t.body = s.body) : (releaseShown (releaseDest (latch .trayRemoved (putTray
    { s.tray with
      state := .trayOut, presence := Vector.replicate 96 .unknown, known := false, gate := .unknown, wait := .none } t)))).body
    = (State.latched .trayRemoved { s.unpinned with tray := { s.unpinned.tray with
      state := .trayOut, presence := Vector.replicate 96 .unknown, known := false, gate := .unknown } }).body := by
  rw [unpinned_tray]
  exact body_givenUp (tr := { s.tray with
    state := .trayOut, presence := Vector.replicate 96 .unknown, known := false, gate := .unknown, wait := .none })
    h rfl rfl rfl

theorem removeTray_seated {s : State} (seated : s.tray.state ≠ .trayOut) : removeTray s =
    endRequest .trayOut (releaseShown (releaseDest (latch .trayRemoved (putTray { s.tray with
      state := .trayOut, presence := Vector.replicate 96 .unknown, known := false, gate := .unknown, wait := .none } s)))) :=
  if_neg seated

/-- Settles O38. -/
theorem trayRemovedAndSeated : Obligations.TrayRemovedAndSeated := by
  intro s x r settled u out
  have removed := body_removed (s := s) rfl
  refine ⟨fun seated free => ?_, fun seated waits => ?_, fun gone => ?_, fun big gone => ?_, fun big seated => ?_⟩
  · have request : u.tray.request = none := by
      rw [unpinned_tray]
      exact free
    have done := (removeTray_seated seated).trans (endRequest_none removed request)
    have answered : out u.tray = State.latched .trayRemoved { u with tray := { u.tray with
        state := .trayOut, presence := Vector.replicate 96 .unknown, known := false, gate := .unknown } } :=
      congrArg (fun tr => State.latched .trayRemoved { u with tray := tr }) (answered_none (t := { u.tray with
        state := .trayOut, presence := Vector.replicate 96 .unknown, known := false, gate := .unknown }) request)
    obtain ⟨cx, remote, hdr, log, lamp⟩ := unpinned_frame s
    rw [answered]
    refine ends_still settled rfl (f := removeTray) ?_ ?_ cx (congrArg Lamp.state lamp) remote hdr log
      (by rw [done]; simp)
    · rw [done]
      exact removed
    · exact unpinned_completion s
  · have request : u.tray.request = some r := by
      rw [unpinned_tray]
      exact waits.2.2.2.1
    refine ends_givenUp settled rfl (f := removeTray) (o := .trayOut) ?_ waits
      ((unpinned_completion s).trans (completion_of_rest settled.2.1)) settled.2.2.1 rfl (by rw [removeTray_seated seated]; simp)
    rw [removeTray_seated seated]
    exact body_endRequest removed request
  · exact ends_nothing settled rfl (f := removeTray) (if_pos gone)
  · refine ends_still settled rfl (f := seatTray big) ?_ rfl rfl rfl rfl rfl rfl (by simp)
    exact (congrArg State.body (if_pos gone)).trans (body_putTray _ s)
  · exact ends_nothing settled rfl (f := seatTray big) (if_neg seated)

end Sys2Proof.Machine
end
section
/-! Requests to the transport (R29 to R36): the lookups they make, their plans, and the lifts they begin. -/

namespace Sys2Proof.Machine

/-! ## Lookups (R54, R56 to R58) -/

theorem lookup_noTable {kind : RecKind} {key : Nat} {pin : Bool} {s : State} (base : recordBase kind s = 0) :
    lookup kind key pin s = (s, .absent) := by
  unfold lookup
  exact if_pos base

section
variable {kind : RecKind} {key i : Nat} {s t : State} (h : t.body = s.body) (base : recordBase kind s ≠ 0)
include h base

/-- A pin lookup finds its record VALID (R56). -/
theorem lookup_valid (found : s.shadow.find kind key = some i) (valid : (s.shadow.entry i).isValid = true) :
    ∃ d stale used u, s.shadow.entry i = .valid d stale used ∧ lookup kind key true t = (u, .copy d.copy)
      ∧ u.body = ({ s with shadow := s.shadow.pinned i } : State).body := by
  cases entry : s.shadow.entry i with
  | free => simp [entry, WatchEntry.isValid] at valid
  | filling d => simp [entry, WatchEntry.isValid] at valid
  | valid d stale used =>
    have pinned : s.shadow.pinned i = { s.shadow.setEntry i (.valid { d with pins := d.pins + 1 } stale
        s.shadow.useStamp) with useStamp := s.shadow.useStamp + 1 } := by simp [Shadow.pinned, entry]
    have base' : recordBase kind t ≠ 0 := by rwa [recordBase_congr (s := s) (by rw [body_hdr h])]
    refine ⟨d, stale, used, putShadow (s.shadow.pinned i) t, rfl, ?_, body_putShadow_of _ h⟩
    simp [lookup, base', body_shadow h, found, entry, pinned, flagNat]

/-- It finds its record FILLING, and joins the fetch (R57). -/
theorem lookup_filling (found : s.shadow.find kind key = some i) (filling : (s.shadow.entry i).isValid = false) :
    ∃ u, lookup kind key true t = (u, .waiting) ∧ u.body = ({ s with shadow := s.shadow.pinned i } : State).body := by
  obtain ⟨d, fields, -, -⟩ := entry_of_find found
  cases entry : s.shadow.entry i with
  | free => simp [entry, WatchEntry.fields] at fields
  | valid d stale used => simp [entry, WatchEntry.isValid] at filling
  | filling d =>
    have base' : recordBase kind t ≠ 0 := by rwa [recordBase_congr (s := s) (by rw [body_hdr h])]
    refine ⟨putShadow (s.shadow.pinned i) t, ?_, body_putShadow_of _ h⟩
    simp [lookup, base', body_shadow h, found, entry, Shadow.pinned, flagNat]

/-- It is a miss, which is given an entry to fill (R58). -/
theorem lookup_misses {pin : Bool} (missing : s.shadow.find kind key = none) (victim : s.shadow.victim = some i) :
    ∃ u, lookup kind key pin t = (u, .waiting) ∧ u.body = ({ s with
      shadow := { s.shadow.setEntry i (.filling {
        kind := kind, key := key, addr := recordAddr kind key (recordBase kind s), copy := [], pins := flagNat pin }) with
          fetchList := s.shadow.fetchList ++ [i] } } : State).body := by
  have same : recordBase kind t = recordBase kind s := recordBase_congr (by rw [body_hdr h]) kind
  have base' : recordBase kind t ≠ 0 := by rwa [same]
  refine ⟨_, ?_, body_putShadow_of _ h⟩
  simp [lookup, body_shadow h, missing, victim, same, base]

end

/-! ## LIFT (R36) -/

/-- LIFT has been entered. -/
def State.liftBegun (s : State) : State :=
  { s with tray := { s.tray with
    state := .lift, retry := false, lowering := false, timerStart := s.now, wait := .none } }

theorem body_liftBegun {s t : State} (h : t.body = s.body) : (putTray { t.tray with
    state := .lift, retry := false, lowering := false, timerStart := t.now, wait := .none } t).body = s.liftBegun.body := by
  rw [body_tray h, body_now h]
  exact body_putTray_of _ h

theorem startLift_eq (t : State) : startLift t =
    let u := putTray { (releaseShown t).tray with
      state := .lift, retry := false, lowering := false, timerStart := (releaseShown t).now, wait := .none } (releaseShown t)
    if u.tray.topOn then liftReached u else u := rfl

theorem liftsTo_startLift {s t : State} (h : t.body = s.body) (wait : s.tray.wait = .none) (top : s.tray.topOn = false) :
    LiftsTo (startLift t) s.liftBegun := by
  refine (liftsTo_releaseShown h).map (F := fun t => let u := putTray { t.tray with
    state := .lift, retry := false, lowering := false, timerStart := t.now, wait := .none } t
    if u.tray.topOn then liftReached u else u) (G := State.liftBegun) (fun {a b} same k => ?_) rfl rfl (fun m => rfl)
    fun m => ?_
  · have begun := body_liftBegun k
    have low : ¬(putTray { a.tray with
        state := .lift, retry := false, lowering := false, timerStart := a.now, wait := .none } a).tray.topOn = true := by
      rw [body_tray begun]
      exact ne_true_of_eq_false ((congrArg Tray.topOn same).trans top)
    exact (congrArg State.body (if_neg low)).trans begun
  · exact waitingLookups_congr ⟨rfl, rfl, by simp only [userLookups, State.unshown, State.liftBegun, wait]⟩

/-- An arm at its top limit ends the lift at once. -/
theorem liftsTo_startLift_top {s t : State} (h : t.body = s.body) (wait : s.tray.wait = .none)
    (top : s.tray.topOn = true) (going : s.tray.stopping = false) (more : s.tray.toGo ≠ 0) :
    LiftsTo (startLift t) { s.liftBegun with tray := { s.liftBegun.tray with gate := .empty, state := .rotate } } := by
  refine (liftsTo_releaseShown h).map (F := fun t => let u := putTray { t.tray with
    state := .lift, retry := false, lowering := false, timerStart := t.now, wait := .none } t
    if u.tray.topOn then liftReached u else u)
    (G := fun s => { s.liftBegun with tray := { s.liftBegun.tray with gate := .empty, state := .rotate } })
    (fun {a b} same k => ?_) rfl rfl (fun m => rfl) fun m => ?_
  · have begun := body_liftBegun k
    have high : (putTray { a.tray with
        state := .lift, retry := false, lowering := false, timerStart := a.now, wait := .none } a).tray.topOn = true := by
      rw [body_tray begun]
      exact (congrArg Tray.topOn same).trans top
    refine (congrArg State.body (if_pos high)).trans ((body_liftReached begun).trans ?_)
    exact congrArg State.body (lifted_rotates ((congrArg Tray.stopping same).trans going)
      fun none_ => more ((congrArg Tray.toGo same).symm.trans none_))
  · exact waitingLookups_congr ⟨rfl, rfl, by simp only [userLookups, State.unshown, State.liftBegun, wait]⟩

/-! ## The destination fixed (R34) -/

/-- The transport has its plan (R31 to R33). -/
def State.planSet (p : Plan) (s : State) : State := { s with tray := s.tray.setPlan p }

theorem body_planSet {p : Plan} {s t : State} (h : t.body = s.body) :
    (putTray (t.tray.setPlan p) t).body = (s.planSet p).body := by
  rw [body_tray h]
  exact body_putTray_of _ h

theorem planSet_some {p : Plan} {r : TrayRequest} {s : State} (request : s.tray.request = some r) :
    s.planSet p = { s with tray := { s.tray with request := some { r with plan := some p } } } := by
  simp [State.planSet, Tray.setPlan, request]

theorem destinationReady_starts {t : State} (state : t.tray.state ≠ .rotate) (going : t.tray.homedHere = false) :
    destinationReady t = startLift (putTray { t.tray with wait := .none } t) := by
  unfold destinationReady
  simp only [putTray_tray, if_neg state]
  exact if_neg (ne_true_of_eq_false going)

theorem fixDestination_absent {p : Plan} {t u : State}
    (h : lookup .slot p.dest true (putTray (t.tray.setPlan p) t) = (u, .absent)) :
    fixDestination p t = destinationReady u := by
  simp only [fixDestination, h]

theorem fixDestination_copy {p : Plan} {t u : State} {words : List Word}
    (h : lookup .slot p.dest true (putTray (t.tray.setPlan p) t) = (u, .copy words)) :
    fixDestination p t = destinationReady (putTray { u.tray with destPin := some p.dest } u) := by
  simp only [fixDestination, h]

theorem fixDestination_waiting {p : Plan} {t u : State}
    (h : lookup .slot p.dest true (putTray (t.tray.setPlan p) t) = (u, .waiting)) :
    fixDestination p t = putTray { u.tray with destPin := some p.dest, wait := .destination } u := by
  simp only [fixDestination, h]

section
variable {p : Plan} {s t : State} (h : t.body = s.body)
include h

/-- With no slot table the record is absent, and the plan goes on at once (R54). -/
theorem fixDestination_noTable (base : s.hdr.settings.slotBase = 0) :
    ∃ u, fixDestination p t = destinationReady u ∧ u.body = (s.planSet p).body := by
  have set := body_planSet (p := p) h
  refine ⟨_, fixDestination_absent (lookup_noTable ?_), set⟩
  rw [recordBase, body_hdr set]
  exact base

/-- A VALID record is pinned, and the plan goes on at once (R56). -/
theorem fixDestination_valid {i : Nat} (found : slotFound p.dest i s) (valid : (s.shadow.entry i).isValid = true) :
    ∃ u, fixDestination p t = destinationReady u ∧ u.body = ({ s.planSet p with
      shadow := s.shadow.pinned i, tray := { (s.planSet p).tray with destPin := some p.dest } } : State).body := by
  obtain ⟨d, stale, used, u, -, look, body⟩ :=
    lookup_valid (s := s.planSet p) (kind := .slot) (body_planSet h) found.1 found.2 valid
  refine ⟨_, fixDestination_copy look, ?_⟩
  rw [body_tray body]
  exact body_putTray_of _ body

/-- One that is FILLING is pinned, and waited for (R57). -/
theorem body_fixDestination_filling {i : Nat} (found : slotFound p.dest i s)
    (filling : (s.shadow.entry i).isValid = false) : (fixDestination p t).body = ({ s.planSet p with
      shadow := s.shadow.pinned i
      tray := { (s.planSet p).tray with destPin := some p.dest, wait := .destination } } : State).body := by
  obtain ⟨u, look, body⟩ := lookup_filling (s := s.planSet p) (kind := .slot) (body_planSet h) found.1 found.2 filling
  rw [fixDestination_waiting look, body_tray body]
  exact body_putTray_of _ body

/-- A miss is fetched, and waited for (R58). -/
theorem body_fixDestination_misses {i : Nat} (misses : slotMisses p.dest i s) : (fixDestination p t).body =
    (State.fetchingSlot p.dest i 1 { s.planSet p with
      tray := { (s.planSet p).tray with destPin := some p.dest, wait := .destination } }).body := by
  obtain ⟨u, look, body⟩ := lookup_misses (s := s.planSet p) (kind := .slot) (pin := true) (body_planSet h) misses.1
    misses.2.1 misses.2.2
  rw [fixDestination_waiting look, body_tray body]
  exact body_putTray_of _ body

end

/-- The plan goes on with the lift. -/
theorem liftsTo_destinationReady {s t : State} (h : t.body = s.body) (state : s.tray.state ≠ .rotate)
    (going : s.tray.homedHere = false) (top : s.tray.topOn = false) : LiftsTo (destinationReady t) s.liftBegun := by
  rw [destinationReady_starts (by rw [body_tray h]; exact state) (by rw [body_tray h]; exact going), body_tray h]
  exact liftsTo_startLift (s := { s with tray := { s.tray with wait := .none } }) (body_putTray_of _ h) rfl top

theorem liftsTo_destinationReady_top {s t : State} (h : t.body = s.body) (state : s.tray.state ≠ .rotate)
    (going : s.tray.homedHere = false) (top : s.tray.topOn = true) (on_ : s.tray.stopping = false)
    (more : s.tray.toGo ≠ 0) : LiftsTo (destinationReady t)
      { s.liftBegun with tray := { s.liftBegun.tray with gate := .empty, state := .rotate } } := by
  rw [destinationReady_starts (by rw [body_tray h]; exact state) (by rw [body_tray h]; exact going), body_tray h]
  exact liftsTo_startLift_top (s := { s with tray := { s.tray with wait := .none } }) (body_putTray_of _ h) rfl top on_
    more

/-! ## Planning (R29 to R32) -/

theorem gotoPlan_eq {n slot target : Nat} (h : slot ≤ n) :
    (⟨(gotoPlan n slot target).1, target, (gotoPlan n slot target).2⟩ : Plan) = Plan.goto n slot target := by
  have same : posDistance n .forward slot target = (target + n - slot) % n := by
    rw [posDistance, Nat.add_sub_assoc h]
  unfold gotoPlan Plan.goto
  rw [same]
  dsimp only
  split <;> rfl

/-- A request is planned without skipping (R31, R32). -/
theorem planRequest_plain {t : State} {r : TrayRequest} (request : t.tray.request = some r)
    (kind : r.kind ≠ .clearJam) (plain : t.hdr.settings.skip = false ∨ ∃ target, r.kind = .goto target)
    (slot : t.tray.slot ≤ t.tray.n) :
    planRequest t = fixDestination (Plan.of t.tray.n t.tray.slot r.kind) t := by
  unfold planRequest
  rw [request]
  dsimp only
  cases same : r.kind with
  | clearJam => exact absurd same kind
  | goto target => exact congrArg (fun p => fixDestination p t) (gotoPlan_eq slot)
  | advance k =>
    have skip : t.hdr.settings.skip = false := plain.resolve_right (by simp [same])
    exact if_neg (ne_true_of_eq_false skip)
  | reverse k =>
    have skip : t.hdr.settings.skip = false := plain.resolve_right (by simp [same])
    exact if_neg (ne_true_of_eq_false skip)

/-- The transport has a request in hand, with this much of a plan. -/
def State.requested (r : TrayRequest) (s : State) : State :=
  { s with tray := { s.tray with request := some r, wait := .none, repin := false } }

theorem body_holdRequest {kind : TrayKind} {dark : Bool} {s t : State} (h : t.body = s.body) :
    (holdRequest kind dark t).body = (s.requested (TrayRequest.fresh kind dark)).body := by
  rw [holdRequest, body_tray h]
  exact body_putTray_of _ h

/-- A READY transport plans the request (R29). -/
theorem requestTransport_ready {kind : TrayKind} {dark : Bool} {s t : State} (h : t.body = s.body)
    (request : s.tray.request = none) (state : s.tray.state = .ready) (plannable : kind.plannable s.tray.n = true)
    (permit : dark = true → s.lamp.dark = true) :
    requestTransport kind dark t = planRequest (holdRequest kind dark t) := by
  have jam : kind ≠ .clearJam := by
    rintro rfl
    simp [TrayKind.plannable] at plannable
  have away : turnedAway kind dark t = false := by
    unfold turnedAway
    rw [body_tray h, body_lamp h]
    cases kind with
    | goto target =>
      have inside : target < s.tray.n := by simpa [TrayKind.plannable] using plannable
      cases dark <;> simp_all
    | _ => cases dark <;> simp_all
  unfold requestTransport
  rw [body_tray h, request, state]
  simp [jam, away]

section
variable {kind : TrayKind} {dark : Bool} {s t : State} (h : t.body = s.body) (request : s.tray.request = none)
  (state : s.tray.state = .ready) (plannable : kind.plannable s.tray.n = true)
  (permit : dark = true → s.lamp.dark = true)
  (plain : s.hdr.settings.skip = false ∨ ∃ target, kind = .goto target) (slot : s.tray.slot ≤ s.tray.n)
include h request state plannable permit plain slot

theorem requestTransport_plans : ∃ u, requestTransport kind dark t = fixDestination (Plan.of s.tray.n s.tray.slot kind) u
    ∧ u.body = (s.requested (TrayRequest.fresh kind dark)).body := by
  have held := body_holdRequest (kind := kind) (dark := dark) h
  have jam : kind ≠ .clearJam := by
    rintro rfl
    simp [TrayKind.plannable] at plannable
  refine ⟨holdRequest kind dark t, ?_, held⟩
  rw [requestTransport_ready h request state plannable permit,
    planRequest_plain (r := TrayRequest.fresh kind dark) (by rw [body_tray held]; rfl) jam
      (by rw [body_hdr held]; exact plain) (by rw [body_tray held]; exact slot), body_tray held]
  rfl

/-- With no slot table set the lift begins at once (R34, R36). -/
theorem liftsTo_requestTransport (base : s.hdr.settings.slotBase = 0) (top : s.tray.topOn = false) :
    LiftsTo (requestTransport kind dark t) { s with
      tray := s.tray.lifted (TrayRequest.planned kind dark (Plan.of s.tray.n s.tray.slot kind)) s.now } := by
  obtain ⟨u, plans, held⟩ := requestTransport_plans h request state plannable permit plain slot
  obtain ⟨v, ready, set⟩ := fixDestination_noTable (p := Plan.of s.tray.n s.tray.slot kind) held base
  rw [plans, ready]
  refine liftsTo_destinationReady set ?_ rfl top
  rw [planSet_some rfl]
  exact fun rotate => by simp [State.requested, state] at rotate

end

end Sys2Proof.Machine
end
section
/-! Requests of the executor (R9, R10, R13): a request issued, the dark event, and the completion of a ramp. -/

namespace Sys2Proof.Machine

/-! ## A request issued (R9, R10) -/

theorem issueRequest_eq {t : State} {x : Action} (action : t.cx.action = some x) :
    issueRequest t = requestTransport x.request.trayKind x.window (setAction { x with issued := true } t) := by
  unfold issueRequest
  rw [action]

/-- A transport with nothing in hand answers at once (R29). -/
theorem body_answerAtOnce {o : TrayOutcome} {kind : TrayKind} {s t : State} (h : t.body = s.body) :
    (answerAtOnce o kind t).body = (State.trayDone o { s with tray := { s.tray with
      remaining := kind.count, lastSlot := if s.tray.known then s.tray.slot else 0 } }).body := by
  unfold answerAtOnce sendCompletion
  rw [body_tray h]
  exact (body_putTray_of _ h).trans rfl

theorem requestTransport_trayOut {kind : TrayKind} {dark : Bool} {s t : State} (h : t.body = s.body)
    (request : s.tray.request = none) (state : s.tray.state = .trayOut) :
    requestTransport kind dark t = answerAtOnce .trayOut kind t := by
  unfold requestTransport
  rw [body_tray h, request, state]
  simp

theorem requestTransport_jammed {kind : TrayKind} {dark : Bool} {s t : State} (h : t.body = s.body)
    (request : s.tray.request = none) (state : s.tray.state = .jammed) (jam : kind ≠ .clearJam) :
    requestTransport kind dark t = answerAtOnce .jammed kind t := by
  unfold requestTransport
  rw [body_tray h, request, state]
  simp [jam]

theorem port_issueRequest (s : State) : (issueRequest s).port = s.port := by simp

/-! ## The dark event (R9, R86) -/

theorem darkArrives_issues {s : State} {x : Action} (sent : s.lamp.darkSent = true) (action : s.cx.action = some x)
    (phase : x.phase = .moving) (window : x.window = true) (held : x.issued = false) :
    darkArrives s = issueRequest (putLamp { s.lamp with darkSent := false } s) := by
  simp [darkArrives, sent, action, phase, window, held]

theorem darkArrives_none {s : State} (sent : s.lamp.darkSent = true) (action : s.cx.action = none) :
    darkArrives s = putLamp { s.lamp with darkSent := false } s := by
  simp [darkArrives, sent, action]

/-- Settles O32. -/
theorem darkEventIssuesTheRequest : Obligations.DarkEventIssuesTheRequest := by
  intro s x target settled sent l
  refine ⟨fun action => ?_, fun action phase window held kind state request dark inside slot base top => ?_⟩
  · have done := darkArrives_none sent action
    exact ends_still settled rfl (f := darkArrives) (by rw [done]; exact body_putLamp _ s) rfl rfl rfl rfl rfl rfl
      (by simp [done])
  · let y : Action := { x with issued := true }
    let u : State := { s with lamp := l, cx := { s.cx with action := some y } }
    have taken : (putLamp { s.lamp with darkSent := false } s).body = ({ s with lamp := l } : State).body := body_putLamp _ s
    have issued : (setAction y (putLamp { s.lamp with darkSent := false } s)).body = u.body := body_setAction taken
    have trayKind : x.request.trayKind = .goto target := by rw [kind]; rfl
    have done : darkArrives s = requestTransport (.goto target) true
        (setAction y (putLamp { s.lamp with darkSent := false } s)) := by
      rw [darkArrives_issues sent action phase window held, issueRequest_eq (by rw [body_cx taken]; exact action), trayKind]
      exact congrArg (fun b => requestTransport (.goto target) b (setAction y _)) window
    have lifts := liftsTo_requestTransport (s := u) (kind := .goto target) (dark := true) issued request state
      (decide_eq_true inside) (fun _ => dark) (.inr ⟨target, rfl⟩) (Nat.le_of_lt slot) base top
    change Lifts .darkEvent s { u with
      tray := u.tray.lifted (TrayRequest.planned (.goto target) true (Plan.of u.tray.n u.tray.slot (.goto target))) u.now }
    refine ends_lifts settled rfl (f := darkArrives) (by rw [done]; exact lifts) ?_ settled.2.2.1 (by simp [done])
    exact executorStep_busy (x := y) (completion_of_rest (s := s) settled.2.1) rfl (by simp [y, phase])

/-! ## The completion of a ramp (R78, R91) -/

theorem body_lampReport_enters {old : LampState} {s t : State} (h : t.body = s.body) (was : old.lit = false)
    (unlit : s.lamp.state.lit = false) (pending : s.thermal.power = .standbyPending) (cold : s.thermal.runOn = none) :
    (lampReport old t).body = s.dutied.stoodBy.body := by
  unfold lampReport
  rw [was]
  simp only [Bool.false_and, Bool.false_eq_true, if_false]
  rw [if_neg (by rw [body_thermal h]; simp [cold])]
  exact body_evalStandby_enters (body_decideDuty h) pending unlit cold

/-- The lamp goes OFF, and a unit that waits for it is in STANDBY (R91, R118). -/
def State.outFor (s : State) : State :=
  if s.thermal.power = .standbyPending ∧ s.lampOut.thermal.runOn = none then s.lampOut.stoodBy else s.lampOut

theorem body_setLampState_off {s t : State} (h : t.body = s.body) (ne : s.lamp.state ≠ .off) :
    (setLampState .off t).body = s.outFor.body := by
  unfold State.outFor
  by_cases enters : s.thermal.power = .standbyPending ∧ s.lampOut.thermal.runOn = none
  · rw [if_pos enters]
    obtain ⟨pending, cold⟩ := enters
    have was : s.lamp.state.lit = false := by
      cases lit : s.lamp.state.lit with
      | false => rfl
      | true => simp [State.lampOut, State.dutied, lit] at cold
    have runOn : s.thermal.runOn = none := by simpa [State.lampOut, State.dutied, was] using cold
    have out : (putLamp { s.lamp with
        state := .off, judging := s.lamp.judging && LampState.off.lit
        firing := if LampState.off.lit then s.lamp.firing else none } t).body
        = ({ s with lamp := s.lamp.unlit .off } : State).body := by
      rw [show LampState.off.lit = false from rfl, Bool.and_false]
      exact body_putLamp_of _ h
    unfold setLampState
    rw [body_lamp h, if_neg ne]
    refine (body_lampReport_enters out was rfl pending runOn).trans ?_
    unfold State.lampOut
    rw [was]
    rfl
  · rw [if_neg enters]
    refine body_setLampState_unlit h rfl ne ?_
    cases lit : s.lamp.state.lit with
    | true => exact .inl rfl
    | false => exact .inr fun down => enters ⟨down.1, by simpa [State.lampOut, State.dutied, lit] using down.2.2⟩

/-- The off mark of a completed ramp has acted (R91). -/
def State.offMarked (mark : Bool) (s : State) : State :=
  if mark = true ∧ (s.lamp.state = .on ∨ s.lamp.state = .failed) then s.outFor else s

theorem body_offMark {mark : Bool} {s t : State} (h : t.body = s.body) :
    (if mark then offMarkActs t else t).body = (s.offMarked mark).body := by
  unfold State.offMarked offMarkActs
  rw [body_lamp h]
  cases mark with
  | false => simpa using h
  | true =>
    cases state : s.lamp.state <;> simp only [if_true, true_and, reduceCtorEq, or_false, false_or, if_false]
    case on => exact body_setLampState_off h (by simp [state])
    case failed => exact body_setLampState_off h (by simp [state])
    all_goals exact h

/-- The part of the state that the off mark leaves alone. -/
theorem offMarked_frame (mark : Bool) (s : State) : (s.offMarked mark).cx = s.cx ∧ (s.offMarked mark).tray = s.tray
    ∧ (s.offMarked mark).remote = s.remote ∧ (s.offMarked mark).hdr = s.hdr ∧ (s.offMarked mark).log = s.log
    ∧ (s.offMarked mark).now = s.now ∧ (s.offMarked mark).shadow = s.shadow := by
  unfold State.offMarked State.outFor
  split
  · split <;> exact ⟨rfl, rfl, rfl, rfl, rfl, rfl, rfl⟩
  · exact ⟨rfl, rfl, rfl, rfl, rfl, rfl, rfl⟩

/-- No LAMP on waits for a lamp that is ON or FAILED (R17). -/
theorem noLampOn_of_settled {s : State} (rest : executorStep s = none)
    (answered : s.lamp.state = .on ∨ s.lamp.state = .failed) : noLampOn s := by
  intro x action phase
  rw [executorStep_warming (completion_of_rest rest) action phase] at rest
  rcases answered with state | state <;> simp [state] at rest

/-- The oldest completion has been taken, and its off mark has acted. -/
def State.rampTaken (d : RampDone) (rest : List RampDone) (s : State) : State :=
  State.offMarked d.offMark { s with lamp := { s.lamp with rampDone := rest } }

theorem rampTaken_frame (d : RampDone) (rest : List RampDone) (s : State) : (s.rampTaken d rest).cx = s.cx
    ∧ (s.rampTaken d rest).tray = s.tray ∧ (s.rampTaken d rest).remote = s.remote ∧ (s.rampTaken d rest).hdr = s.hdr
    ∧ (s.rampTaken d rest).log = s.log ∧ (s.rampTaken d rest).now = s.now
    ∧ (s.rampTaken d rest).shadow = s.shadow := offMarked_frame d.offMark _

theorem rampArrives_eq {s : State} {d : RampDone} {rest : List RampDone} (done : s.lamp.rampDone = d :: rest) :
    ∃ u, u.body = (s.rampTaken d rest).body ∧ u.port = s.port
      ∧ rampArrives s = if d.byAction then rampCourse u else u := by
  refine ⟨_, body_offMark (body_putLamp { s.lamp with rampDone := rest } s), ?_, ?_⟩
  · simp [apply_ite State.port]
  · unfold rampArrives
    rw [done]

theorem executorStep_rampTaken {s : State} (d : RampDone) (rest : List RampDone) (settled : executorStep s = none) :
    executorStep (s.rampTaken d rest) = none := by
  obtain ⟨cx, tray, remote, hdr, -⟩ := offMarked_frame d.offMark { s with lamp := { s.lamp with rampDone := rest } }
  by_cases acts : d.offMark = true ∧ (s.lamp.state = .on ∨ s.lamp.state = .failed)
  · exact executor_rest_lamp settled (noLampOn_of_settled settled acts.2) (congrArg Tray.completion tray) cx
      (congrArg Remote.netCount remote) (congrArg Remote.oneShot remote)
  · have same : s.rampTaken d rest = { s with lamp := { s.lamp with rampDone := rest } } := if_neg acts
    rw [same]
    exact executor_rest settled ⟨rfl, rfl, rfl, rfl, rfl, rfl⟩

/-! ## The action goes on with the ramp (R8, R9, R12 to R16) -/

theorem body_openWindow {s t : State} (h : t.body = s.body) : (openWindow t).body = ({ s with
    lamp := if s.lamp.window then s.lamp
      else { s.lamp with window := true, darkOwed := !s.lamp.dark, darkSent := false } } : State).body := by
  unfold openWindow
  rw [body_lamp h]
  cases s.lamp.window with
  | true => exact h
  | false => exact body_putLamp_of _ h

/-- An action in MOVING that holds the window open (R9). -/
def State.opened (y : Action) (s : State) : State :=
  { s.doing y with lamp := if s.lamp.window then s.lamp
    else { s.lamp with window := true, darkOwed := !s.lamp.dark, darkSent := false } }

theorem opened_dark (y : Action) (s : State) : (s.opened y).lamp.dark = s.lamp.dark := by
  unfold State.opened
  cases s.lamp.window <;> rfl

/-- The action in MOVING, with the window open. -/
def Action.movingDark (x : Action) : Action := { x with phase := .moving, window := true }

theorem enterMovingDark_eq {x : Action} {s t : State} (h : t.body = s.body) (action : s.cx.action = some x) :
    ∃ u, u.body = (s.opened x.movingDark).body ∧ u.port = t.port
      ∧ enterMovingDark t = if s.lamp.dark then issueRequest u else u := by
  have opened : (openWindow (setAction x.movingDark t)).body = (s.opened x.movingDark).body :=
    (body_openWindow (body_setAction h)).trans rfl
  refine ⟨_, opened, ?_, ?_⟩
  · simp [setAction]
  · unfold enterMovingDark
    rw [body_cx h, action]
    dsimp only
    rw [← opened_dark x.movingDark s, ← body_lamp opened]
    rfl

/-- The request of an action in MOVING behind a dark window (R10). -/
theorem issueRequest_dark {x : Action} {s t : State} (h : t.body = (s.opened x.movingDark).body) :
    ∃ u, u.body = (s.opened { x.movingDark with issued := true }).body ∧ u.port = t.port
      ∧ issueRequest t = requestTransport x.request.trayKind true u := by
  refine ⟨_, (body_setAction (x := { x.movingDark with issued := true }) h).trans rfl, by simp [setAction], ?_⟩
  rw [issueRequest_eq (x := x.movingDark) (by rw [body_cx h]; rfl)]
  rfl

theorem rampCourse_ends {t : State} {x : Action} (action : t.cx.action = some x)
    (phase : x.phase = .fading ∨ x.phase = .fadingIn ∨ x.phase = .restoring) : rampCourse t = endAction .ok t := by
  unfold rampCourse
  rw [action]
  rcases phase with phase | phase | phase <;> simp only [phase]

theorem rampCourse_fadedOut {t : State} {x : Action} (action : t.cx.action = some x) (phase : x.phase = .fadingOut) :
    rampCourse t = if t.tray.state = .trayOut then endAction .trayOut t
      else if t.tray.state = .jammed then endAction .jammed t else enterMovingDark t := by
  unfold rampCourse
  rw [action]
  simp only [phase]

theorem rampCourse_moves {t : State} {x : Action} (action : t.cx.action = some x)
    (phase : x.phase = .blanking ∨ (x.phase = .fadingOut ∧ t.tray.state ≠ .trayOut ∧ t.tray.state ≠ .jammed)) :
    rampCourse t = enterMovingDark t := by
  rcases phase with phase | ⟨phase, out, jam⟩
  · unfold rampCourse
    rw [action]
    simp only [phase]
  · rw [rampCourse_fadedOut action phase, if_neg out, if_neg jam]

/-- An event that itself ends the action. -/
theorem ends_endAction {c : Instr} {f : State → State} {s v t : State} {x : Action} {code : ResultCode}
    (settled : Settled s) (hc : exec c s = .next (live f s)) (ended : f s = endAction code t) (body : t.body = v.body)
    (action : v.cx.action = some x) (alone : endsAlone v x) (completion : v.tray.completion = none) (quiet : logQuiet v)
    (access : t.port.access = s.port.access) : Ends c s (v.actionEnded x code (x.answer v)) := by
  obtain ⟨sources, room, active⟩ := alone
  have rest := executorStep_endAction (code := code) body action completion sources
  have course : courses (f s) = logPump 5 (endAction code t) := by
    rw [courses, ended, settle_of_none 40 rest]
  refine ends_courses hc settled.1 (by rw [course]; exact body_logPump_endAction body action quiet room active)
    (executorStep_actionEnded completion sources) ?_ ?_
  · rw [actionEnded_eq]
    exact logQuiet_posted quiet
  · rw [course, port_logPump, hostWaits_congr (q := s.port) (by rw [← access]; simp)]
    exact settled.2.2.2

section
variable {s : State} {d : RampDone} {rest : List RampDone} {x : Action} (settled : Settled s)
  (done : s.lamp.rampDone = d :: rest) (byAction : d.byAction = true) (action : s.cx.action = some x)
include settled done byAction action

/-- The completion that the action waits for ends it (R12 to R16). -/
theorem ends_rampEnds {code : ResultCode} (alone : endsAlone s x)
    (course : ∀ t : State, t.cx.action = some x → t.tray = s.tray → rampCourse t = endAction code t) :
    Ends .rampComplete s ((s.rampTaken d rest).actionEnded x code (x.answer s)) := by
  obtain ⟨u, body, port, eq⟩ := rampArrives_eq done
  obtain ⟨cx, tray, remote, hdr, log, -⟩ := rampTaken_frame d rest s
  have goes : rampArrives s = endAction code u := by
    rw [eq, if_pos byAction]
    exact course u (by rw [body_cx body, cx]; exact action) ((body_tray body).trans tray)
  have values : x.answer (s.rampTaken d rest) = x.answer s := by
    rw [Action.answer, Action.answer, plainLastSlot, plainLastSlot, tray]
  rw [← values]
  refine ends_endAction settled rfl (f := rampArrives) goes body (by rw [cx]; exact action) ?_
    (by rw [tray]; exact completion_of_rest settled.2.1) ?_ (by rw [port])
  · rw [endsAlone, noSource, logRoom, cx, remote, hdr, log]
    exact alone
  · rw [logQuiet, hdr, log]
    exact settled.2.2.1

section
variable (phase : x.phase = .blanking ∨ (x.phase = .fadingOut ∧ s.tray.state ≠ .trayOut ∧ s.tray.state ≠ .jammed))
include phase

omit settled in
/-- A blanking, and a fade-out with a tray that works, go to MOVING (R8, R9, R14). -/
theorem rampArrives_moves : ∃ u, u.body = ((s.rampTaken d rest).opened x.movingDark).body ∧ u.port = s.port
    ∧ rampArrives s = if (s.rampTaken d rest).lamp.dark then issueRequest u else u := by
  obtain ⟨u, body, port, eq⟩ := rampArrives_eq done
  obtain ⟨cx, tray, -⟩ := rampTaken_frame d rest s
  have held : (s.rampTaken d rest).cx.action = some x := by rw [cx]; exact action
  obtain ⟨w, opened, port', goes⟩ := enterMovingDark_eq body held
  refine ⟨w, opened, port'.trans port, ?_⟩
  rw [eq, if_pos byAction, rampCourse_moves (by rw [body_cx body]; exact held) (by rw [body_tray body, tray]; exact phase)]
  exact goes

/-- A lit lamp holds the request for the dark event. -/
theorem ends_rampHolds (lit : (s.rampTaken d rest).lamp.dark = false) :
    Ends .rampComplete s ((s.rampTaken d rest).opened x.movingDark) := by
  obtain ⟨u, opened, port, goes⟩ := rampArrives_moves done byAction action phase
  obtain ⟨cx, tray, remote, hdr, log, -⟩ := rampTaken_frame d rest s
  have held : rampArrives s = u := goes.trans (if_neg (ne_true_of_eq_false lit))
  refine ends_live settled rfl (f := rampArrives) (by rw [held]; exact opened) ?_ ?_ (by rw [held, port])
  · exact executorStep_busy (x := x.movingDark) (by
      change (s.rampTaken d rest).tray.completion = none
      rw [tray]
      exact completion_of_rest (s := s) settled.2.1) rfl (by simp [Action.movingDark])
  · change logQuiet (s.rampTaken d rest)
    rw [logQuiet, hdr, log]
    exact settled.2.2.1

omit settled in
/-- With a dark lamp the request is issued at once. -/
theorem rampArrives_issues (dark : (s.rampTaken d rest).lamp.dark = true) :
    ∃ u, u.body = ((s.rampTaken d rest).opened { x.movingDark with issued := true }).body ∧ u.port = s.port
      ∧ rampArrives s = requestTransport x.request.trayKind true u := by
  obtain ⟨u, opened, port, goes⟩ := rampArrives_moves done byAction action phase
  obtain ⟨w, body, port', issues⟩ := issueRequest_dark opened
  exact ⟨w, body, port'.trans port, goes.trans ((if_pos dark).trans issues)⟩

/-- A transport that moves begins the lift at once (R10, R36). -/
theorem lifts_rampIssues (dark : (s.rampTaken d rest).lamp.dark = true) (ready : liftsAtOnce s)
    (plannable : x.request.trayKind.plannable s.tray.n = true) :
    Lifts .rampComplete s { (s.rampTaken d rest).opened { x.movingDark with issued := true } with
      tray := s.tray.lifted (TrayRequest.planned x.request.trayKind true
        (Plan.of s.tray.n s.tray.slot x.request.trayKind)) s.now } := by
  obtain ⟨u, body, port, goes⟩ := rampArrives_issues done byAction action phase dark
  obtain ⟨cx, tray, remote, hdr, log, now, shadow⟩ := rampTaken_frame d rest s
  obtain ⟨state, request, top, base, skip, slot⟩ := ready
  let v := (s.rampTaken d rest).opened { x.movingDark with issued := true }
  have vTray : v.tray = s.tray := tray
  have vNow : v.now = s.now := now
  have vHdr : v.hdr = s.hdr := hdr
  have lifts := liftsTo_requestTransport (s := v) (kind := x.request.trayKind) (dark := true) body
    (by rw [vTray]; exact request) (by rw [vTray]; exact state) (by rw [vTray]; exact plannable)
    (fun _ => (opened_dark _ _).trans dark) (.inl (by rw [vHdr]; exact skip))
    (by rw [vTray]; exact Nat.le_of_lt slot) (by rw [vHdr]; exact base) (by rw [vTray]; exact top)
  have same : Tray.lifted (TrayRequest.planned x.request.trayKind true
      (Plan.of v.tray.n v.tray.slot x.request.trayKind)) v.now v.tray = Tray.lifted (TrayRequest.planned
        x.request.trayKind true (Plan.of s.tray.n s.tray.slot x.request.trayKind)) s.now s.tray := by rw [vTray, vNow]
  rw [same] at lifts
  refine ends_lifts settled rfl (f := rampArrives) (by rw [goes]; exact lifts) ?_ ?_ (by rw [goes]; simp [port])
  · exact executorStep_busy (x := { x.movingDark with issued := true }) (completion_of_rest (s := s) settled.2.1) rfl
      (by simp [Action.movingDark])
  · change logQuiet (s.rampTaken d rest)
    rw [logQuiet, hdr, log]
    exact settled.2.2.1

/-- One that cannot move answers at once, and the action ends (R10, R29). -/
theorem ends_rampRefused (dark : (s.rampTaken d rest).lamp.dark = true) (alone : endsAlone s x) {o : TrayOutcome}
    {code : ResultCode} (result : x.resultOf o = some code)
    (answers : ∀ t : State, t.tray = s.tray →
      requestTransport x.request.trayKind true t = answerAtOnce o x.request.trayKind t) :
    let refused : State := { (s.rampTaken d rest).opened x.movingDark with tray := { s.tray with
      remaining := x.request.trayKind.count, lastSlot := if s.tray.known then s.tray.slot else 0 } }
    Ends .rampComplete s (refused.moveEnded x.movingDark code) := by
  intro refused
  obtain ⟨u, body, port, goes⟩ := rampArrives_issues done byAction action phase dark
  obtain ⟨cx, tray, remote, hdr, log, -⟩ := rampTaken_frame d rest s
  have uTray : u.tray = s.tray := (body_tray body).trans tray
  have answered := body_answerAtOnce (o := o) (kind := x.request.trayKind) body
  have vTray : ((s.rampTaken d rest).opened { x.movingDark with issued := true }).tray = s.tray := tray
  rw [vTray] at answered
  rw [answers u uTray] at goes
  have ended := ends_moveEnded (c := .rampComplete) (v := { refused with cx := { refused.cx with
      action := some { x.movingDark with issued := true } } }) (x := { x.movingDark with issued := true }) (o := o)
    (code := code) settled rfl (f := rampArrives) (by rw [goes]; exact answered) rfl rfl rfl ?_
    (completion_of_rest (s := s) settled.2.1) result ?_ (by rw [goes]; simp [port, answerAtOnce, sendCompletion])
  · exact ended
  · have alone' : endsAlone (s.rampTaken d rest) x := by
      rw [endsAlone, noSource, logRoom, cx, remote, hdr, log]
      exact alone
    exact alone'
  · change logQuiet (s.rampTaken d rest)
    rw [logQuiet, hdr, log]
    exact settled.2.2.1

end

end

/-- Settles O41. -/
theorem rampCompletionArrives : Obligations.RampCompletionArrives := by
  intro s d rest x settled done taken out put acted
  have same : acted = s.rampTaken d rest := rfl
  rw [same]
  refine ⟨fun alone => ?_, fun byAction action phase alone => ?_, fun byAction action phase alone => ⟨fun gone => ?_,
    fun jam => ?_⟩, fun byAction action phase => ⟨fun lit => ?_, fun dark ready plannable => ?_,
    fun dark free alone => ⟨fun gone => ?_, fun jam kind => ?_⟩⟩⟩
  · obtain ⟨u, body, port, eq⟩ := rampArrives_eq done
    obtain ⟨-, -, -, hdr, log, -⟩ := rampTaken_frame d rest s
    have held : rampArrives s = u := eq.trans (if_neg (ne_true_of_eq_false alone))
    exact ends_live settled rfl (f := rampArrives) (by rw [held]; exact body)
      (executorStep_rampTaken d rest settled.2.1) (by rw [logQuiet, hdr, log]; exact settled.2.2.1) (by rw [held, port])
  · exact ends_rampEnds settled done byAction action alone fun t held _ => rampCourse_ends held phase
  · exact ends_rampEnds settled done byAction action alone fun t held tray =>
      (rampCourse_fadedOut held phase).trans (if_pos (by rw [tray]; exact gone))
  · exact ends_rampEnds settled done byAction action alone fun t held tray =>
      (rampCourse_fadedOut held phase).trans ((if_neg (by rw [tray, jam]; decide)).trans
        (if_pos (by rw [tray]; exact jam)))
  · exact ends_rampHolds settled done byAction action phase lit
  · exact lifts_rampIssues settled done byAction action phase dark ready plannable
  · exact ends_rampRefused settled done byAction action phase dark alone rfl fun t tray =>
      requestTransport_trayOut rfl (by rw [tray]; exact free) (by rw [tray]; exact gone)
  · exact ends_rampRefused settled done byAction action phase dark alone rfl fun t tray =>
      requestTransport_jammed rfl (by rw [tray]; exact free) (by rw [tray]; exact jam) kind

end Sys2Proof.Machine
end
section
/-! INDEX pulses (R28, R35, R37, R38). -/

namespace Sys2Proof.Machine

/-! ## A pulse of ROTATE that finds no slip at HOME (R37) -/

/-- The pulse has stepped the slot. -/
def State.stepped (slot : Nat) (s : State) : State :=
  { s with tray := { s.tray with slot := slot, timerStart := s.now } }

theorem body_stepped {slot : Nat} (s : State) :
    (putTray { s.tray with slot := slot, timerStart := s.now } s).body = (s.stepped slot).body := body_putTray _ s

theorem indexPulseSeen_rotate {home : Bool} {s : State} (state : s.tray.state = .rotate) (wait : s.tray.wait = .none) :
    indexPulseSeen home s = rotatePulse home s := by
  simp [indexPulseSeen, state, wait]

/-- A count of 0 without HOME: the position is not known (R38). -/
def State.slipChecked (slipped : Bool) (s : State) : State :=
  if slipped then State.latched .positionSlip { s with tray := { s.tray with known := false } } else s

theorem body_slipChecked {slipped : Prop} [Decidable slipped] {s t : State} (h : t.body = s.body) :
    (if slipped then latch .positionSlip (putTray { t.tray with known := false } t) else t).body
      = (s.slipChecked (decide slipped)).body := by
  unfold State.slipChecked
  by_cases k : slipped
  · rw [if_pos k, decide_eq_true k, if_pos rfl, body_tray h]
    exact body_latched (body_putTray_of _ h)
  · rw [if_neg k, decide_eq_false k]
    simpa using h

section
variable {s : State} {home : Bool} {r : TrayRequest} {p : Plan} (request : s.tray.request = some r)
  (plan : r.plan = some p)
include request plan

theorem rotatePulse_slips (slips : home = true ∧ nextPos s.tray.n p.dir s.tray.slot ≠ 0) : rotatePulse home s =
    slipHome r p (p.toGo - 1)
      (putTray { s.tray with slot := nextPos s.tray.n p.dir s.tray.slot, timerStart := s.now } s) := by
  unfold rotatePulse
  rw [request]
  dsimp only
  rw [plan]
  exact if_pos slips

theorem rotatePulse_counts (counts : ¬(home = true ∧ nextPos s.tray.n p.dir s.tray.slot ≠ 0)) :
    ∃ u, u.body = ({ (s.stepped (nextPos s.tray.n p.dir s.tray.slot)).slipChecked
        (decide (home = false ∧ nextPos s.tray.n p.dir s.tray.slot = 0)) with
          tray := { ((s.stepped (nextPos s.tray.n p.dir s.tray.slot)).slipChecked
            (decide (home = false ∧ nextPos s.tray.n p.dir s.tray.slot = 0))).tray with
            request := some { r.reached (nextPos s.tray.n p.dir s.tray.slot) with
              plan := some { p with toGo := p.toGo - 1 } } } } : State).body
      ∧ u.port = s.port
      ∧ rotatePulse home s = if r.stopRequested || decide (p.toGo - 1 = 0) then enterDrop u else u := by
  have slip := body_slipChecked (slipped := home = false ∧ nextPos s.tray.n p.dir s.tray.slot = 0)
    (body_stepped (slot := nextPos s.tray.n p.dir s.tray.slot) s)
  refine ⟨_, body_putTray_of _ slip, ?_, ?_⟩
  · simp [apply_ite State.port]
  · unfold rotatePulse
    rw [request]
    dsimp only
    rw [plan]
    dsimp only
    rw [if_neg counts, ← body_tray slip]

end

/-! ## A slip at HOME (R38) -/

/-- The count has been corrected to 0, and position_slip latched. -/
def State.slipped (s : State) : State :=
  State.latched .positionSlip { s with tray := { s.tray with slot := 0, timerStart := s.now } }

/-- The count corrected, in the model's order. -/
def correctCount (t : State) : State := latch .positionSlip (putTray { t.tray with slot := 0 } t)

theorem body_correctCount {slot : Nat} {s t : State} (h : t.body = (s.stepped slot).body) :
    (correctCount t).body = s.slipped.body := by
  rw [correctCount, body_tray h]
  exact (body_latched (body_putTray_of (s := s.stepped slot) _ h)).trans rfl

section
variable {t : State} {r : TrayRequest} {p : Plan} {toGo n : Nat} (size : t.tray.n = n)
include size

theorem slipHome_goto {target : Nat} (kind : r.kind = .goto target) : slipHome r p toGo t =
    let q : Plan := { p with toGo := posDistance n p.dir 0 target }
    let u := putTray ((correctCount t).tray.setPlan q) (correctCount t)
    if r.stopRequested || decide (q.toGo = 0) then enterDrop u else u := by
  subst size
  unfold slipHome
  simp only [kind]
  rfl

theorem slipHome_other {k : Nat} (kind : r.kind = .advance k ∨ r.kind = .reverse k) : slipHome r p toGo t =
    let q : Plan := { p with toGo := if r.skipping then posDistance n p.dir 0 p.dest else toGo }
    if r.stopRequested then enterDrop (putTray ((correctCount t).tray.setPlan q) (correctCount t))
    else if r.skipping then
      startSearch (r.found.length + r.toFind) (putTray ((correctCount t).tray.setPlan q) (correctCount t))
    else replan { q with dest := posAfter n p.dir 0 toGo } (correctCount t) := by
  subst size
  unfold slipHome
  rcases kind with kind | kind <;> simp only [kind] <;> rfl

end

/-- The plan after a slip. -/
theorem body_replanned {q : Plan} {r : TrayRequest} {slot : Nat} {s t : State} (h : t.body = (s.stepped slot).body)
    (request : s.tray.request = some r) : (putTray ((correctCount t).tray.setPlan q) (correctCount t)).body =
      ({ s.slipped with tray := { s.slipped.tray with request := some { r with plan := some q } } } : State).body := by
  have planned := body_planSet (p := q) (body_correctCount h)
  rwa [planSet_some (s := s.slipped) request] at planned

theorem body_enterDrop_rotating {s t : State} (h : t.body = s.body) (start : s.tray.timerStart = s.now)
    (wait : s.tray.wait = .none) : (enterDrop t).body = ({ s with tray := { s.tray with state := .drop } } : State).body := by
  refine (body_enterDrop h).trans ?_
  unfold State.dropping
  rw [← start, ← wait]

/-- A rotation whose plan is fixed goes on, or ends (R38). -/
theorem body_destinationReady_rotate {s t : State} (h : t.body = s.body) (state : s.tray.state = .rotate)
    (start : s.tray.timerStart = s.now) (wait : s.tray.wait = .none) : (destinationReady t).body =
      ({ s with tray := { s.tray with state := if s.tray.toGo = 0 then .drop else .rotate } } : State).body := by
  have same (a : Nat) (w : TrayWait) (st : TrayState) (ha : s.tray.timerStart = a) (hw : s.tray.wait = w) :
      ({ s with tray := { s.tray with timerStart := a, wait := w, state := st } } : State)
        = { s with tray := { s.tray with state := st } } := by
    subst ha hw
    rfl
  have waited := body_putTray_of { s.tray with wait := .none } h
  unfold destinationReady
  rw [body_tray h]
  dsimp only
  rw [body_tray waited]
  refine (congrArg State.body (if_pos state)).trans ?_
  by_cases none_ : s.tray.toGo = 0
  · rw [if_pos none_]
    exact (congrArg State.body (if_pos none_)).trans ((body_enterDrop waited).trans
      (congrArg State.body (same _ _ .drop start wait)))
  · rw [if_neg none_, ← state]
    refine (congrArg State.body (if_neg none_)).trans ?_
    rw [body_now waited]
    exact (body_putTray_of _ waited).trans (congrArg State.body (same _ _ s.tray.state start wait))

/-- A rotation re-planned with no table and no pin (R38). -/
theorem body_replan {q : Plan} {r : TrayRequest} {s t : State} (h : t.body = s.body) (request : s.tray.request = some r)
    (state : s.tray.state = .rotate) (start : s.tray.timerStart = s.now) (wait : s.tray.wait = .none)
    (pin : s.tray.destPin = none) (base : s.hdr.settings.slotBase = 0) : (replan q t).body = ({ s with tray := { s.tray with
      state := if q.toGo = 0 then .drop else .rotate, request := some { r with plan := some q } } } : State).body := by
  have set := body_planSet (p := q) h
  have ready {u : State} (k : u.body = (s.planSet q).body) := body_destinationReady_rotate k
    (by rw [planSet_some request]; exact state) (by rw [planSet_some request]; exact start)
    (by rw [planSet_some request]; exact wait)
  have same : ({ s.planSet q with tray := { (s.planSet q).tray with
      state := if (s.planSet q).tray.toGo = 0 then .drop else .rotate } } : State) = { s with tray := { s.tray with
      state := if q.toGo = 0 then .drop else .rotate, request := some { r with plan := some q } } } := by
    rw [planSet_some request]
    rfl
  rw [← same]
  unfold replan
  split
  · exact ready set
  · have bare : releaseDest t = t := by rw [releaseDest, body_tray h, pin]
    obtain ⟨u, goes, body⟩ := fixDestination_noTable (p := q) h base
    rw [bare, goes]
    exact ready body

/-! ## A skip search after a slip, and homing (R35, R38) -/

theorem searchRun_waits {n : Nat} {se : Search} {s t : State} {i : Nat} (h : t.body = s.body)
    (misses : slotMisses se.pos i s) : (searchRun (n + 1) se t).body =
      (State.fetchingSlot se.pos i 0 { s with tray := { s.tray with wait := .search se } }).body := by
  obtain ⟨u, look, body⟩ := lookup_misses (kind := .slot) (pin := false) h misses.1 misses.2.1 misses.2.2
  rw [searchRun, look]
  dsimp only
  rw [body_tray body]
  exact body_putTray_of _ body

theorem startSearch_runs {find : Nat} {r : TrayRequest} {t : State} (request : t.tray.request = some r)
    (more : r.examined < t.tray.n - 1) : startSearch find t =
      searchRun 96 { pos := nextPos t.tray.n r.kind.dir t.tray.slot, find := find, found := [] } t := by
  unfold startSearch
  rw [request]
  exact if_neg (Nat.not_le.2 more)

theorem indexPulseSeen_homing {home : Bool} {s : State} (state : s.tray.state = .homing)
    (step : s.tray.homingStep = .rotate) : indexPulseSeen home s = homingPulse home s := by
  simp [indexPulseSeen, state, step]

theorem homingPulse_counts {s : State} (few : s.tray.homingCount + 1 ≠ s.tray.n + 2) : homingPulse false s =
    putTray { s.tray with homingCount := s.tray.homingCount + 1, timerStart := s.now } s := by
  unfold homingPulse
  simp only [Bool.false_eq_true, if_false, putTray_tray, if_neg few]

theorem homingPulse_jams {s : State} (many : s.tray.homingCount + 1 = s.tray.n + 2) : homingPulse false s =
    enterJam false (putTray { s.tray with homingCount := s.tray.homingCount + 1, timerStart := s.now } s) := by
  unfold homingPulse
  simp [many]

theorem indexPulseSeen_still {home : Bool} {s : State} (still : s.tray.turning = false) : indexPulseSeen home s = s := by
  unfold indexPulseSeen
  unfold Tray.turning at still
  split
  · next state =>
    refine if_neg fun wait => ?_
    simp [state, wait] at still
  · next state =>
    refine if_neg fun step => ?_
    simp [state, step] at still
  · rfl

theorem port_indexPulseSeen (home : Bool) (s : State) : (indexPulseSeen home s).port = s.port := by simp

section
variable {s : State} {r : TrayRequest} {p : Plan} {home : Bool} (settled : Settled s) (state : s.tray.state = .rotate)
  (wait : s.tray.wait = .none) (request : s.tray.request = some r) (plan : r.plan = some p)
include settled state wait request plan

/-- A pulse that steps the slot and goes on, or ends the rotation (R37). -/
theorem ends_pulse {st : TrayState} (counts : home = true → nextPos s.tray.n p.dir s.tray.slot = 0)
    (goes : st = if r.stopRequested = true ∨ p.toGo - 1 = 0 then .drop else .rotate) :
    let slot := nextPos s.tray.n p.dir s.tray.slot
    let slipped := home = false ∧ slot = 0
    let u : State := { s with tray := { s.tray with
      slot := slot, timerStart := s.now, state := st, known := if slipped then false else s.tray.known
      request := some { r.reached slot with plan := some { p with toGo := p.toGo - 1 } } } }
    Ends (.indexPulse home) s (if slipped then u.latched .positionSlip else u) := by
  intro slot slipped u
  obtain ⟨v, body, port, eq⟩ := rotatePulse_counts (home := home) request plan fun k => k.2 (counts k.1)
  let w : State := { u with tray := { u.tray with state := s.tray.state } }
  have counted : v.body = (if slipped then w.latched .positionSlip else w).body := by
    refine body.trans ?_
    unfold State.slipChecked
    by_cases slip : slipped
    · have known : w.tray.known = false := if_pos slip
      rw [if_pos slip, if_pos (decide_eq_true slip)]
      exact congrArg (fun b => (State.latched .positionSlip { w with tray := { w.tray with known := b } }).body) known.symm
    · have known : w.tray.known = s.tray.known := if_neg slip
      rw [if_neg slip, if_neg (fun k => slip (of_decide_eq_true k))]
      exact congrArg (fun b => ({ w with tray := { w.tray with known := b } } : State).body) known.symm
  have pulsed : (indexPulseSeen home s).body = (if slipped then u.latched .positionSlip else u).body := by
    rw [indexPulseSeen_rotate state wait, eq]
    by_cases stops : r.stopRequested = true ∨ p.toGo - 1 = 0
    · have drop : st = .drop := goes.trans (if_pos stops)
      refine (congrArg State.body (if_pos (by simpa using stops))).trans ?_
      subst drop
      by_cases slip : slipped
      · rw [if_pos slip] at counted ⊢
        exact body_enterDrop_rotating counted rfl wait
      · rw [if_neg slip] at counted ⊢
        exact body_enterDrop_rotating counted rfl wait
    · have rotate : st = s.tray.state := (goes.trans (if_neg stops)).trans state.symm
      refine (congrArg State.body (if_neg (by simpa using stops))).trans (counted.trans ?_)
      subst rotate
      rfl
  refine ends_still settled rfl (f := indexPulseSeen home) pulsed ?_ ?_ ?_ ?_ ?_ ?_ (by rw [port_indexPulseSeen]) <;>
    split <;> rfl

/-- A pulse that finds HOME at another count (R38), for a GOTO. -/
theorem ends_slipGoto {target : Nat} (kind : r.kind = .goto target)
    (slips : nextPos s.tray.n p.dir s.tray.slot ≠ 0) :
    let d := posDistance s.tray.n p.dir 0 target
    Ends (.indexPulse true) s (State.latched .positionSlip { s with tray := { s.tray with
      slot := 0, timerStart := s.now, state := if r.stopRequested = true ∨ d = 0 then .drop else .rotate
      request := some { r with plan := some { p with toGo := d } } } }) := by
  intro d
  have planned := body_replanned (q := { p with toGo := d }) (body_stepped (slot := nextPos s.tray.n p.dir s.tray.slot) s)
    request
  have pulsed := (indexPulseSeen_rotate (home := true) state wait).trans ((rotatePulse_slips request plan ⟨rfl, slips⟩).trans
    (slipHome_goto (n := s.tray.n) (by simp) kind))
  refine ends_still settled rfl (f := indexPulseSeen true) ?_ rfl rfl rfl rfl rfl rfl (by rw [port_indexPulseSeen])
  rw [pulsed]
  by_cases stops : r.stopRequested = true ∨ d = 0
  · rw [if_pos stops]
    refine (congrArg State.body (if_pos ?_)).trans ((body_enterDrop_rotating planned rfl wait).trans rfl)
    simpa using stops
  · rw [if_neg stops, ← state]
    refine (congrArg State.body (if_neg ?_)).trans (planned.trans rfl)
    simpa using stops

section
variable {k : Nat} (kind : r.kind = .advance k ∨ r.kind = .reverse k) (slips : nextPos s.tray.n p.dir s.tray.slot ≠ 0)
include kind slips

omit settled in
theorem indexPulseSeen_slips : indexPulseSeen true s =
    let t := putTray { s.tray with slot := nextPos s.tray.n p.dir s.tray.slot, timerStart := s.now } s
    let q : Plan := { p with toGo := if r.skipping then posDistance s.tray.n p.dir 0 p.dest else p.toGo - 1 }
    if r.stopRequested then enterDrop (putTray ((correctCount t).tray.setPlan q) (correctCount t))
    else if r.skipping then
      startSearch (r.found.length + r.toFind) (putTray ((correctCount t).tray.setPlan q) (correctCount t))
    else replan { q with dest := posAfter s.tray.n p.dir 0 (p.toGo - 1) } (correctCount t) :=
  (indexPulseSeen_rotate (home := true) state wait).trans ((rotatePulse_slips request plan ⟨rfl, slips⟩).trans
    (slipHome_other (n := s.tray.n) (by simp) kind))

/-- A stop requested ends the rotation at the slip. -/
theorem ends_slipStopped (stop : r.stopRequested = true) :
    let d := if r.skipping then posDistance s.tray.n p.dir 0 p.dest else p.toGo - 1
    Ends (.indexPulse true) s (State.latched .positionSlip { s with tray := { s.tray with
      slot := 0, timerStart := s.now, state := .drop, request := some { r with plan := some { p with toGo := d } } } }) := by
  intro d
  have planned := body_replanned (q := { p with toGo := d }) (body_stepped (slot := nextPos s.tray.n p.dir s.tray.slot) s)
    request
  refine ends_still settled rfl (f := indexPulseSeen true) ?_ rfl rfl rfl rfl rfl rfl (by rw [port_indexPulseSeen])
  rw [indexPulseSeen_slips state wait request plan kind slips]
  exact (congrArg State.body (if_pos stop)).trans ((body_enterDrop_rotating planned rfl wait).trans rfl)

/-- Without skipping the positions to go are kept, and the destination moves with them. -/
theorem ends_slipKept (on_ : r.stopRequested = false) (plain : r.skipping = false) (pin : s.tray.destPin = none)
    (base : s.hdr.settings.slotBase = 0) :
    let d := p.toGo - 1
    Ends (.indexPulse true) s (State.latched .positionSlip { s with tray := { s.tray with
      slot := 0, timerStart := s.now, state := if d = 0 then .drop else .rotate
      request := some { r with plan := some { p with dest := posAfter s.tray.n p.dir 0 d, toGo := d } } } }) := by
  intro d
  have corrected := body_correctCount (body_stepped (slot := nextPos s.tray.n p.dir s.tray.slot) s)
  have replanned := body_replan (q := { p with dest := posAfter s.tray.n p.dir 0 d, toGo := d }) corrected request state rfl
    wait pin base
  refine ends_still settled rfl (f := indexPulseSeen true) ?_ rfl rfl rfl rfl rfl rfl (by rw [port_indexPulseSeen])
  rw [indexPulseSeen_slips state wait request plan kind slips]
  refine (congrArg State.body ((if_neg (ne_true_of_eq_false on_)).trans (if_neg (ne_true_of_eq_false plain)))).trans ?_
  rw [if_neg (ne_true_of_eq_false plain)]
  exact replanned.trans rfl

/-- With skipping the search goes on from 0, and waits for its first record. -/
theorem ends_slipSearches {i : Nat} (on_ : r.stopRequested = false) (skip : r.skipping = true)
    (more : r.examined < s.tray.n - 1) (misses : slotMisses (nextPos s.tray.n r.kind.dir 0) i s) :
    let first := nextPos s.tray.n r.kind.dir 0
    Ends (.indexPulse true) s (State.latched .positionSlip (State.fetchingSlot first i 0 { s with tray := { s.tray with
      slot := 0, timerStart := s.now, wait := .search { pos := first, find := r.found.length + r.toFind, found := [] }
      request := some { r with plan := some { p with toGo := posDistance s.tray.n p.dir 0 p.dest } } } })) := by
  intro first
  have planned := body_replanned (q := { p with toGo := posDistance s.tray.n p.dir 0 p.dest })
    (body_stepped (slot := nextPos s.tray.n p.dir s.tray.slot) s) request
  refine ends_still settled rfl (f := indexPulseSeen true) ?_ rfl rfl rfl rfl rfl rfl (by rw [port_indexPulseSeen])
  rw [indexPulseSeen_slips state wait request plan kind slips]
  refine (congrArg State.body ((if_neg (ne_true_of_eq_false on_)).trans (if_pos skip))).trans ?_
  rw [if_pos skip, startSearch_runs (by rw [body_tray planned]) (by rw [body_tray planned]; exact more), body_tray planned]
  exact (searchRun_waits planned misses).trans rfl

end

end

/-- A pulse of homing's rotation without HOME is counted. -/
theorem ends_homingCounts {s : State} (settled : Settled s) (state : s.tray.state = .homing)
    (step : s.tray.homingStep = .rotate) (few : s.tray.homingCount + 1 ≠ s.tray.n + 2) :
    Ends (.indexPulse false) s
      { s with tray := { s.tray with homingCount := s.tray.homingCount + 1, timerStart := s.now } } := by
  have done := (indexPulseSeen_homing (home := false) state step).trans (homingPulse_counts few)
  exact ends_still settled rfl (f := indexPulseSeen false) ((congrArg State.body done).trans (body_putTray _ s))
    rfl rfl rfl rfl rfl rfl (by rw [port_indexPulseSeen])

/-- The count of N + 2 is a jam. -/
theorem ends_homingJams {s : State} {x : Action} {r : TrayRequest} (settled : Settled s) (state : s.tray.state = .homing)
    (step : s.tray.homingStep = .rotate) (many : s.tray.homingCount + 1 = s.tray.n + 2) (waits : awaitsTray s x r) :
    Ends (.indexPulse false) s ((({ s with tray := { s.tray with
      homingCount := s.tray.homingCount + 1, timerStart := s.now } } : State).jammedNow false).moveEnded x .jammed) := by
  have done := (indexPulseSeen_homing (home := false) state step).trans (homingPulse_jams many)
  exact ends_jam settled rfl (f := indexPulseSeen false) done (body_putTray _ s) waits (completion_of_rest (s := s) settled.2.1)
    settled.2.2.1 (by simp)

/-- Settles O36. -/
theorem indexPulse : Obligations.IndexPulse := by
  intro s home r p target i x settled t
  refine ⟨fun state wait request plan => ⟨fun counts on_ more => ?_, fun counts stops => ?_, fun kind at_ slips => ?_,
      fun stop kind at_ slips => ?_, fun on_ kind plain at_ slips pin base => ?_,
      fun on_ kind skip at_ slips more misses => ?_⟩,
    fun state step => ⟨?_, fun few => ?_, fun many waits => ?_⟩, fun still => ?_⟩
  · exact ends_pulse settled state wait request plan counts
      (if_neg fun stops => stops.elim (ne_true_of_eq_false on_) more).symm
  · exact ends_pulse settled state wait request plan counts (if_pos stops).symm
  · subst at_
    exact ends_slipGoto settled state wait request plan kind slips
  · subst at_
    exact ends_slipStopped settled state wait request plan kind slips stop
  · subst at_
    exact ends_slipKept settled state wait request plan kind slips on_ plain pin base
  · subst at_
    exact ends_slipSearches settled state wait request plan kind slips on_ skip more misses
  · exact ends_still settled rfl (f := indexPulseSeen true)
      ((congrArg State.body (indexPulseSeen_homing state step)).trans (body_putTray _ s))
      rfl rfl rfl rfl rfl rfl (by rw [port_indexPulseSeen])
  · exact ends_homingCounts settled state step few
  · exact ends_homingJams settled state step many waits
  · exact ends_nothing settled rfl (f := indexPulseSeen home) (indexPulseSeen_still still)

end Sys2Proof.Machine
end
section
/-! The timers of the cue track, the elements of the remote line and the focus motor (R127, R143, R146, R172, R180). -/

namespace Sys2Proof.Machine

/-! ## Ends that leave the executor's part alone -/

/-- A command that ends with a record handed to the Log Writer, which has room for it. -/
theorem ends_logged {c : Instr} {f : State → State} {s v w : State} {r : LogRecord} (settled : Settled s)
    (hc : exec c s = .next (live f s)) (effect : f s = handLog r w) (body : w.body = v.body) (same : SameExecutor s v)
    (room : logRoom v) (access : w.port.access = s.port.access) : Ends c s (v.logged r) := by
  have rest := executor_rest settled.2.1 same
  have same_ : SameExecutor v (v.logged r) := by
    unfold State.logged
    split <;> exact ⟨rfl, rfl, rfl, rfl, rfl, rfl⟩
  have executor : executorStep (handLog r w) = none :=
    (executorStep_none_congr (s := w) (by simp) (by simp) (by simp) (by simp) (by simp) (by simp)).2
      ((executorStep_none_of_body body).2 rest)
  have course : courses (f s) = logPump 5 (handLog r w) := by rw [effect, courses, settle_of_none 40 executor]
  refine ends_courses hc settled.1 (by rw [course]; exact body_logPump_handLog body room) (executor_rest rest same_)
    logQuiet_logged ?_
  rw [course, port_logPump, hostWaits_congr (q := s.port) (by simpa using access)]
  exact settled.2.2.2

/-- A command that leaves what the executor and the Log Writer look at. -/
theorem ends_quietly {c : Instr} {f : State → State} {s u : State} (settled : Settled s)
    (hc : exec c s = .next (live f s)) (body : (f s).body = u.body) (same : SameExecutor s u)
    (ring : u.hdr.settings.ringBase = s.hdr.settings.ringBase) (log : u.log = s.log)
    (access : (f s).port.access = s.port.access) : Ends c s u := by
  refine ends_live settled hc body (executor_rest settled.2.1 same) ?_ access
  rw [logQuiet, ring, log]
  exact settled.2.2.1

/-! ## The carrier's loss and the timers of the tape (R127, R143, R146) -/

/-- The decoder as the loss of the carrier leaves it. -/
def CueTrack.silent (c : CueTrack) : CueTrack :=
  { c with carrier := .absent, locked := false, window := [], group := [], spoiled := false }

/-- A frame has failed: it is counted bad, and none is in progress. -/
def CueTrack.failed (c : CueTrack) : CueTrack := { c with bad := countUp c.bad, frame := .between, fields := [] }

theorem body_toHunt {s t : State} (h : t.body = s.body) : (toHunt t).body = ({ s with
    cue := { s.cue with locked := false, window := [], group := [], spoiled := false } } : State).body := by
  unfold toHunt
  rw [body_cue h]
  exact body_putCue_of _ h

/-- The failure of a frame but for its record. -/
def markFailed (s : State) : State :=
  latch .cueFault (putCue s.cue.failed s)

theorem failFrame_eq (cause : FrameCause) (count : Nat) (s : State) : failFrame cause count s =
    if s.hdr.settings.errorLog then handLog (.frameError cause count s.cue.tapeTime) (markFailed s) else markFailed s := by
  unfold failFrame markFailed
  simp [CueTrack.failed]

theorem body_markFailed {s t : State} (h : t.body = s.body) :
    (markFailed t).body = (State.latched .cueFault { s with cue := s.cue.failed }).body := by
  unfold markFailed
  rw [body_cue h]
  exact body_latched (body_putCue_of _ h)

/-- The part after the loss of the carrier but for what becomes of a frame in progress. -/
def State.carrierGone (s : State) : State := State.latched .carrierLost { s with cue := s.cue.silent }

/-- The same as an operation. -/
def carrierAway (s : State) : State := latch .carrierLost (toHunt (putCue { s.cue with carrier := .absent } s))

theorem body_carrierAway {s t : State} (h : t.body = s.body) : (carrierAway t).body = s.carrierGone.body := by
  unfold carrierAway
  rw [body_cue h]
  exact body_latched ((body_toHunt (body_putCue_of { s.cue with carrier := .absent } h)).trans rfl)

theorem dropCarrier_between {s : State} (between : s.cue.frame = .between) : dropCarrier s = carrierAway s := if_pos between

theorem dropCarrier_fails {s : State} (progress : s.cue.frame ≠ .between) :
    dropCarrier s = failFrame .truncated s.cue.fields.length (carrierAway s) := if_neg progress

theorem carrierLossDue_iff {s : State} :
    carrierLossDue s = true ↔ s.cue.carrier = .present ∧ 500000 ≤ s.now - s.cue.lastValid := by
  rw [carrierLossDue, Bool.and_eq_true, decide_eq_true_iff, decide_eq_true_iff]
  rfl

theorem loseCarrier_due {s : State} (due : s.cue.carrier = .present ∧ 500000 ≤ s.now - s.cue.lastValid) :
    loseCarrier s = dropCarrier s := if_pos (carrierLossDue_iff.2 due)

theorem loseCarrier_waits {s : State} (due : ¬(s.cue.carrier = .present ∧ 500000 ≤ s.now - s.cue.lastValid)) :
    loseCarrier s = s := if_neg fun k => due (carrierLossDue_iff.1 k)

theorem carrierAway_frame (s : State) : (carrierAway s).port = s.port ∧ (carrierAway s).hdr = s.hdr
    ∧ (carrierAway s).cue.tapeTime = s.cue.tapeTime := by
  simp [carrierAway, toHunt]

theorem holdExpiry_due {s : State} {t : Nat} (until_ : s.deck.holdUntil = some t) (due : t ≤ s.now) :
    holdExpiry s = putDeck { s.deck with cue := false, holdUntil := none } s := by
  refine if_pos ?_
  simpa [holdDue, until_] using due

theorem holdExpiry_waits {s : State} {t : Nat}
    (waits : s.deck.holdUntil = none ∨ (s.deck.holdUntil = some t ∧ s.now < t)) : holdExpiry s = s := by
  refine if_neg ?_
  rcases waits with off | ⟨on_, early⟩
  · simp [holdDue, off]
  · simpa [holdDue, on_] using early

theorem tapeTickDue_iff {s : State} : tapeTickDue s = true ↔
    s.cue.carrier = .present ∧ s.deck.tapeRun = true ∧ 10000 ≤ s.cue.tapeUs := by
  rw [tapeTickDue, Bool.and_eq_true, Bool.and_eq_true, decide_eq_true_iff, decide_eq_true_iff, and_assoc]
  rfl

/-- Settles O50: each timer where it is due, and where it is not. -/
theorem carrierLossAndTapeTimers : Obligations.CarrierLossAndTapeTimers := by
  intro s t on_ settled c gone due ticks
  have away := body_carrierAway (s := s) rfl
  refine ⟨fun due between => ?_, fun due progress quiet => ?_, fun due progress logs room => ?_, fun early => ?_,
    fun until_ past => ?_, fun waits => ?_, ?_, fun due => ?_, fun early => ?_⟩
  · have effect := (loseCarrier_due due).trans (dropCarrier_between between)
    exact ends_still settled rfl (f := loseCarrier) ((congrArg State.body effect).trans away) rfl rfl rfl rfl rfl rfl
      (by rw [effect, (carrierAway_frame s).1])
  · have effect := (loseCarrier_due due).trans ((dropCarrier_fails progress).trans ((failFrame_eq _ _ _).trans
      (if_neg (by rw [(carrierAway_frame s).2.1, quiet]; exact Bool.false_ne_true))))
    exact ends_still settled rfl (f := loseCarrier) ((congrArg State.body effect).trans ((body_markFailed away).trans rfl))
      rfl rfl rfl rfl rfl rfl (by rw [effect]; simp [markFailed, carrierAway_frame])
  · have effect := (loseCarrier_due due).trans ((dropCarrier_fails progress).trans ((failFrame_eq _ _ _).trans
      (if_pos (by rw [(carrierAway_frame s).2.1, logs]))))
    rw [(carrierAway_frame s).2.2] at effect
    exact ends_logged settled rfl (f := loseCarrier) effect ((body_markFailed away).trans rfl) ⟨rfl, rfl, rfl, rfl, rfl, rfl⟩
      room (by simp [markFailed, carrierAway_frame])
  · exact ends_nothing settled rfl (f := loseCarrier) (loseCarrier_waits early)
  · have effect := holdExpiry_due until_ past
    exact ends_still settled rfl (f := holdExpiry) ((congrArg State.body effect).trans (body_putDeck_of _ rfl))
      rfl rfl rfl rfl rfl rfl (by simp)
  · exact ends_nothing settled rfl (f := holdExpiry) (holdExpiry_waits waits)
  · exact ends_still settled rfl (f := tapeRunChange on_) (body_putDeck_of _ rfl) rfl rfl rfl rfl rfl rfl (by simp [tapeRunChange])
  · have effect : tapeTickNow s = _ := if_pos (tapeTickDue_iff.2 due)
    exact ends_still settled rfl (f := tapeTickNow) ((congrArg State.body effect).trans (body_putCue_of _ rfl))
      rfl rfl rfl rfl rfl rfl (by simp)
  · exact ends_nothing settled rfl (f := tapeTickNow) (if_neg fun due => early (tapeTickDue_iff.1 due))

/-! ## Elements of the remote line (R172) -/

theorem body_putRemote_of (r : Remote) {s t : State} (h : t.body = s.body) :
    (putRemote r t).body = ({ s with remote := r } : State).body := by
  rw [body_putRemote, h]
  rfl

/-- The receiver waits, with no bits. -/
def Remote.idle (r : Remote) : Remote := { r with line := .waiting, bits := [], markSeen := false }

theorem body_lineIdle {s t : State} (h : t.body = s.body) :
    (lineIdle t).body = ({ s with remote := s.remote.idle } : State).body := by
  unfold lineIdle
  rw [body_remote h]
  exact body_putRemote_of _ h

theorem lineMark_abandons {len : Nat} {s : State}
    (at_ : s.remote.line = .waiting ∨ (s.remote.line = .bits ∧ ¬(s.remote.markSeen = false ∧ shortElement len = true))) :
    lineMark len s = abandonAtMark len s := by
  unfold lineMark
  rcases at_ with line | ⟨line, long⟩ <;> rw [line]
  exact if_neg long

theorem leaderMark_iff {len : Nat} : leaderMark len = true ↔ 4500 ≤ len ∧ len ≤ 7500 := by simp [leaderMark]
theorem leaderSpace_iff {len : Nat} : leaderSpace len = true ↔ 2250 ≤ len ∧ len ≤ 3750 := by simp [leaderSpace]
theorem shortElement_iff {len : Nat} : shortElement len = true ↔ 300 ≤ len ∧ len ≤ 700 := by simp [shortElement]
theorem longSpace_iff {len : Nat} : longSpace len = true ↔ 1200 ≤ len ∧ len ≤ 1800 := by simp [longSpace]

theorem body_abandonAtMark_leader {len : Nat} {s : State} (long : 4500 ≤ len ∧ len ≤ 7500) :
    (abandonAtMark len s).body
      = ({ s with remote := { s.remote with line := .leader, bits := [], markSeen := true } } : State).body := by
  have idle := body_lineIdle (s := s) rfl
  refine (congrArg State.body (if_pos (leaderMark_iff.2 long))).trans ?_
  rw [body_remote idle]
  exact (body_putRemote_of _ idle).trans rfl

theorem abandonAtMark_waits {len : Nat} {s : State} (other : ¬(4500 ≤ len ∧ len ≤ 7500)) :
    abandonAtMark len s = lineIdle s := if_neg fun k => other (leaderMark_iff.1 k)

theorem spaceBit_none {len : Nat} (out : len < 300 ∨ (700 < len ∧ len < 1200) ∨ 1800 < len) : spaceBit len = none := by
  unfold spaceBit
  rw [if_neg (by rw [shortElement_iff]; omega), if_neg (by rw [longSpace_iff]; omega)]

theorem lineSpace_leads {len : Nat} {s : State} (line : s.remote.line = .leader) (fits : 2250 ≤ len ∧ len ≤ 3750) :
    lineSpace len s = putRemote { s.remote with line := .bits, bits := [], markSeen := false } s := by
  rw [lineSpace, line]
  exact if_pos (leaderSpace_iff.2 fits)

/-- A space that the line's state does not wait for abandons the frame. -/
theorem lineSpace_abandons {len : Nat} {s : State}
    (out : (s.remote.line = .leader ∧ ¬(2250 ≤ len ∧ len ≤ 3750)) ∨
      (s.remote.line = .bits ∧ s.remote.markSeen = true ∧ (len < 300 ∨ (700 < len ∧ len < 1200) ∨ 1800 < len)) ∨
      ((s.remote.line = .bits ∨ s.remote.line = .closing) ∧ s.remote.markSeen = false ∧ 3750 < len)) :
    lineSpace len s = lineIdle s := by
  unfold lineSpace
  rcases out with ⟨line, out⟩ | ⟨line, seen, out⟩ | ⟨line | line, awaits, long⟩ <;> rw [line]
  · exact if_neg fun k => out (leaderSpace_iff.1 k)
  · simp only [seen, if_true, spaceBit_none out]
  · simp only [awaits, Bool.false_eq_true, if_false, if_pos long]
  · exact if_pos long

/-- A row of one element that leaves the receiver in this state. -/
theorem ends_element {e : LineElement} {s : State} {r : Remote} (settled : Settled s)
    (body : (lineElement e s).body = ({ s with remote := r } : State).body) (net : r.netCount = s.remote.netCount)
    (oneShot : r.oneShot = s.remote.oneShot) : Ends (.remoteFrameAbandoned [e]) s { s with remote := r } :=
  ends_quietly settled rfl (f := lineElements [e]) body ⟨rfl, rfl, rfl, net, oneShot, rfl⟩ rfl rfl (by simp)

/-- Settles O55, by the state of the line. -/
theorem framesAreAbandoned : Obligations.FramesAreAbandoned := by
  intro s len settled r waiting leader
  have idle := body_lineIdle (s := s) rfl
  have leads (at_ : s.remote.line = .waiting ∨
      (s.remote.line = .bits ∧ ¬(s.remote.markSeen = false ∧ shortElement len = true))) (long : 4500 ≤ len ∧ len ≤ 7500) :
      Ends (.remoteFrameAbandoned [.mark len]) s leader :=
    ends_element (e := .mark len) settled ((congrArg State.body (lineMark_abandons at_)).trans (body_abandonAtMark_leader long))
      rfl rfl
  have dropped (e : LineElement) (drops : lineElement e s = lineIdle s) : Ends (.remoteFrameAbandoned [e]) s waiting :=
    ends_element (e := e) settled ((congrArg State.body drops).trans idle) rfl rfl
  refine ⟨fun line low high => leads (.inl line) ⟨low, high⟩, fun line low high => ?_, fun line out => ?_,
    fun line awaits out other => ?_, fun line awaits low high => leads (.inr ⟨line, ?_⟩) ⟨low, high⟩,
    fun line seen out => ?_, fun line awaits long => ?_⟩
  · exact ends_element (e := .space len) settled
      ((congrArg State.body (lineSpace_leads line ⟨low, high⟩)).trans (body_putRemote_of _ rfl)) rfl rfl
  · exact dropped (.space len) (lineSpace_abandons (.inl ⟨line, by omega⟩))
  · refine dropped (.mark len) ((lineMark_abandons (.inr ⟨line, ?_⟩)).trans (abandonAtMark_waits (by omega)))
    rw [shortElement_iff]
    omega
  · rw [shortElement_iff]
    omega
  · exact dropped (.space len) (lineSpace_abandons (.inr (.inl ⟨line, seen, out⟩)))
  · exact dropped (.space len) (lineSpace_abandons (.inr (.inr ⟨line, awaits, long⟩)))

end Sys2Proof.Machine
end
section
/-! Presses of the hand remote and the panel, and the focus motor (R173 to R183). -/

namespace Sys2Proof.Machine

/-! ## A frame of the remote is taken (R173, R174) -/

/-- An accepted frame is the last frame, and the line waits. -/
def heard (key : Nat) (fr : RemoteFrame) (s : State) : State :=
  setLastFrame fr.sys.toNat key fr.toggle.toNat (lineIdle s)

/-- The receiver after an accepted frame. -/
def State.got (fr : RemoteFrame) (key : Nat) (s : State) : Remote :=
  s.remote.framed fr.sys.toNat key fr.toggle.toNat s.now

theorem body_heard {key : Nat} {fr : RemoteFrame} {s t : State} (h : t.body = s.body) :
    (heard key fr t).body = ({ s with remote := s.got fr key } : State).body := by
  have idle := body_lineIdle h
  unfold heard setLastFrame
  rw [body_remote idle, body_now idle]
  exact (body_putRemote_of _ idle).trans rfl

theorem frameAccepted_iff {key : Nat} {fr : RemoteFrame} {s : State} :
    frameAccepted fr.sys.toNat key fr.toggle.toNat fr.check.toNat (lineIdle s) = true ↔ accepts key fr s := by
  simp [frameAccepted, remoteCheckOk, lineIdle, accepts]

theorem isNewPress_iff {key : Nat} {fr : RemoteFrame} {s : State} :
    isNewPress fr.sys.toNat key fr.toggle.toNat (lineIdle s) = true ↔ ¬heldKey key fr s := by
  have last : (lineIdle s).remote.lastFrame = s.remote.lastFrame := by simp [lineIdle]
  have now : (lineIdle s).now = s.now := by simp
  rw [isNewPress, last, now]
  unfold heldKey
  cases s.remote.lastFrame with
  | none => simp
  | some l =>
    simp only [Bool.or_eq_true, decide_eq_true_iff, Option.mem_def, Option.some.injEq, exists_eq_left', not_and_or, not_le,
      ne_eq, or_assoc]
    exact Iff.rfl

theorem remoteFrameIn_press {key : Nat} {fr : RemoteFrame} {s : State} (ok : accepts key fr s) (new : ¬heldKey key fr s) :
    remoteFrameIn key fr s = takePress key .remote (heard key fr s) :=
  (if_pos (frameAccepted_iff.2 ok)).trans (if_pos (isNewPress_iff.2 new))

theorem remoteFrameIn_repeat {key : Nat} {fr : RemoteFrame} {s : State} (ok : accepts key fr s) (held : heldKey key fr s) :
    remoteFrameIn key fr s = repeatEffect key (heard key fr s) :=
  (if_pos (frameAccepted_iff.2 ok)).trans (if_neg fun new => isNewPress_iff.1 new held)

theorem remoteFrameIn_refused {key : Nat} {fr : RemoteFrame} {s : State} (out : ¬accepts key fr s) :
    remoteFrameIn key fr s = lineIdle s := if_neg fun ok => out (frameAccepted_iff.1 ok)

/-! ## A panel key goes down (R175, R183) -/

/-- A panel key is DOWN. -/
def PanelKeyState.pressed : PanelKeyState where
  down := true
  heldAtPin := false

/-- A panel key is UP. -/
def PanelKeyState.released : PanelKeyState where
  down := false
  heldAtPin := false

theorem panelDown_press {k : PanelKey} {d : Nat} {s : State} (time : 20000 ≤ d) (up : (s.remote.key k).down = false)
    (fresh : (s.remote.key k).heldAtPin = false) :
    panelDown k d s = takePress (PanelKey.code k) .panel (putRemote (s.remote.setKey k .pressed) s) := by
  have counts : ¬(d < Config.debounceTime ∨ (s.remote.key k).down = true) := by
    rw [up]
    exact fun short => short.elim (Nat.not_lt.2 time) Bool.false_ne_true
  exact (if_neg counts).trans (if_neg (ne_true_of_eq_false fresh))

theorem panelDown_held {k : PanelKey} {d : Nat} {s : State} (time : 20000 ≤ d) (up : (s.remote.key k).down = false)
    (held : (s.remote.key k).heldAtPin = true) : panelDown k d s = putRemote (s.remote.setKey k .pressed) s := by
  have counts : ¬(d < Config.debounceTime ∨ (s.remote.key k).down = true) := by
    rw [up]
    exact fun short => short.elim (Nat.not_lt.2 time) Bool.false_ne_true
  exact (if_neg counts).trans (if_pos held)

theorem panelDown_nothing {k : PanelKey} {d : Nat} {s : State} (off : d < 20000 ∨ (s.remote.key k).down = true) :
    panelDown k d s = s := if_pos off

/-! ## What is refused (R176) -/

theorem takePress_normal {key : Nat} {src : PressSource} {s : State} (power : s.thermal.power = .normal)
    (free : lockedOut s = true → subjectToLockout key = false) : takePress key src s = pressEffect key src s := by
  refine (if_neg (not_not.2 power)).trans (if_neg ?_)
  cases locked : lockedOut s
  · exact Bool.false_ne_true
  · simp [free locked]

theorem takePress_lockedOut {key : Nat} {src : PressSource} {s : State} (power : s.thermal.power = .normal)
    (locked : lockedOut s = true) (subject : subjectToLockout key = true) : takePress key src s = s := by
  refine (if_neg (not_not.2 power)).trans (if_pos ?_)
  rw [locked, subject]
  rfl

theorem takePress_free {key : Nat} {src : PressSource} {s : State} (lamp : key ≠ keyCodeLamp)
    (free : subjectToLockout key = false) (open_ : refusedInStandby key = false) :
    takePress key src s = pressEffect key src s := by
  by_cases power : s.thermal.power = .normal
  · exact takePress_normal power fun _ => free
  · exact (if_pos power).trans ((if_neg lamp).trans (if_neg (ne_true_of_eq_false open_)))

/-! ## The focus motor (R180 to R182) -/

/-- The focus motor holds no run. -/
def Remote.unfocused (r : Remote) : Remote := { r with focus := none }

theorem body_endFocus {code : ResultCode} {s t : State} (h : t.body = s.body)
    (free : ∀ run ∈ s.remote.focus, run.owner ≠ .command) :
    (endFocus code t).body = ({ s with remote := s.remote.unfocused } : State).body := by
  unfold endFocus
  rw [body_remote h]
  cases focus : s.remote.focus with
  | none =>
    have same : s.remote.unfocused = s.remote := by rw [Remote.unfocused, ← focus]
    rw [same]
    exact h
  | some run =>
    have plain : ¬(run.owner = .command ∧ activeWith codeFocus (putRemote { s.remote with focus := none } t) = true) :=
      fun k => free run focus k.1
    exact (congrArg State.body (if_neg plain)).trans (body_putRemote_of _ h)

/-- The run held is a COMMAND run of an ACTIVE FOCUS. -/
abbrev commandRun (s : State) : Prop :=
  ∃ run, s.remote.focus = some run ∧ run.owner = .command ∧ s.hdr.record.state = .active ∧ s.hdr.record.code = codeFocus

theorem body_endFocus_command {code : ResultCode} {s t : State} (h : t.body = s.body) (run : commandRun s) :
    (endFocus code t).body
      = (({ s with remote := s.remote.unfocused } : State).ended code 0 (plainLastSlot s)).body := by
  obtain ⟨run, focus, owner, active, coded⟩ := run
  have off := body_putRemote_of { s.remote with focus := none } h
  have ends : run.owner = .command ∧ activeWith codeFocus (putRemote { s.remote with focus := none } t) = true :=
    ⟨owner, by rw [activeWith_of_body off]; exact activeWith_iff.2 ⟨active, coded⟩⟩
  unfold endFocus
  rw [body_remote h, focus]
  exact (congrArg State.body (if_pos ends)).trans ((body_endPlain off active).trans rfl)

/-- The executor's part of a command record that has ended. -/
theorem executor_rest_ended {code : ResultCode} {a b : Nat} {s t : State} (rest : executorStep s = none)
    (same : SameExecutor s t) : executorStep (t.ended code a b) = none :=
  executor_rest_code (s := s) rest same.completion same.cx same.lamp same.net same.oneShot
    (Eq.trans (b := t.hdr.record.code) rfl (by rw [same.record]))
    (Eq.trans (b := t.hdr.record.p1) rfl (by rw [same.record]))

section
variable {c : Instr} {f : State → State} {s w : State} {r : Remote} {code : ResultCode} (settled : Settled s)
  (hc : exec c s = .next (live f s)) (body : w.body = ({ s with remote := r } : State).body)
  (focus : r.focus = s.remote.focus) (net : r.netCount = s.remote.netCount) (oneShot : r.oneShot = s.remote.oneShot)
  (access : w.port.access = s.port.access)
include settled hc body focus net oneShot access

/-- A command that ends a run that no command owns. -/
theorem ends_endFocus (effect : f s = endFocus code w) (free : ∀ run ∈ s.remote.focus, run.owner ≠ .command) :
    Ends c s { s with remote := r.unfocused } :=
  ends_quietly settled hc ((congrArg State.body effect).trans (body_endFocus body (by rw [focus]; exact free)))
    ⟨rfl, rfl, rfl, net, oneShot, rfl⟩ rfl rfl (by rw [effect]; simpa using access)

/-- A command that ends the run of an ACTIVE FOCUS, which ends with it. -/
theorem ends_endFocus_command (effect : f s = endFocus code w) (run : commandRun s) :
    Ends c s (({ s with remote := r.unfocused } : State).ended code 0 (plainLastSlot s)) := by
  have run_ : commandRun { s with remote := r } := by
    obtain ⟨run, held, rest⟩ := run
    exact ⟨run, focus.trans held, rest⟩
  exact ends_live settled hc ((congrArg State.body effect).trans (body_endFocus_command body run_))
    (executor_rest_ended (s := s) settled.2.1 ⟨rfl, rfl, rfl, net, oneShot, rfl⟩) settled.2.2.1
    (by rw [effect]; simpa using access)

/-- A command that starts a run, taking over from one that no command owns. -/
theorem ends_startFocus {inward : Bool} {o : FocusOwner} {limit : Nat} (effect : f s = startFocus inward o limit w)
    (free : ∀ run ∈ s.remote.focus, run.owner ≠ .command) :
    Ends c s { s with remote := { r with focus := some (FocusRun.fresh inward o limit s.now) } } := by
  have off := body_endFocus (code := .aborted) body (by rw [focus]; exact free)
  refine ends_quietly settled hc ?_ ⟨rfl, rfl, rfl, net, oneShot, rfl⟩ rfl rfl (by rw [effect]; simpa using access)
  rw [effect, startFocus, body_remote off, body_now off]
  exact (body_putRemote_of _ off).trans rfl

/-- A command that starts a run, taking over from that of an ACTIVE FOCUS, which ends aborted. -/
theorem ends_startFocus_command {inward : Bool} {o : FocusOwner} {limit : Nat}
    (effect : f s = startFocus inward o limit w) (run : commandRun s) :
    Ends c s (({ s with remote := { r with focus := some (FocusRun.fresh inward o limit s.now) } } : State).ended
      .aborted 0 (plainLastSlot s)) := by
  have run_ : commandRun { s with remote := r } := by
    obtain ⟨run, held, rest⟩ := run
    exact ⟨run, focus.trans held, rest⟩
  have off := body_endFocus_command (code := .aborted) body run_
  refine ends_live settled hc ?_ (executor_rest_ended (s := s) settled.2.1 ⟨rfl, rfl, rfl, net, oneShot, rfl⟩)
    settled.2.2.1 (by rw [effect]; simpa using access)
  rw [effect, startFocus, body_remote off, body_now off]
  exact (body_putRemote_of _ off).trans rfl

end

/-- What a press that starts a focus run leads to, from the effect of the command. -/
abbrev StartsWith (s : State) (g : State → State) : Prop :=
  ∀ {c : Instr} {f : State → State} {w : State} {r : Remote} {inward : Bool} {o : FocusOwner},
    exec c s = .next (live f s) → f s = startFocus inward o 4000000 w → w.body = ({ s with remote := r } : State).body →
    r.focus = s.remote.focus → r.netCount = s.remote.netCount → r.oneShot = s.remote.oneShot →
    w.port.access = s.port.access →
    Ends c s (g { s with remote := { r with focus := some (FocusRun.fresh inward o 4000000 s.now) } })

/-- The four presses that start a run in NORMAL (R180). -/
theorem focusPresses {fr : RemoteFrame} {s : State} {d : Nat} {g : State → State} (power : s.thermal.power = .normal)
    (starts : StartsWith s g) :
    (accepts 8 fr s → ¬heldKey 8 fr s → Ends (.keyFocusIn (.remote fr)) s
      (g { s with remote := { s.got fr 8 with focus := some (FocusRun.fresh true .remote 4000000 s.now) } })) ∧
    (accepts 9 fr s → ¬heldKey 9 fr s → Ends (.keyFocusOut (.remote fr)) s
      (g { s with remote := { s.got fr 9 with focus := some (FocusRun.fresh false .remote 4000000 s.now) } })) ∧
    (20000 ≤ d → s.remote.keyFocusIn.down = false → s.remote.keyFocusIn.heldAtPin = false →
      Ends (.keyFocusIn (.panel d)) s (g { s with remote := { s.remote with
        keyFocusIn := .pressed, focus := some (FocusRun.fresh true .panel 4000000 s.now) } })) ∧
    (20000 ≤ d → s.remote.keyFocusOut.down = false → s.remote.keyFocusOut.heldAtPin = false →
      Ends (.keyFocusOut (.panel d)) s (g { s with remote := { s.remote with
        keyFocusOut := .pressed, focus := some (FocusRun.fresh false .panel 4000000 s.now) } })) := by
  have heard_ (key : Nat) : (heard key fr s).thermal.power = .normal := by simpa [heard] using power
  refine ⟨fun ok new => ?_, fun ok new => ?_, fun time up fresh => ?_, fun time up fresh => ?_⟩
  · exact starts (f := keyPress .focusIn (.remote fr)) rfl
      ((remoteFrameIn_press ok new).trans (takePress_normal (heard_ 8) fun _ => rfl)) (body_heard rfl) rfl rfl rfl
      (by simp [heard])
  · exact starts (f := keyPress .focusOut (.remote fr)) rfl
      ((remoteFrameIn_press ok new).trans (takePress_normal (heard_ 9) fun _ => rfl)) (body_heard rfl) rfl rfl rfl
      (by simp [heard])
  · exact starts (f := keyPress .focusIn (.panel d)) rfl
      ((panelDown_press (k := .focusIn) time up fresh).trans (takePress_normal (by simpa using power) fun _ => rfl))
      (body_putRemote_of _ rfl) rfl rfl rfl (by simp)
  · exact starts (f := keyPress .focusOut (.panel d)) rfl
      ((panelDown_press (k := .focusOut) time up fresh).trans (takePress_normal (by simpa using power) fun _ => rfl))
      (body_putRemote_of _ rfl) rfl rfl rfl (by simp)

/-! ## Repeats, releases and expiries (R180) -/

theorem focusRepeat_renews {inward : Bool} {run : FocusRun} {s : State} (focus : s.remote.focus = some run)
    (owner : run.owner = .remote) (dir : run.inward = inward) : focusRepeat inward s =
      putRemote { s.remote with focus := some { run with lastRepeat := s.now } } s := by
  rw [focusRepeat, focus]
  exact if_pos ⟨owner, dir⟩

theorem endsOnRelease_iff {k : PanelKey} {run : FocusRun} {s : State} (focus : s.remote.focus = some run) :
    endsOnRelease k s = true ↔ run.owner = .panel ∧ k = if run.inward then .focusIn else .focusOut := by
  rw [endsOnRelease, focus, Bool.and_eq_true, decide_eq_true_iff, decide_eq_true_iff]

theorem endsOnRelease_none {k : PanelKey} {s : State} (focus : s.remote.focus = none) : endsOnRelease k s = false := by
  rw [endsOnRelease, focus]

theorem focus_setKey (k : PanelKey) (v : PanelKeyState) (s : State) :
    (putRemote (s.remote.setKey k v) s).remote.focus = s.remote.focus := by
  cases k <;> simp [Remote.setKey]

theorem panelUp_ends {k : PanelKey} {d : Nat} {run : FocusRun} {s : State} (time : 20000 ≤ d)
    (focus : s.remote.focus = some run) (owner : run.owner = .panel) (own : k = if run.inward then .focusIn else .focusOut)
    (down : (s.remote.key k).down = true) :
    panelUp k d s = endFocus .ok (putRemote (s.remote.setKey k .released) s) := by
  refine (if_neg (Nat.not_lt.2 time)).trans (if_pos ?_)
  rw [Bool.and_eq_true]
  exact ⟨down, (endsOnRelease_iff ((focus_setKey k _ s).trans focus)).2 ⟨owner, own⟩⟩

theorem panelUp_stays {k : PanelKey} {d : Nat} {s : State} (time : 20000 ≤ d)
    (other : ∀ run, s.remote.focus = some run → (run.owner ≠ .panel ∨ k ≠ if run.inward then .focusIn else .focusOut)) :
    panelUp k d s = putRemote (s.remote.setKey k .released) s := by
  refine (if_neg (Nat.not_lt.2 time)).trans (if_neg fun ends => ?_)
  obtain ⟨-, ends⟩ := (Bool.and_eq_true _ _).mp ends
  cases held : s.remote.focus with
  | none => exact Bool.false_ne_true ((endsOnRelease_none ((focus_setKey k _ s).trans held)).symm.trans ends)
  | some run =>
    obtain ⟨owner, own⟩ := (endsOnRelease_iff ((focus_setKey k _ s).trans held)).1 ends
    exact (other run held).elim (· owner) (· own)

theorem repeatDue_iff {run : FocusRun} {s : State} (focus : s.remote.focus = some run) :
    repeatDue s = true ↔ run.owner = .remote ∧ 250000 ≤ s.now - run.lastRepeat := by
  rw [repeatDue, focus, Bool.and_eq_true, decide_eq_true_iff, decide_eq_true_iff]
  rfl

theorem focusDue_iff {run : FocusRun} {s : State} (focus : s.remote.focus = some run) :
    focusDue s = true ↔ run.limit ≤ s.now - run.start := by
  rw [focusDue, focus, decide_eq_true_iff]

theorem endFocus_none {code : ResultCode} {s : State} (focus : s.remote.focus = none) : endFocus code s = s := by
  rw [endFocus, focus]

/-- A release that leaves the run held. -/
theorem ends_releaseOnly {k : PanelKey} {d : Nat} {s : State} (settled : Settled s)
    (effect : panelUp k d s = putRemote (s.remote.setKey k .released) s) :
    Ends (.panelKeyRelease k d) s { s with remote := s.remote.setKey k .released } := by
  have net : (s.remote.setKey k .released).netCount = s.remote.netCount := by cases k <;> rfl
  have oneShot : (s.remote.setKey k .released).oneShot = s.remote.oneShot := by cases k <;> rfl
  exact ends_quietly settled rfl (f := panelUp k d) ((congrArg State.body effect).trans (body_putRemote_of _ rfl))
    ⟨rfl, rfl, rfl, net, oneShot, rfl⟩ rfl rfl (by simp)

/-- The release of the key of a panel run's direction, of each key. -/
theorem ends_releaseEnds {k : PanelKey} {d : Nat} {run : FocusRun} {s : State} (settled : Settled s) (time : 20000 ≤ d)
    (focus : s.remote.focus = some run) (owner : run.owner = .panel) (own : k = if run.inward then .focusIn else .focusOut)
    (down : (s.remote.key k).down = true) :
    Ends (.panelKeyRelease k d) s { s with remote := (s.remote.setKey k .released).unfocused } := by
  have free : ∀ held ∈ s.remote.focus, held.owner ≠ .command := by
    intro held mem
    cases focus.symm.trans mem
    rw [owner]
    decide
  refine ends_endFocus settled rfl (f := panelUp k d) (body_putRemote_of _ rfl) ?_ ?_ ?_ (by simp)
    (panelUp_ends time focus owner own down) free <;> cases k <;> rfl

/-- Settles O54. -/
theorem focusRuns : Obligations.FocusRuns := by
  intro fr s run d k settled r got held off fresh starts
  have plain (free : ∀ f ∈ s.remote.focus, f.owner ≠ .command) : StartsWith s id :=
    fun hc effect body focus net oneShot access =>
      ends_startFocus settled hc body focus net oneShot access effect free
  have taken (run : commandRun s) : StartsWith s (State.ended .aborted 0 (plainLastSlot s)) :=
    fun hc effect body focus net oneShot access =>
      ends_startFocus_command settled hc body focus net oneShot access effect run
  have free (focus : r.focus = some run) (owner : run.owner ≠ .command) : ∀ f ∈ s.remote.focus, f.owner ≠ .command := by
    intro other mem
    cases focus.symm.trans mem
    exact owner
  have remote_ne (owner : run.owner = .remote) : run.owner ≠ .command := by
    rw [owner]
    decide
  have stops (c : Instr) (f : State → State) (hc : exec c s = .next (live f s)) (effect : f s = endFocus .ok s)
      (free : ∀ f ∈ s.remote.focus, f.owner ≠ .command) : Ends c s off :=
    ends_endFocus (w := s) settled hc rfl rfl rfl rfl rfl effect free
  have finishes (c : Instr) (f : State → State) (hc : exec c s = .next (live f s)) (effect : f s = endFocus .ok s)
      (run : commandRun s) : Ends c s (off.ended .ok 0 (plainLastSlot s)) :=
    ends_endFocus_command (w := s) settled hc rfl rfl rfl rfl rfl effect run
  refine ⟨fun power free => focusPresses power (plain free),
    fun power focus owner active coded => focusPresses power (taken ⟨run, focus, owner, active, coded⟩),
    fun focus owner inward ok again => ?_, fun time focus owner inward down => ?_,
    fun time focus owner outward down => ?_, fun time focus other => ?_, fun time focus => ?_, fun short => ?_,
    fun focus owner time => ?_, fun focus early => ?_, fun focus time owner => ?_,
    fun focus time owner active coded => ?_, fun focus early => ?_, fun focus owner => ?_,
    fun focus owner active coded => ?_, fun focus => ⟨?_, ?_, ?_⟩⟩
  · have hears : (heard 8 fr s).remote.focus = some run := by simpa [heard, setLastFrame, lineIdle] using focus
    have effect := (remoteFrameIn_repeat ok again).trans (focusRepeat_renews hears owner inward)
    have body := body_heard (key := 8) (fr := fr) (s := s) rfl
    refine ends_quietly settled rfl (f := keyPress .focusIn (.remote fr)) ((congrArg State.body effect).trans ?_)
      ⟨rfl, rfl, rfl, rfl, rfl, rfl⟩ rfl rfl (by simp)
    rw [body_remote body, body_now body]
    exact (body_putRemote_of _ body).trans rfl
  · exact ends_releaseEnds (k := .focusIn) settled time focus owner (by rw [inward]; rfl) down
  · exact ends_releaseEnds (k := .focusOut) settled time focus owner (by rw [outward]; rfl) down
  · refine ends_releaseOnly settled (panelUp_stays time fun other_ mem => ?_)
    cases focus.symm.trans mem
    exact other
  · refine ends_releaseOnly settled (panelUp_stays time fun other_ mem => ?_)
    cases focus.symm.trans mem
  · exact ends_nothing settled rfl (f := panelUp k d) (if_pos short)
  · exact stops .remoteRepeatTimeout repeatExpiry rfl (if_pos ((repeatDue_iff focus).2 ⟨owner, time⟩))
      (free focus (remote_ne owner))
  · refine ends_nothing settled rfl (f := repeatExpiry) (if_neg fun due => ?_)
    obtain ⟨owner, time⟩ := (repeatDue_iff focus).1 due
    exact early.elim (· owner) (Nat.not_lt.2 time)
  · exact stops .focusTimeLimit focusExpiry rfl (if_pos ((focusDue_iff focus).2 time)) (free focus owner)
  · exact finishes .focusTimeLimit focusExpiry rfl (if_pos ((focusDue_iff focus).2 time)) ⟨run, focus, owner, active, coded⟩
  · exact ends_nothing settled rfl (f := focusExpiry) (if_neg fun due => Nat.not_lt.2 ((focusDue_iff focus).1 due) early)
  · exact stops .focusStall stallFocus rfl rfl (free focus owner)
  · exact finishes .focusStall stallFocus rfl rfl ⟨run, focus, owner, active, coded⟩
  · exact ends_nothing settled rfl (f := stallFocus) (endFocus_none focus)
  · refine ends_nothing settled rfl (f := focusExpiry) (if_neg ?_)
    rw [focusDue, focus]
    exact Bool.false_ne_true
  · refine ends_nothing settled rfl (f := repeatExpiry) (if_neg ?_)
    rw [repeatDue, focus]
    exact Bool.false_ne_true

end Sys2Proof.Machine
end
section
/-! The refutation of O15: a GOTO planned from a slot beyond the tray (R31). -/

namespace Sys2Proof.Machine

/-- The STATUS write that shows CMDW set, in the RAM. -/
def takingAccess : RamAccess where
  who := .statusWriter
  addr := 128
  data := 4
  void := false
  afterHand := false
  preReset := false

/-- A READY transport with the arm at its top limit and its slot, 12, beyond a tray of 10, in a part that is about to take
a GOTO to slot 3 in OPEN mode. -/
def strayGotoState : State :=
  { State.reset with
    port := { State.reset.port with ram := some takingAccess }
    hdr := { State.reset.hdr with
      settings := { State.reset.hdr.settings with changeMode := .opened, slotBase := 0, skip := false }
      record := { State.reset.hdr.record with state := .accepted, code := codeGoto, p1 := 3 } }
    sw := { State.reset.sw with dirty := [], unwritten := [] }
    tray := { State.reset.tray with state := .ready, n := 10, slot := 12, topOn := true } }

theorem takesNext_strayGotoState : TakesNext strayGotoState takingAccess codeGoto :=
  ⟨⟨rfl, by decide, by decide, rfl⟩, rfl, rfl, rfl, rfl, by decide, by decide, rfl, rfl, rfl, rfl⟩

/-- The positions to go of the plan of the request in hand. -/
def State.planToGo (s : State) : Option Nat := s.tray.request.bind fun r => r.plan.map (·.toGo)

/-- The positions to go that a command leaves. -/
def resultToGo : Result → Option Nat
  | .next t => t.planToGo
  | _ => none

set_option maxRecDepth 4000 in
/-- The model counts the way from slot 12 to slot 3 as 3 positions. -/
theorem toGo_strayGotoState : resultToGo (exec .statusBlockWriteLanded strayGotoState) = some 3 := by decide

/-- Refutes O15: for a transport whose slot lies beyond its tray the model and the statement round the way of a GOTO
differently, 3 + (10 − 12) and 3 + 10 − 12 in natural numbers. Only the clause for an arm at its top limit has no
hypothesis that the slot lies in the tray. -/
theorem not_executorCommandsPend : ¬ Obligations.ExecutorCommandsPend := by
  intro h
  obtain ⟨-, -, -, idle⟩ := h strayGotoState takingAccess codeGoto (freshAction (.goto 3) .remote false .moving) 0
  obtain ⟨-, normal⟩ := idle rfl
  obtain ⟨-, -, -, -, -, -, -, changes, -⟩ := normal rfl
  obtain ⟨-, -, lifts, -⟩ := changes takesNext_strayGotoState (.inr (.inr rfl)) (by decide)
  obtain ⟨t, next, body⟩ := (lifts rfl rfl rfl rfl rfl (.inl rfl) (by decide)).1 rfl
  have model := toGo_strayGotoState
  rw [next] at model
  have stated : t.planToGo = some 1 := by
    rw [State.planToGo, body_tray body]
    rfl
  exact absurd (stated.symm.trans model) (by decide)

end Sys2Proof.Machine
end
section
/-! Landings of the Status Block (R203 to R210), and the commands that end as they are taken. -/

namespace Sys2Proof.Machine

/-! ## What lands (R206, R210) -/

/-- The word has landed in the RAM and is the one last written. -/
def shownAt (i : Nat) (a : RamAccess) (s : State) : State :=
  { landWord a s with sw := { s.sw with copy := s.sw.copy.setIfInBounds i a.data } }

/-- The same on the body. -/
def State.shownAt (i : Nat) (a : RamAccess) (s : State) : State := { s with
  mem := memSetWord s.mem a.addr a.data
  sw := { s.sw with copy := s.sw.copy.setIfInBounds i a.data } }

theorem body_shownAt (i : Nat) (a : RamAccess) (s : State) : (Sys2Proof.Machine.shownAt i a s).body = (s.shownAt i a).body :=
  rfl

/-- The landing of word i, written out. -/
theorem endStatusWrite_eq {s : State} {a : RamAccess} {i : Nat} (ram : s.port.ram = some a) (who : a.who = .statusWriter)
    (addr : a.addr = 128 + 2 * i) : endStatusWrite s =
      let u := firstWritten i (shownAt i a s)
      let v := if i = 0 then statusLanded a.data u else u
      let w := if i = 2 then eventsLanded ((s.sw.copy[i]?).getD 0) a.data a.preReset v else v
      if a.afterHand then resultLanded i w else w := by
  have index : (a.addr - statusBlockAddr) / 2 = i := by
    rw [addr, statusBlockAddr]
    omega
  rw [endStatusWrite, inRamOf_eq ram who]
  dsimp only
  rw [index]
  rfl

theorem firstWritten_again {i : Nat} {s : State} (written : i ∉ s.sw.unwritten) : firstWritten i s = s := by
  refine if_neg ?_
  simpa using written

theorem body_firstWritten {i : Nat} {s : State} (first : i ∈ s.sw.unwritten) : (firstWritten i s).body =
    ({ s with sw := { s.sw with
      unwritten := removeIndex i s.sw.unwritten
      rdy := s.sw.rdy || decide (removeIndex i s.sw.unwritten = []) } } : State).body := by
  unfold firstWritten
  rw [if_pos (by simpa using first)]
  dsimp only
  by_cases last : removeIndex i s.sw.unwritten = []
  · rw [if_pos last, decide_eq_true last, Bool.or_true]
    rfl
  · rw [if_neg last, decide_eq_false last, Bool.or_false]

theorem statusLanded_still {v : Word} {s : State} (still : s.hdr.record.state = .free ∨ s.hdr.record.state = .active) :
    statusLanded v s = s := by
  unfold statusLanded
  dsimp only
  rcases still with state | state <;> rw [state]

theorem statusLanded_frees {v : Word} {s : State} (clear : bitOf v 2 = false)
    (over_ : s.hdr.record.state = .closing ∨ (s.hdr.record.state = .accepted ∧ s.hdr.record.discardMark = true)) :
    statusLanded v s = putRecord CommandRecord.idle s := by
  unfold statusLanded
  rcases over_ with state | ⟨state, mark⟩ <;> simp only [state, clear, Bool.false_eq_true, if_false]
  exact if_pos mark

theorem statusLanded_discards {v : Word} {s : State} (shown : bitOf v 2 = true)
    (state : s.hdr.record.state = .accepted) (mark : s.hdr.record.discardMark = true) :
    statusLanded v s = putRecord { s.hdr.record with state := .closing } s := by
  unfold statusLanded
  simp only [state, shown, mark, if_true]

theorem statusLanded_takes {v : Word} {s : State} (shown : bitOf v 2 = true)
    (state : s.hdr.record.state = .accepted) (mark : s.hdr.record.discardMark = false) :
    statusLanded v s = routeCommand (putRecord { s.hdr.record with state := .active } s) := by
  unfold statusLanded
  simp only [state, shown, mark, if_true, Bool.false_eq_true, if_false]

theorem body_eventsLanded {old v : Word} {preReset : Bool} {s : State} : (eventsLanded old v preReset s).body =
    ({ s with sw := { s.sw with irqPending := s.sw.irqPending
      || (!preReset && decide (v &&& ~~~old &&& s.hdr.settings.irqMask ≠ 0)) } } : State).body := by
  unfold eventsLanded
  by_cases none_ : v &&& ~~~old &&& s.hdr.settings.irqMask = 0
  · rw [if_pos (by rw [decide_eq_true none_, Bool.or_true]), decide_eq_false (not_not.2 none_), Bool.and_false,
      Bool.or_false]
  · cases preReset
    · rw [if_neg (by rw [decide_eq_false none_]; decide), decide_eq_true none_, Bool.not_false, Bool.and_true, Bool.or_true]
    · rw [if_pos (by rw [Bool.true_or]), Bool.not_true, Bool.false_and, Bool.or_false]

theorem eventsLanded_quiet {old v : Word} {preReset : Bool} {s : State} (masked : v &&& s.hdr.settings.irqMask = 0) :
    eventsLanded old v preReset s = s := by
  refine if_pos ?_
  have none_ : v &&& ~~~old &&& s.hdr.settings.irqMask = 0 := by
    rw [BitVec.and_assoc, BitVec.and_comm (~~~old), ← BitVec.and_assoc, masked]
    exact BitVec.zero_and
  rw [decide_eq_true none_, Bool.or_true]

/-- The record after one of its result words has landed. -/
def CommandRecord.landed (i : Nat) (r : CommandRecord) : CommandRecord := { r with toLand := removeIndex i r.toLand }

theorem body_resultLanded_more {i : Nat} {s : State} (handed : s.hdr.record.handed = true)
    (waits : i ∈ s.hdr.record.toLand) (more : removeIndex i s.hdr.record.toLand ≠ []) :
    (resultLanded i s).body = ({ s with hdr := { s.hdr with record := s.hdr.record.landed i } } : State).body := by
  refine (congrArg State.body ((if_pos ?_).trans (if_neg more))).trans (body_putRecord_of _ rfl)
  simpa [handed] using waits

theorem body_failShown {s t : State} (h : t.body = s.body) :
    ({ t with sw := { t.sw with fail := decide (t.sw.resultCode ≠ .ok) } } : State).body
      = ({ s with sw := { s.sw with fail := decide (s.sw.resultCode ≠ .ok) } } : State).body := by
  rw [eq_traffic h]
  rfl

theorem body_resultLanded_last {i : Nat} {s : State} (handed : s.hdr.record.handed = true)
    (waits : i ∈ s.hdr.record.toLand) (last : removeIndex i s.hdr.record.toLand = []) :
    (resultLanded i s).body = (State.latched .cmdDone { s with
      hdr := { s.hdr with record := s.hdr.record.landed i }
      sw := { s.sw with fail := decide (s.sw.resultCode ≠ .ok) } }).body := by
  have record := body_putRecord_of (s.hdr.record.landed i) (s := s) rfl
  refine (congrArg State.body ((if_pos ?_).trans (if_pos last))).trans (body_latched ((body_markStatus _).trans ?_))
  · simpa [handed] using waits
  · exact body_failShown record

/-! ## The landing as a command -/

/-- The pending settings are in the apply record (R94). -/
def applyTaken (s : State) : State := putLamp { s.lamp with applyRec := some s.hdr.pend } s

theorem loader_applyTaken (s : State) : (applyTaken s).lamp.loader = s.lamp.loader := by simp [applyTaken]

theorem takeApply_idle {s : State} (loader : s.lamp.loader = none) : takeApply s =
    if loadNeeded s.hdr.pend.sel (applyTaken s) then startLoad s.hdr.pend.sel (applyTaken s) else applyTaken s := by
  have held := (loader_applyTaken s).trans loader
  rw [applyTaken] at held ⊢
  rw [takeApply]
  dsimp only
  rw [held]

theorem takeApply_same {s : State} {ld : Loading} (loader : s.lamp.loader = some ld) (same : ld.curve = s.hdr.pend.sel) :
    takeApply s = applyTaken s := by
  have held := (loader_applyTaken s).trans loader
  rw [applyTaken] at held ⊢
  rw [takeApply]
  dsimp only
  rw [held]
  exact if_pos same

theorem takeApply_other {s : State} {ld : Loading} (loader : s.lamp.loader = some ld) (other : ld.curve ≠ s.hdr.pend.sel) :
    takeApply s = if loadNeeded s.hdr.pend.sel (applyTaken s) then startLoad s.hdr.pend.sel (applyTaken s)
      else abandonLoad (applyTaken s) := by
  have held := (loader_applyTaken s).trans loader
  rw [applyTaken] at held ⊢
  rw [takeApply]
  dsimp only
  rw [held]
  exact if_neg other

theorem access_takeApply (s : State) : (takeApply s).port.access = s.port.access := by
  have taken : (applyTaken s).port = s.port := by simp [applyTaken]
  have start : (startLoad s.hdr.pend.sel (applyTaken s)).port.access = s.port.access :=
    (sameGrant_withdrawCurve (sameGrant_of_port (s := s) (by simp [applyTaken]))).access
  have abandon : (abandonLoad (applyTaken s)).port.access = s.port.access :=
    (sameGrant_withdrawCurve (sameGrant_of_port (s := s) (by simp [applyTaken]))).access
  cases loader : s.lamp.loader with
  | none =>
    rw [takeApply_idle loader]
    split
    · exact start
    · rw [taken]
  | some ld =>
    by_cases same : ld.curve = s.hdr.pend.sel
    · rw [takeApply_same loader same, taken]
    · rw [takeApply_other loader same]
      split
      · exact start
      · exact abandon

theorem access_routeCommand (s : State) : (routeCommand s).port.access = s.port.access := by
  unfold routeCommand
  simp only [apply_ite State.port, apply_ite Port.access, access_takeApply]
  simp [commandFocus, commandStandby, apply_ite State.port]

theorem access_statusLanded (v : Word) (s : State) : (statusLanded v s).port.access = s.port.access := by
  unfold statusLanded
  dsimp only
  repeat' split
  all_goals simp [access_routeCommand]

theorem access_endStatusWrite (s : State) : (endStatusWrite s).port.access = s.port.access := by
  have free : (freeRam s).port.access = s.port.access := rfl
  unfold endStatusWrite
  split
  · unfold statusWordLanded
    dsimp only
    repeat' split
    all_goals simp [free, access_statusLanded, landWord]
  · rfl

/-- A landing that moves the record on no further than the executor looks. -/
theorem ends_landing {s u : State} (settled : Settled s) (body : (endStatusWrite s).body = u.body)
    (executor : executorStep u = none) (ring : u.hdr.settings.ringBase = s.hdr.settings.ringBase) (log : u.log = s.log) :
    Ends .statusBlockWriteLanded s u := by
  refine ends_live settled rfl (f := endStatusWrite) body executor ?_ (access_endStatusWrite s)
  rw [logQuiet, ring, log]
  exact settled.2.2.1

section
variable {s : State} {a : RamAccess} {i : Nat} (settled : Settled s) (ram : s.port.ram = some a)
  (who : a.who = .statusWriter)
include settled ram who

/-- A result word composed after the hand-over lands (R204). -/
theorem ends_resultLands (addr : a.addr = 128 + 2 * i) (after : a.afterHand = true) (which : i = 3 ∨ i = 4 ∨ i = 5)
    (written : i ∉ s.sw.unwritten) (handed : s.hdr.record.handed = true) (waits : i ∈ s.hdr.record.toLand) :
    let left := removeIndex i s.hdr.record.toLand
    let u : State := { s.shownAt i a with hdr := { s.hdr with record := { s.hdr.record with toLand := left } } }
    (left ≠ [] → Ends .statusBlockWriteLanded s u) ∧
    (left = [] → Ends .statusBlockWriteLanded s (State.latched .cmdDone
      { u with sw := { u.sw with fail := decide (s.sw.resultCode ≠ .ok) } })) := by
  intro left u
  have lands : endStatusWrite s = resultLanded i (shownAt i a s) := by
    rw [endStatusWrite_eq ram who addr, firstWritten_again (s := shownAt i a s) written]
    dsimp only
    rw [if_pos after, if_neg (show ¬i = 2 by omega), if_neg (show ¬i = 0 by omega)]
  have rest : executorStep u = none := executor_rest_code settled.2.1 rfl rfl rfl rfl rfl rfl rfl
  refine ⟨fun more => ends_landing settled ?_ rest rfl rfl, fun last => ends_landing settled ?_
    (executor_rest_code settled.2.1 rfl rfl rfl rfl rfl rfl rfl) rfl rfl⟩
  · rw [lands]
    exact (body_resultLanded_more (s := shownAt i a s) handed waits more).trans rfl
  · rw [lands]
    exact (body_resultLanded_last (s := shownAt i a s) handed waits last).trans rfl

omit settled in
theorem statusLands (addr : a.addr = 128) (plain : a.afterHand = false) (written : 0 ∉ s.sw.unwritten) :
    endStatusWrite s = statusLanded a.data (shownAt 0 a s) := by
  rw [endStatusWrite_eq ram who (i := 0) addr, firstWritten_again (s := shownAt 0 a s) written]
  dsimp only
  rw [if_neg (ne_true_of_eq_false plain), if_neg (by decide), if_pos rfl]

/-- A STATUS write lands on a record that its CMDW bit moves (R203 to R205). -/
theorem ends_statusLands {r : CommandRecord} (addr : a.addr = 128) (plain : a.afterHand = false)
    (written : 0 ∉ s.sw.unwritten) (lands : statusLanded a.data (shownAt 0 a s) = putRecord r (shownAt 0 a s))
    (executor : executorStep { s with hdr := { s.hdr with record := r } } = none) :
    Ends .statusBlockWriteLanded s { statusShown a s with hdr := { s.hdr with record := r } } := by
  have body : (endStatusWrite s).body = ({ statusShown a s with hdr := { s.hdr with record := r } } : State).body := by
    rw [statusLands ram who addr plain written, lands]
    refine (body_putRecord_of r (s := s.shownAt 0 a) (t := shownAt 0 a s) rfl).trans ?_
    rw [State.shownAt, addr]
    rfl
  exact ends_landing settled body
    (executor_rest executor ⟨rfl, rfl, rfl, rfl, rfl, rfl⟩) rfl rfl

/-- An EVENTS write lands (R208). -/
theorem ends_eventsLand (addr : a.addr = 132) (plain : a.afterHand = false) (written : 2 ∉ s.sw.unwritten) :
    Ends .statusBlockWriteLanded s { s with
      mem := memSetWord s.mem 132 a.data
      sw := { s.sw with
        copy := s.sw.copy.setIfInBounds 2 a.data
        irqPending := s.sw.irqPending || (!a.preReset &&
          decide (a.data &&& ~~~((s.sw.copy[2]?).getD 0) &&& s.hdr.settings.irqMask ≠ 0)) } } := by
  refine ends_landing settled ?_ (executor_rest settled.2.1 ⟨rfl, rfl, rfl, rfl, rfl, rfl⟩) rfl rfl
  rw [endStatusWrite_eq ram who (i := 2) addr, firstWritten_again (s := shownAt 2 a s) written]
  dsimp only
  rw [if_neg (ne_true_of_eq_false plain), if_pos rfl, if_neg (by decide)]
  refine body_eventsLanded.trans ?_
  rw [shownAt, landWord, addr]
  rfl

/-- A word lands for the first time after the RESET pin (R210). -/
theorem ends_firstLands (addr : a.addr = 128 + 2 * i) (plain : a.afterHand = false) (first : i ∈ s.sw.unwritten)
    (still : i = 0 → s.hdr.record.state = .free ∨ s.hdr.record.state = .active)
    (masked : i = 2 → a.data &&& s.hdr.settings.irqMask = 0) :
    let left := removeIndex i s.sw.unwritten
    Ends .statusBlockWriteLanded s { s with
      mem := memSetWord s.mem a.addr a.data
      sw := { s.sw with
        copy := s.sw.copy.setIfInBounds i a.data, unwritten := left, rdy := s.sw.rdy || decide (left = []) } } := by
  intro left
  have hdr : (firstWritten i (shownAt i a s)).hdr = s.hdr := by
    have body := body_firstWritten (s := shownAt i a s) first
    exact (body_hdr body).trans rfl
  have lands : endStatusWrite s = firstWritten i (shownAt i a s) := by
    rw [endStatusWrite_eq ram who addr]
    dsimp only
    rw [if_neg (ne_true_of_eq_false plain)]
    by_cases zero : i = 0
    · rw [if_neg (show ¬i = 2 by omega), if_pos zero]
      exact statusLanded_still (by rw [hdr]; exact still zero)
    · rw [if_neg zero]
      by_cases two : i = 2
      · rw [if_pos two]
        exact eventsLanded_quiet (by rw [hdr]; exact masked two)
      · rw [if_neg two]
  refine ends_landing settled ?_ (executor_rest settled.2.1 ⟨rfl, rfl, rfl, rfl, rfl, rfl⟩) rfl rfl
  rw [lands]
  exact (body_firstWritten (s := shownAt i a s) first).trans rfl

end

/-- Settles O20. -/
theorem statusBlockWritesLand : Obligations.StatusBlockWritesLand := by
  intro s a i settled ram who
  refine ⟨fun addr after which written handed waits => ends_resultLands settled ram who addr after which written handed waits,
    fun plain => ⟨fun addr written clear none_ over_ => ?_, fun addr written shown state mark => ?_,
      fun addr written => ends_eventsLand settled ram who addr plain written,
      fun addr _ first still masked => ends_firstLands settled ram who addr plain first still masked⟩⟩
  · exact ends_statusLands settled ram who addr plain written (statusLanded_frees (s := shownAt 0 a s) clear over_)
      (executor_rest_record settled.2.1 none_ rfl rfl rfl rfl rfl)
  · exact ends_statusLands settled ram who addr plain written (statusLanded_discards (s := shownAt 0 a s) shown state mark)
      (executor_rest_code settled.2.1 rfl rfl rfl rfl rfl rfl rfl)

end Sys2Proof.Machine
end
section
/-! Commands taken as the STATUS write that shows CMDW lands (R203): the ones that end at once, and APPLY. -/

namespace Sys2Proof.Machine

/-! ## The route of a command (R203) -/

section
variable {s : State} (plain : s.hdr.record.abortMark = false)
include plain

theorem routeCommand_executor (code : s.hdr.record.code ∈ executorCodes) :
    routeCommand s = putCx { s.cx with pendingCmd := true } s := by
  unfold routeCommand
  simp only [plain, Bool.false_eq_true, if_false, List.contains_iff_mem, code, if_true]

theorem routeCommand_nop (code : s.hdr.record.code = codeNop) : routeCommand s = endPlain .ok s := by
  unfold routeCommand
  dsimp only
  rw [plain, code]
  rfl

theorem routeCommand_apply (code : s.hdr.record.code = codeApply) : routeCommand s = takeApply s := by
  unfold routeCommand
  dsimp only
  rw [plain, code]
  rfl

theorem routeCommand_lampMinutes (code : s.hdr.record.code = codeLampMinutes) :
    routeCommand s = endPlain .ok (setLampMinutes s.hdr.record.p1 s.hdr.record.p2 s) := by
  unfold routeCommand
  dsimp only
  rw [plain, code]
  rfl

theorem routeCommand_clip (code : s.hdr.record.code = codeClip) : routeCommand s = commandClip s.hdr.record s := by
  unfold routeCommand
  dsimp only
  rw [plain, code]
  rfl

theorem routeCommand_clipStop (code : s.hdr.record.code = codeClipStop) :
    routeCommand s = endPlain .ok (clipStopNow s) := by
  unfold routeCommand
  dsimp only
  rw [plain, code]
  rfl

theorem routeCommand_hold (code : s.hdr.record.code = codeHold) :
    routeCommand s = endPlain .ok (putDeck { s.deck with host := true } s) := by
  unfold routeCommand
  dsimp only
  rw [plain, code]
  rfl

theorem routeCommand_release (code : s.hdr.record.code = codeRelease) :
    routeCommand s = endPlain .ok (releaseDeck s) := by
  unfold routeCommand
  dsimp only
  rw [plain, code]
  rfl

theorem routeCommand_inject (code : s.hdr.record.code = codeInject) :
    routeCommand s = commandInject s.hdr.record s := by
  unfold routeCommand
  dsimp only
  rw [plain, code]
  rfl

theorem routeCommand_focus (code : s.hdr.record.code = codeFocus) : routeCommand s = commandFocus s.hdr.record s := by
  unfold routeCommand
  dsimp only
  rw [plain, code]
  rfl

theorem routeCommand_standby (code : s.hdr.record.code = codeStandby) : routeCommand s = commandStandby s := by
  unfold routeCommand
  dsimp only
  rw [plain, code]
  rfl

theorem routeCommand_wake (code : s.hdr.record.code = codeWake) :
    routeCommand s = endPlain .ok (wakeUnit s) := by
  unfold routeCommand
  dsimp only
  rw [plain, code]
  rfl

theorem routeCommand_undefined (code : s.hdr.record.code ∉ definedCodes) : routeCommand s = endPlain .badCommand s := by
  have other : ∀ c ∈ definedCodes, s.hdr.record.code ≠ c := fun c mem same => code (same ▸ mem)
  unfold routeCommand
  dsimp only
  rw [plain]
  have none_ : ¬executorCodes.contains s.hdr.record.code = true := by
    rw [List.contains_iff_mem]
    exact fun mem => code ((by decide : executorCodes ⊆ definedCodes) mem)
  simp only [Bool.false_eq_true, if_false, none_, other _ (by decide : codeNop ∈ definedCodes),
    other _ (by decide : codeApply ∈ definedCodes), other _ (by decide : codeLampMinutes ∈ definedCodes),
    other _ (by decide : codeClip ∈ definedCodes), other _ (by decide : codeClipStop ∈ definedCodes),
    other _ (by decide : codeHold ∈ definedCodes), other _ (by decide : codeRelease ∈ definedCodes),
    other _ (by decide : codeInject ∈ definedCodes), other _ (by decide : codeFocus ∈ definedCodes),
    other _ (by decide : codeStandby ∈ definedCodes), other _ (by decide : codeWake ∈ definedCodes)]

end

theorem routeCommand_aborts {s : State} (marked : s.hdr.record.abortMark = true) :
    routeCommand s = endPlain .aborted s := if_pos marked

/-! ## The command is taken (R203) -/

/-- The record's command has been taken. -/
def CommandRecord.taken (r : CommandRecord) : CommandRecord := { r with state := .active }

/-- The landing takes the command of an ACCEPTED record that RESET has not discarded. -/
theorem lands_takes {s : State} {a : RamAccess} (ram : s.port.ram = some a) (who : a.who = .statusWriter)
    (addr : a.addr = 128) (plain : a.afterHand = false) (shown : bitOf a.data 2 = true) (written : 0 ∉ s.sw.unwritten)
    (state : s.hdr.record.state = .accepted) (kept : s.hdr.record.discardMark = false) :
    ∃ w, endStatusWrite s = routeCommand w ∧ w.body = ((statusShown a s).active).body
      ∧ w.hdr.record = s.hdr.record.taken ∧ w.port.access = s.port.access := by
  refine ⟨putRecord s.hdr.record.taken (shownAt 0 a s), ?_, ?_, by simp, by simp [shownAt, landWord, freeRam]⟩
  · rw [statusLands ram who addr plain written]
    exact statusLanded_takes (s := shownAt 0 a s) shown state kept
  · refine (body_putRecord_of _ (s := s.shownAt 0 a) (t := shownAt 0 a s) rfl).trans ?_
    rw [State.shownAt, addr]
    rfl

theorem takesNext_takes {s : State} {a : RamAccess} {code : Byte} (next : TakesNext s a code) :
    ∃ w, endStatusWrite s = routeCommand w ∧ w.body = ((statusShown a s).active).body
      ∧ w.hdr.record = s.hdr.record.taken ∧ w.port.access = s.port.access := by
  obtain ⟨-, ram, who, addr, plain, shown, written, state, -, kept, -⟩ := next
  exact lands_takes ram who addr plain shown written state kept

/-- The part in which a command has been taken looks the same to the executor but for the record's state. -/
theorem executor_rest_taken {s t : State} (rest : executorStep s = none) (completion : t.tray.completion = s.tray.completion)
    (cx : t.cx = s.cx) (lamp : t.lamp.state = s.lamp.state) (remote : t.remote = s.remote)
    (code : t.hdr.record.code = s.hdr.record.code) (p1 : t.hdr.record.p1 = s.hdr.record.p1) : executorStep t = none :=
  executor_rest_code rest completion cx lamp (by rw [remote]) (by rw [remote]) code p1

/-- A command that ends as it is taken. -/
theorem ends_endsPlain {s t v : State} {result : ResultCode} (settled : Settled s)
    (ends : endStatusWrite s = endPlain result t) (body : t.body = v.body) (active : v.hdr.record.state = .active)
    (executor : executorStep v = none) (ring : v.hdr.settings.ringBase = s.hdr.settings.ringBase) (log : v.log = s.log) :
    Ends .statusBlockWriteLanded s (v.ended result 0 (plainLastSlot v)) :=
  ends_landing settled ((congrArg State.body ends).trans (body_endPlain body active))
    (executor_rest_code (s := v) executor rfl rfl rfl rfl rfl rfl rfl) ring log

/-- A command that ends with nothing but its result. -/
theorem ends_justEnds {s : State} {a : RamAccess} {result : ResultCode} {w : State} (settled : Settled s)
    (ends : endStatusWrite s = endPlain result w) (body : w.body = ((statusShown a s).active).body) :
    Ends .statusBlockWriteLanded s (State.ended result 0 (plainLastSlot s) (statusShown a s)) :=
  ends_endsPlain (v := (statusShown a s).active) settled ends body rfl
    (executor_rest_code (s := s) settled.2.1 rfl rfl rfl rfl rfl rfl rfl) rfl rfl

theorem body_releaseDeck {s t : State} (h : t.body = s.body) : (releaseDeck t).body = ({ s with
    deck := { s.deck with cue := false, host := false, remote := false, holdUntil := none } } : State).body := by
  unfold releaseDeck
  rw [body_deck h]
  exact body_putDeck_of _ h

/-! ## LAMP_MINUTES (R100, R101) -/

/-- The minutes count has been set, with the life flag. -/
def Lamp.minutesSet (n : Nat) (reported : Bool) (l : Lamp) : Lamp :=
  { l with minutes := n, minuteUs := 0, lifeReported := reported }

theorem body_reviewLife_below {s t : State} (h : t.body = s.body)
    (below : s.hdr.settings.lifeLimit = 0 ∨ s.lamp.minutes < s.hdr.settings.lifeLimit * 60) :
    (reviewLife t).body = ({ s with lamp := { s.lamp with lifeReported := false } } : State).body := by
  unfold reviewLife
  rw [body_hdr h, body_lamp h, if_pos below]
  exact body_putLamp_of _ h

theorem body_reviewLife_reached {s t : State} (h : t.body = s.body) (set : s.hdr.settings.lifeLimit ≠ 0)
    (reached : s.hdr.settings.lifeLimit * 60 ≤ s.lamp.minutes) : (reviewLife t).body = (checkLife t).body := by
  unfold reviewLife
  rw [body_hdr h, body_lamp h, if_neg (by omega)]

/-- What LAMP_MINUTES sets the count to. -/
def minutesOf (p1 p2 : Word) : Nat := if 255 < p2.toNat then 16777215 else p1.toNat + 65536 * p2.toNat

theorem setLampMinutes_eq (p1 p2 : Word) (s : State) : setLampMinutes p1 p2 s =
    reviewLife (putLamp { s.lamp with minutes := minutesOf p1 p2, minuteUs := 0 } s) := rfl

/-- LAMP_MINUTES, by where the new count stands to the limit. -/
theorem ends_lampMinutes {s : State} {a : RamAccess} (next : TakesNext s a codeLampMinutes) :
    let n := minutesOf s.hdr.record.p1 s.hdr.record.p2
    let limit := s.hdr.settings.lifeLimit
    let u (reported : Bool) : State := State.ended .ok 0 (plainLastSlot s)
      { statusShown a s with lamp := s.lamp.minutesSet n reported }
    ((limit = 0 ∨ n < limit * 60) → Ends .statusBlockWriteLanded s (u false)) ∧
    (limit ≠ 0 → limit * 60 ≤ n → s.lamp.lifeReported = true → Ends .statusBlockWriteLanded s (u true)) ∧
    (limit ≠ 0 → limit * 60 ≤ n → s.lamp.lifeReported = false →
      Ends .statusBlockWriteLanded s (State.latched .lampLife (u true))) := by
  intro n limit u
  obtain ⟨w, lands, body, record, -⟩ := takesNext_takes next
  obtain ⟨settled, -, -, -, -, -, -, -, abort, -, code⟩ := next
  have routed := routeCommand_lampMinutes (s := w) (by rw [record]; exact abort) (by rw [record]; exact code)
  rw [record] at routed
  let v : State := { (statusShown a s).active with lamp := s.lamp.minutesSet n s.lamp.lifeReported }
  have counted : (putLamp { w.lamp with minutes := n, minuteUs := 0 } w).body = v.body := by
    rw [body_lamp body]
    exact (body_putLamp_of _ body).trans rfl
  have rest (l : Lamp) (same : l.state = s.lamp.state) :
      executorStep { (statusShown a s).active with lamp := l } = none :=
    executor_rest_code (s := s) settled.2.1 rfl rfl same rfl rfl rfl rfl
  refine ⟨fun below => ?_, fun set reached reported => ?_, fun set reached clear => ?_⟩
  · exact ends_endsPlain (v := { v with lamp := { v.lamp with lifeReported := false } }) settled (lands.trans routed)
      (body_reviewLife_below counted below) rfl (rest _ rfl) rfl rfl
  · have same : v = { (statusShown a s).active with lamp := s.lamp.minutesSet n true } :=
      congrArg (fun b => { (statusShown a s).active with lamp := s.lamp.minutesSet n b }) reported
    have quiet := (body_reviewLife_reached counted set reached).trans (body_checkLife_quiet counted (.inr (.inr reported)))
    rw [same] at quiet
    exact ends_endsPlain (v := { (statusShown a s).active with lamp := s.lamp.minutesSet n true }) settled
      (lands.trans routed) quiet rfl (rest _ rfl) rfl rfl
  · have reports := (body_reviewLife_reached counted set reached).trans (body_checkLife_reports counted set reached clear)
    exact ends_endsPlain (v := State.latched .lampLife
        { (statusShown a s).active with lamp := s.lamp.minutesSet n true }) settled (lands.trans routed) reports rfl
      (executor_rest (rest (s.lamp.minutesSet n true) rfl) ⟨rfl, rfl, rfl, rfl, rfl, rfl⟩) rfl rfl

/-- Settles O14, command by command. -/
theorem simpleCommandsWhenTaken : Obligations.SimpleCommandsWhenTaken := by
  intro s a
  refine ⟨fun code marked _ => ?_, fun next => ?_, fun next => ?_, fun next => ?_, fun code next undefined => ?_,
    fun next => ends_lampMinutes next⟩
  · obtain ⟨settled, ram, who, addr, plain, shown, written, state, abort, kept, -⟩ := marked
    obtain ⟨w, lands, body, record, -⟩ := lands_takes ram who addr plain shown written state kept
    exact ends_justEnds settled (lands.trans (routeCommand_aborts (by rw [record]; exact abort))) body
  · obtain ⟨w, lands, body, record, -⟩ := takesNext_takes next
    obtain ⟨settled, -, -, -, -, -, -, -, abort, -, code⟩ := next
    exact ends_justEnds settled
      (lands.trans (routeCommand_nop (by rw [record]; exact abort) (by rw [record]; exact code))) body
  · obtain ⟨w, lands, body, record, -⟩ := takesNext_takes next
    obtain ⟨settled, -, -, -, -, -, -, -, abort, -, code⟩ := next
    have routed := routeCommand_hold (s := w) (by rw [record]; exact abort) (by rw [record]; exact code)
    rw [body_deck body] at routed
    exact ends_endsPlain (v := { (statusShown a s).active with deck := { s.deck with host := true } }) settled
      (lands.trans routed) (body_putDeck_of _ body) rfl
      (executor_rest_code (s := s) settled.2.1 rfl rfl rfl rfl rfl rfl rfl) rfl rfl
  · obtain ⟨w, lands, body, record, -⟩ := takesNext_takes next
    obtain ⟨settled, -, -, -, -, -, -, -, abort, -, code⟩ := next
    exact ends_endsPlain (v := { (statusShown a s).active with
        deck := { s.deck with cue := false, host := false, remote := false, holdUntil := none } }) settled
      (lands.trans (routeCommand_release (by rw [record]; exact abort) (by rw [record]; exact code)))
      (body_releaseDeck body) rfl (executor_rest_code (s := s) settled.2.1 rfl rfl rfl rfl rfl rfl rfl) rfl rfl
  · obtain ⟨w, lands, body, record, -⟩ := takesNext_takes next
    obtain ⟨settled, -, -, -, -, -, -, -, abort, -, same⟩ := next
    exact ends_justEnds settled
      (lands.trans (routeCommand_undefined (by rw [record]; exact abort) (by rw [record]; exact same ▸ undefined))) body

/-! ## APPLY (R94, R95, R98) -/

theorem body_applyTaken {s t : State} (h : t.body = s.body) : (applyTaken t).body =
    ({ s with lamp := { s.lamp with applyRec := some s.hdr.pend } } : State).body := by
  unfold applyTaken
  rw [body_lamp h, body_hdr h]
  exact body_putLamp_of _ h

/-- The dirty mark of a curve. -/
def Lamp.marked (l : Lamp) : CurveSel → Bool
  | .a => l.dirtyA
  | .b => l.dirtyB

theorem loadNeeded_iff {c : CurveSel} {s t : State} (h : t.body = ({ s with lamp := { s.lamp with
    applyRec := some s.hdr.pend } } : State).body) : loadNeeded c t = true ↔
      s.hdr.settings.curveBase ≠ 0 ∧ (s.lamp.curve ≠ .loaded c ∨ s.lamp.marked c = true) := by
  rw [loadNeeded, body_hdr h, body_lamp h]
  cases c <;> simp [Lamp.dirtyMark, Lamp.marked]

/-- Settles O17, by the load in flight. -/
theorem applyWhenTaken : Obligations.ApplyWhenTaken := by
  intro s a ld next p takes dirty needed started
  obtain ⟨w, lands, body, record, -⟩ := takesNext_takes next
  obtain ⟨settled, -, -, -, -, -, -, -, abort, -, code⟩ := next
  have routed := lands.trans (routeCommand_apply (by rw [record]; exact abort) (by rw [record]; exact code))
  have lamp := body_lamp body
  have pend : w.hdr.pend = p := by rw [body_hdr body]; rfl
  have copied := body_applyTaken body
  have needs : loadNeeded p.sel (applyTaken w) = true ↔ needed := by
    refine (loadNeeded_iff copied).trans ?_
    cases sel : p.sel <;> simp only [needed, dirty, sel] <;> exact Iff.rfl
  have taken (l : Lamp) (body : (takeApply w).body = ({ (statusShown a s).active with lamp := l } : State).body)
      (same : l.state = s.lamp.state) : takes l :=
    ends_landing settled ((congrArg State.body routed).trans body)
      (executor_rest_code (s := s) settled.2.1 rfl rfl same rfl rfl rfl rfl) rfl rfl
  have starts (begins : takeApply w = startLoad p.sel (applyTaken w)) : takes started := by
    refine taken _ ((congrArg State.body begins).trans ((body_startLoad copied).trans ?_)) ?_ <;>
      (simp only [started, Lamp.setDirty]; cases p.sel <;> rfl)
  refine ⟨fun idle small => ?_, fun idle need => ?_, fun held same => ?_, fun held other need => ?_,
    fun held other small => ?_⟩
  · refine taken _ ((congrArg State.body ((takeApply_idle (lamp ▸ idle)).trans (if_neg ?_))).trans copied) rfl
    rw [pend, needs]
    exact small
  · refine starts ((takeApply_idle (lamp ▸ idle)).trans ?_)
    rw [pend]
    exact if_pos (needs.2 need)
  · exact taken _ ((congrArg State.body (takeApply_same (lamp ▸ held) (by rw [pend]; exact same))).trans copied) rfl
  · refine starts ((takeApply_other (lamp ▸ held) (by rw [pend]; exact other)).trans ?_)
    rw [pend]
    exact if_pos (needs.2 need)
  · refine taken _ ((congrArg State.body ((takeApply_other (lamp ▸ held) (by rw [pend]; exact other)).trans
      (if_neg ?_))).trans (body_abandonLoad copied)) rfl
    rw [pend, needs]
    exact small

end Sys2Proof.Machine
end
section
/-! Records on their way to the Log Writer, and what a request does to the Clip Player (R139, R152 to R163). -/

namespace Sys2Proof.Machine

/-! ## A record handed over, before the Log Writer's course (R139, R140) -/

/-- The Log Writer with a record staged that it has room for. -/
def LogWriter.staged (ring : Nat) (r : LogRecord) (l : LogWriter) : LogWriter :=
  if ring = 0 then l else { l with staging := l.staging ++ [r] }

/-- The Log Writer with the record staged and, if it was IDLE, taken. -/
def LogWriter.given (ring : Nat) (r : LogRecord) (l : LogWriter) : LogWriter :=
  if ring = 0 then l else { l with staging := l.staging ++ [r], writing := some (l.writing.getD 0) }

/-- The record is staged, and the Log Writer has not gone on yet. -/
def State.staged (r : LogRecord) (s : State) : State := { s with log := s.log.staged s.hdr.settings.ringBase r }

theorem logged_given (r : LogRecord) (s : State) :
    s.logged r = { s with log := s.log.given s.hdr.settings.ringBase r } := by
  unfold State.logged LogWriter.given
  split <;> rfl

/-- A change that leaves the Log Writer's part may come after a record is logged, or before. -/
theorem logged_comm {r : LogRecord} {F : State → State} {s : State}
    (other : ∀ l, F { s with log := l } = { F s with log := l }) (log : (F s).log = s.log)
    (ring : (F s).hdr.settings.ringBase = s.hdr.settings.ringBase) : F (s.logged r) = (F s).logged r := by
  rw [logged_given, other, logged_given, log, ring]

theorem staging_small {s : State} (room : logRoom s) (ring : s.hdr.settings.ringBase ≠ 0) : s.log.staging.length < 4 := by
  rcases room with none_ | ⟨small, _⟩ | ⟨empty, _⟩
  · exact absurd none_ ring
  · exact small
  · rw [empty]
    decide

theorem body_handLog {r : LogRecord} {s t : State} (h : t.body = s.body) (room : logRoom s) :
    (handLog r t).body = (s.staged r).body := by
  unfold handLog State.staged LogWriter.staged
  rw [body_hdr h, body_log h]
  by_cases ring : s.hdr.settings.ringBase = 0
  · rw [if_pos ring, if_pos ring]
    exact h
  · rw [if_neg ring, if_neg ring, if_pos (staging_small room ring)]
    exact body_putLog_of _ h

/-- The Log Writer's course after a record has been staged: an IDLE one takes it. -/
theorem body_logPump_staged {n : Nat} {r : LogRecord} {s t : State} (h : t.body = (s.staged r).body) (room : logRoom s) :
    (logPump (n + 1) t).body = (s.logged r).body := by
  by_cases ring : s.hdr.settings.ringBase = 0
  · have plain : s.staged r = s := by rw [State.staged, LogWriter.staged, if_pos ring]
    rw [plain] at h
    rw [logPump_of_quiet _ ((logQuiet_of_body h).2 (.inl ring)), logged_noRing ring]
    exact h
  · have staged : s.staged r = { s with log := { s.log with staging := s.log.staging ++ [r] } } := by
      rw [State.staged, LogWriter.staged, if_neg ring]
    rw [staged] at h
    rw [logged_eq ring]
    cases writing : s.log.writing with
    | some k =>
      rw [logPump_of_quiet _ ((logQuiet_of_body h).2 (.inr (.inl (by rw [writing]; rfl))))]
      refine h.trans ?_
      rw [Option.getD_some, ← writing]
    | none =>
      obtain ⟨empty, space⟩ := (room.resolve_left ring).resolve_left (by simp [writing])
      rw [logPump_takes (r := r) (rest := []) (by rw [body_hdr h]; exact ring) (by rw [body_log h]; exact writing)
        (by rw [body_log h, empty]; rfl) (by rw [body_hdr h, body_log h]; exact space), body_log h]
      exact (body_putLog_of _ h).trans rfl

/-- A command at the end of which a record is staged, that the Log Writer has room for. -/
theorem ends_staged {c : Instr} {f : State → State} {s v : State} {r : LogRecord} (settled : Settled s)
    (hc : exec c s = .next (live f s)) (body : (f s).body = (v.staged r).body) (executor : executorStep v = none)
    (room : logRoom v) (access : (f s).port.access = s.port.access) : Ends c s (v.logged r) := by
  have rest : executorStep (f s) = none := by
    refine (executorStep_none_of_body body).2 (executor_rest executor ?_)
    exact ⟨rfl, rfl, rfl, rfl, rfl, rfl⟩
  have kept : executorStep (v.logged r) = none := by
    rw [logged_given]
    exact executor_rest executor ⟨rfl, rfl, rfl, rfl, rfl, rfl⟩
  have course : courses (f s) = logPump 5 (f s) := by rw [courses, settle_of_none 40 rest]
  refine ends_courses hc settled.1 (by rw [course]; exact body_logPump_staged body room) kept logQuiet_logged ?_
  rw [course, port_logPump, hostWaits_congr access]
  exact settled.2.2.2

/-! ## The program gain (R165) -/

/-- The gain ramp once a target has been worked out. -/
def rampTo (now target gain : Nat) (ramp : Option GainRamp) : Option GainRamp :=
  if target = (match ramp with | some r => r.gt | none => gain) then ramp
  else if target = gain then none
  else some { g0 := gain, gt := target, ticks := 0, start := now }

theorem retarget_eq (now : Nat) (c : ClipPlayer) :
    ClipPlayer.retarget now c = { c with gainRamp := rampTo now c.gainTarget c.gain c.gainRamp } := by
  unfold ClipPlayer.retarget rampTo
  change (if c.gainTarget = c.gainGoal then c else _) = { c with gainRamp := if c.gainTarget = c.gainGoal then _ else _ }
  split_ifs <;> rfl

/-- A target that is worked out to be the same leaves the ramp. -/
theorem rampTo_again (now target gain : Nat) (ramp : Option GainRamp) :
    rampTo now target gain (rampTo now target gain ramp) = rampTo now target gain ramp := by
  by_cases same : target = (match ramp with | some r => r.gt | none => gain)
  · have kept : rampTo now target gain ramp = ramp := if_pos same
    rw [kept, kept]
  · by_cases here : target = gain
    · have stops : rampTo now target gain ramp = none := (if_neg same).trans (if_pos here)
      rw [stops]
      exact if_pos here
    · have begins : rampTo now target gain ramp = some { g0 := gain, gt := target, ticks := 0, start := now } :=
        (if_neg same).trans (if_neg here)
      rw [begins]
      exact if_pos rfl

/-! ## The Clip Player up to the traffic (R151 to R163) -/

theorem clip_of_body {s t : State} (h : t.body = s.body) : t.clip = { s.clip with inFlight := t.clip.inFlight } := by
  have same : { t.clip with inFlight := false } = { s.clip with inFlight := false } := congrArg State.clip h
  exact congrArg (fun c => { c with inFlight := t.clip.inFlight }) same

/-- A change of the player that neither asks whether a sample word is on its way nor minds. -/
theorem body_clipWith {F : ClipPlayer → ClipPlayer} {s t : State} (h : t.body = s.body)
    (free : ∀ (b : Bool) (c : ClipPlayer), { F { c with inFlight := b } with inFlight := false } = { F c with inFlight := false }) :
    (putClip (F t.clip) t).body = ({ s with clip := F s.clip } : State).body := by
  rw [clip_of_body h]
  refine (body_putClip_of _ h).trans ?_
  have same := free t.clip.inFlight s.clip
  exact congrArg (fun c : ClipPlayer => ({ s.body with clip := c } : State)) same

/-- A change of the player after which the gain's target is worked out again. -/
theorem body_retargetWith {F : ClipPlayer → ClipPlayer} {s t : State} (h : t.body = s.body)
    (free : ∀ (b : Bool) (c : ClipPlayer), F { c with inFlight := b } = { F c with inFlight := b }) :
    (putClip (ClipPlayer.retarget t.now (F t.clip)) t).body
      = ({ s with clip := ClipPlayer.retarget s.now (F s.clip) } : State).body := by
  rw [body_now h]
  refine body_clipWith (F := fun c => ClipPlayer.retarget s.now (F c)) h (fun b c => ?_)
  dsimp only
  rw [free, retarget_inFlight]

/-- The player in a state, with CLIP_OUT and the gain's target that belong to it (R159, R165). -/
def ClipPlayer.entered (st : PlayerState) (now : Nat) (c : ClipPlayer) : ClipPlayer :=
  ClipPlayer.retarget now { c with
    state := st, lastOutput := if st = .idle ∨ st = .fetching then 0 else c.lastOutput }

theorem body_setPlayer {st : PlayerState} {s t : State} (h : t.body = s.body) :
    (setPlayer st t).body = ({ s with clip := s.clip.entered st s.now } : State).body :=
  body_retargetWith (F := fun c => { c with
    state := st, lastOutput := if st = .idle ∨ st = .fetching then 0 else c.lastOutput }) h (fun _ _ => rfl)

theorem body_beginPlay {clip : Nat} {source : ClipSource} {copy : List Word} {s t : State} (h : t.body = s.body) :
    (beginPlay clip source copy t).body
      = ({ s with clip := ClipPlayer.begun clip source (descriptorOf copy) s.now s.clip } : State).body := by
  unfold beginPlay
  have copied := body_clipWith (F := fun c => { c with
    playing := some { clip := clip, source := source, desc := descriptorOf copy }
    fetchAddr := (descriptorOf copy).start, toFetch := (descriptorOf copy).length, fetchDone := false, inFlight := false
    priming := true, underrunReported := false, fadeCount := 0, lastOutput := 0, fifo := [] }) h (fun _ _ => rfl)
  exact (body_setPlayer copied).trans rfl

/-- A play of the same gain's target as the player has already begins as it does from the player before (R165). -/
theorem begun_entered {clip : Nat} {source : ClipSource} {d : Descriptor} {now : Nat} {c : ClipPlayer}
    {start : Option StartRecord} :
    ClipPlayer.begun clip source d now { c.entered .fetching now with start := start }
      = ClipPlayer.begun clip source d now { c with start := start } := by
  have fetching : c.entered .fetching now
      = { c with state := .fetching, lastOutput := 0, gainRamp := rampTo now c.duck c.gain c.gainRamp } :=
    retarget_eq now { c with state := .fetching, lastOutput := 0 }
  rw [fetching, ClipPlayer.begun, ClipPlayer.begun, retarget_eq, retarget_eq]
  dsimp only [ClipPlayer.gainTarget]
  rw [if_neg (by decide), rampTo_again]

/-- An empty clip queue leaves the player IDLE (R161, R162). -/
theorem body_playNext_idle {s t : State} (h : t.body = s.body) (queue : s.clip.queue = []) : (playNext t).body
    = ({ s with clip := ClipPlayer.retarget s.now { s.clip with
        state := .idle, lastOutput := 0, playing := none, fifo := [] } } : State).body := by
  unfold playNext
  rw [body_clipQueue h, queue]
  have emptied : (putClip { t.clip with playing := none, fifo := [], inFlight := false } t).body
      = ({ s with clip := { s.clip with playing := none, fifo := [] } } : State).body :=
    body_clipWith (F := fun c => { c with playing := none, fifo := [], inFlight := false }) h (fun _ _ => rfl)
  exact (body_setPlayer emptied).trans rfl

/-- The head of the clip queue leaves it, its pin is released and its play begins (R154, R161, R162). -/
theorem body_playNext_begins {q : ClipEntry} {later : List ClipEntry} {s t : State} (h : t.body = s.body)
    (queue : s.clip.queue = q :: later) : (playNext t).body = ({ s with
      shadow := if q.pinned then (releasePin .clip q.clip s).shadow else s.shadow
      clip := ClipPlayer.begun q.clip q.source (descriptorOf q.copy) s.now { s.clip with queue := later } } : State).body := by
  unfold playNext
  rw [body_clipQueue h, queue]
  have popped := body_clipWith (F := fun c => { c with queue := later }) h (fun _ _ => rfl)
  have released : (if q.pinned then releasePin .clip q.clip (putClip { t.clip with queue := later } t)
      else putClip { t.clip with queue := later } t).body = ({ s with
        shadow := if q.pinned then (releasePin .clip q.clip s).shadow else s.shadow
        clip := { s.clip with queue := later } } : State).body := by
    cases pinned : q.pinned with
    | false => simpa using popped
    | true =>
      refine (body_releasePin popped).trans ?_
      have same := releasePin_congr (s := s) (t := { s with clip := { s.clip with queue := later } })
        ⟨rfl, rfl, userLookups_congr rfl rfl⟩ .clip q.clip
      exact congrArg (fun sh => ({ s with shadow := sh, clip := { s.clip with queue := later } } : State).body) same
  exact (body_beginPlay released).trans rfl

/-- A clip PLAYING fades out (R162). -/
def ClipPlayer.fading (p : PlayingClip) (now : Nat) (c : ClipPlayer) : ClipPlayer :=
  ClipPlayer.retarget now { c with
    state := .fadingOut, fadeCount := fadeLength p.desc.rate, priming := false
    sampleBase := if c.priming then now else c.sampleBase, samples := if c.priming then 0 else c.samples }

theorem fading_of_primed {p : PlayingClip} {now : Nat} {c : ClipPlayer} (primed : c.priming = false) :
    c.fading p now = ClipPlayer.retarget now { c with state := .fadingOut, fadeCount := fadeLength p.desc.rate } := by
  cases c
  cases primed
  rfl

theorem enterFade_eq {p : PlayingClip} {t : State} (playing : t.clip.playing = some p) :
    enterFade t = setPlayer .fadingOut (putClip (if t.clip.priming then { t.clip with
      fadeCount := fadeLength p.desc.rate, priming := false, sampleBase := t.now, samples := 0 }
      else { t.clip with fadeCount := fadeLength p.desc.rate }) t) := by
  simp only [enterFade, playing]

theorem body_enterFade {p : PlayingClip} {s t : State} (h : t.body = s.body) (playing : s.clip.playing = some p) :
    (enterFade t).body = ({ s with clip := s.clip.fading p s.now } : State).body := by
  have playing' : t.clip.playing = some p := by rw [clip_of_body h]; exact playing
  have faded : (putClip (if t.clip.priming then { t.clip with
      fadeCount := fadeLength p.desc.rate, priming := false, sampleBase := t.now, samples := 0 }
      else { t.clip with fadeCount := fadeLength p.desc.rate }) t).body = ({ s with clip := { s.clip with
        fadeCount := fadeLength p.desc.rate, priming := false
        sampleBase := if s.clip.priming then s.now else s.clip.sampleBase
        samples := if s.clip.priming then 0 else s.clip.samples } } : State).body := by
    rw [clip_of_body h, body_now h]
    cases priming : s.clip.priming with
    | true => exact (body_putClip_of _ h).trans rfl
    | false => 
      refine (body_putClip_of _ h).trans ?_
      exact congrArg (fun b => ({ s with clip := { s.clip with fadeCount := fadeLength p.desc.rate, priming := b } } : State).body) priming
  rw [enterFade_eq playing']
  exact (body_setPlayer faded).trans rfl

theorem body_emptyClipQueue {s t : State} (h : t.body = s.body) (queue : s.clip.queue = []) :
    (emptyClipQueue t).body = s.body := by
  unfold emptyClipQueue
  rw [body_clipQueue h, queue]
  refine (body_clipWith (F := fun c => { c with queue := [] }) h (fun _ _ => rfl)).trans ?_
  exact congrArg (fun q => ({ s with clip := { s.clip with queue := q } } : State).body) queue.symm

theorem serveAll_of_quiet {t : State} (quiet : t.clip.start ≠ none ∨ t.clip.requests = []) : serveAll t = t := by
  unfold serveAll serveNext
  rcases quiet with held | none_
  · cases start : t.clip.start with
    | none => exact absurd start held
    | some st => rfl
  · rw [none_]
    cases t.clip.start <;> rfl

/-! ## Start requests (R152 to R156) -/

theorem entered_start (st : PlayerState) (now : Nat) (start : Option StartRecord) (c : ClipPlayer) :
    { c.entered st now with start := start } = ClipPlayer.entered st now { c with start := start } := by
  simp only [ClipPlayer.entered, retarget_eq]
  rfl

theorem cutOff_eq {p : PlayingClip} {now : Nat} {st : StartRecord} {c : ClipPlayer} :
    c.cutOff now p st = { c.fading p now with start := some st } := by
  simp only [ClipPlayer.cutOff, ClipPlayer.fading, retarget_eq]
  rfl

/-- The start record of a request while its descriptor is looked up, or waited for. -/
def ClipRequest.looked (r : ClipRequest) : StartRecord := { request := r, copy := none, pinned := true }

section
variable {r : ClipRequest} {i : Nat} {s t : State} (h : t.body = s.body) (base : s.hdr.settings.clipBase ≠ 0)
include h base

/-- A miss begins to fill the entry given up (R58). -/
theorem body_lookupStart_misses (missing : s.shadow.find .clip r.clip = none) (victim : s.shadow.victim = some i) :
    (lookupStart r t).body = (State.fetchingDescriptor r.clip i { s with
      clip := { s.clip with start := some r.looked } }).body := by
  obtain ⟨u, looked, body⟩ := lookup_misses (kind := .clip) (pin := true) h base missing victim
  unfold lookupStart
  rw [looked]
  exact (body_clipWith (F := fun c => { c with start := some r.looked }) body (fun _ _ => rfl)).trans rfl

/-- A fetch under way is joined (R57). -/
theorem body_lookupStart_joins (found : s.shadow.find .clip r.clip = some i)
    (filling : (s.shadow.entry i).isValid = false) : (lookupStart r t).body = ({ s with
      shadow := s.shadow.pinned i, clip := { s.clip with start := some r.looked } } : State).body := by
  obtain ⟨u, looked, body⟩ := lookup_filling (kind := .clip) h base found filling
  unfold lookupStart
  rw [looked]
  exact (body_clipWith (F := fun c => { c with start := some r.looked }) body (fun _ _ => rfl)).trans rfl

/-- A copy found is answered at once (R56). -/
theorem lookupStart_finds {d : EntryData} {stale : Bool} {used : Nat} (found : s.shadow.find .clip r.clip = some i)
    (valid : s.shadow.entry i = .valid d stale used) : ∃ u, lookupStart r t = resolveStart (some d.copy) u
      ∧ u.body = ({ s with
        shadow := s.shadow.pinned i, clip := { s.clip with start := some r.looked } } : State).body := by
  obtain ⟨d', stale', used', u, entry, looked, body⟩ := lookup_valid (kind := .clip) h base found (by rw [valid]; rfl)
  obtain ⟨rfl, -, -⟩ := WatchEntry.valid.inj (valid.symm.trans entry)
  refine ⟨putClip { u.clip with start := some r.looked } u, ?_,
    (body_clipWith (F := fun c => { c with start := some r.looked }) body (fun _ _ => rfl)).trans rfl⟩
  unfold lookupStart
  rw [looked]
  rfl

end

/-- A request of a player with nothing waiting is served (R152). -/
theorem startRequest_serves {r : ClipRequest} {t : State} (power : t.thermal.power = .normal)
    (start : t.clip.start = none) (requests : t.clip.requests = []) : startRequest r t = serveAll (serve r t) := by
  unfold startRequest
  rw [if_neg (by simp [power]), if_pos ⟨start, requests⟩]

/-- A CUT at an IDLE player makes it FETCHING, and is looked up (R153). -/
theorem serve_idle {r : ClipRequest} {s t : State} (h : t.body = s.body) (cut : r.queueMode = false)
    (idle : s.clip.state = .idle) (queue : s.clip.queue = []) :
    ∃ u, serve r t = lookupStart r u ∧ u.body = ({ s with clip := s.clip.entered .fetching s.now } : State).body := by
  have emptied := body_emptyClipQueue h queue
  refine ⟨setPlayer .fetching (emptyClipQueue t), ?_, body_setPlayer emptied⟩
  have state : (emptyClipQueue t).clip.state = .idle := by rw [clip_of_body emptied]; exact idle
  simp only [serve, cut, state]
  rfl

/-- A CUT at a PLAYING player begins the fade, and is looked up (R153, R162). -/
theorem serve_playing {r : ClipRequest} {p : PlayingClip} {s t : State} (h : t.body = s.body) (cut : r.queueMode = false)
    (state : s.clip.state = .playing) (playing : s.clip.playing = some p) (queue : s.clip.queue = []) :
    ∃ u, serve r t = lookupStart r u ∧ u.body = ({ s with clip := s.clip.fading p s.now } : State).body := by
  have emptied := body_emptyClipQueue h queue
  refine ⟨enterFade (emptyClipQueue t), ?_, body_enterFade emptied playing⟩
  have state' : (emptyClipQueue t).clip.state = .playing := by rw [clip_of_body emptied]; exact state
  simp only [serve, cut, state']
  rfl

/-- **A CUT of a descriptor that no entry holds**, at an IDLE player with nothing waiting (R58, R153). -/
theorem body_startRequest_misses {n i : Nat} {source : ClipSource} {s t : State} (h : t.body = s.body)
    (misses : clipMisses n i s) : (startRequest { clip := n, queueMode := false, source := source } t).body
      = (s.fetchingClip n i source).body := by
  obtain ⟨power, idle, start, requests, queue, base, missing, victim⟩ := misses
  have clip := clip_of_body h
  obtain ⟨u, serves, body⟩ := serve_idle (r := { clip := n, queueMode := false, source := source }) h rfl idle queue
  have looked := body_lookupStart_misses (r := { clip := n, queueMode := false, source := source }) body base missing victim
  have held : (lookupStart { clip := n, queueMode := false, source := source } u).clip.start ≠ none := by
    rw [clip_of_body looked]
    exact Option.some_ne_none _
  rw [startRequest_serves (by rw [body_thermal h]; exact power) (by rw [clip]; exact start) (by rw [clip]; exact requests),
    serves, serveAll_of_quiet (.inl held), looked]
  have same := entered_start .fetching s.now (some (StartRecord.cut n source none)) s.clip
  exact congrArg (fun c => (State.fetchingDescriptor n i { s with clip := c }).body) same

/-! ## Stops (R163) -/

theorem body_abortRequests {s t : State} (h : t.body = s.body) (requests : s.clip.requests = []) :
    (abortRequests t).body = s.body := by
  have none_ : t.clip.requests = [] := by rw [clip_of_body h]; exact requests
  unfold abortRequests
  rw [none_]
  refine (body_clipWith (F := fun c => { c with requests := [] }) h (fun _ _ => rfl)).trans ?_
  exact congrArg (fun q => ({ s with clip := { s.clip with requests := q } } : State).body) requests.symm

theorem abortStart_none {s t : State} (h : t.body = s.body) (start : s.clip.start = none) : abortStart t = t := by
  unfold abortStart
  rw [clip_of_body h]
  dsimp only
  rw [start]

theorem faded_playing {p : PlayingClip} {now : Nat} {c : ClipPlayer} (state : c.state = .playing)
    (playing : c.playing = some p) : c.faded now
      = ClipPlayer.retarget now { c with state := .fadingOut, fadeCount := fadeLength p.desc.rate } := by
  cases c
  cases state
  cases playing
  rfl

theorem faded_still {now : Nat} {c : ClipPlayer} (state : c.state ≠ .playing) : c.faded now = c := by
  unfold ClipPlayer.faded
  cases st : c.state
  case playing => exact absurd st state
  all_goals rfl

/-- A stop of a player with no request in hand (R163). -/
theorem body_clipStopNow {s t : State} (h : t.body = s.body) (plain : stopsPlainly s.clip) :
    (clipStopNow t).body = ({ s with clip := s.clip.faded s.now } : State).body := by
  obtain ⟨requests, start, queue, notFetching, primed⟩ := plain
  have aborted := body_abortRequests (body_emptyClipQueue h queue) requests
  have state : (abortRequests (emptyClipQueue t)).clip.state = s.clip.state := by rw [clip_of_body aborted]
  unfold clipStopNow
  rw [abortStart_none aborted start]
  dsimp only
  rw [state]
  cases st : s.clip.state with
  | idle => exact aborted.trans (by rw [faded_still (by simp [st])])
  | fetching => exact absurd st notFetching
  | fadingOut => exact aborted.trans (by rw [faded_still (by simp [st])])
  | playing =>
    obtain ⟨sounding, ready⟩ := primed st
    obtain ⟨p, playing⟩ := Option.ne_none_iff_exists'.1 sounding
    exact (body_enterFade aborted playing).trans (by rw [fading_of_primed ready, faded_playing st playing])

end Sys2Proof.Machine
end
section
/-! The samples of a play and the program gain's ticks (R158 to R162, R166). -/

namespace Sys2Proof.Machine

/-! ## Sample words (R158, R159) -/

/-- Priming ends once the FIFO holds 32 samples, or some and the fetch is done (R159). -/
def ClipPlayer.primedBy (ready : Prop) [Decidable ready] (now : Nat) (c : ClipPlayer) : ClipPlayer :=
  let primed := c.priming = true ∧ ready
  { c with
    priming := if primed then false else c.priming
    sampleBase := if primed then now else c.sampleBase
    samples := if primed then 0 else c.samples }

theorem endPriming_eq {now : Nat} {ready : Prop} [Decidable ready] {c : ClipPlayer}
    (enough : (32 ≤ c.fifo.length ∨ (c.fetchDone = true ∧ c.fifo ≠ [])) ↔ ready) :
    ClipPlayer.endPriming now c = c.primedBy ready now := by
  unfold ClipPlayer.endPriming ClipPlayer.primedBy
  have test : (c.priming && (decide (32 ≤ c.fifo.length) || (c.fetchDone && !c.fifo.isEmpty))) = true
      ↔ c.priming = true ∧ ready := by
    rw [← enough]
    simp
  by_cases primed : c.priming = true ∧ ready
  · rw [if_pos (test.2 primed)]
    simp only [if_pos primed]
  · rw [if_neg (fun h => primed (test.1 h))]
    simp only [if_neg primed]

/-- At the end of a pass a looping clip with nothing queued begins the next, and any other has fetched its last (R161). -/
theorem endPass_eq {p : PlayingClip} {c : ClipPlayer} (playing : c.playing = some p) :
    let again := p.desc.loop = true ∧ c.queue = []
    c.endPass = { c with
      toFetch := if again then p.desc.length else c.toFetch
      fetchAddr := if again then p.desc.start else c.fetchAddr
      fetchDone := if again then c.fetchDone else true } := by
  intro again
  have test : (p.desc.loop && c.queue.isEmpty) = true ↔ again := by simp [again]
  unfold ClipPlayer.endPass
  rw [playing]
  dsimp only
  by_cases next : again
  · rw [if_pos (test.2 next)]
    simp only [if_pos next, ← playing]
  · rw [if_neg (fun h => next (test.1 h))]
    simp only [if_neg next, ← playing]

section
variable {now : Nat} {w : Word} {c : ClipPlayer}

/-- A word in the middle of a pass joins the FIFO, its low byte first (R158). -/
theorem takeWord_more (more : 2 < c.toFetch) (fetching : c.fetchDone = false) : ClipPlayer.takeWord now w c =
    ClipPlayer.primedBy (32 ≤ (c.fifo ++ [(loByte w).toInt, (hiByte w).toInt]).length) now { c with
      fifo := c.fifo ++ [(loByte w).toInt, (hiByte w).toInt]
      toFetch := c.toFetch - 2, fetchAddr := c.fetchAddr + 2, inFlight := false } := by
  unfold ClipPlayer.takeWord wordSamples
  rw [if_neg (show ¬c.toFetch = 1 by omega)]
  dsimp only [List.length_cons, List.length_nil]
  rw [if_neg (show ¬c.toFetch - (0 + 1 + 1) = 0 by omega)]
  exact endPriming_eq (by simp [fetching])

/-- The last word of a pass gives the samples that are left (R158); a looping clip with nothing queued begins its next
pass, and any other has fetched its last (R161). -/
theorem takeWord_last {p : PlayingClip} (playing : c.playing = some p) (left : c.toFetch = 1 ∨ c.toFetch = 2)
    (fetching : c.fetchDone = false) :
    let last := if c.toFetch = 1 then c.fifo ++ [(loByte w).toInt] else c.fifo ++ [(loByte w).toInt, (hiByte w).toInt]
    let again := p.desc.loop = true ∧ c.queue = []
    ClipPlayer.takeWord now w c = ClipPlayer.primedBy (32 ≤ last.length ∨ ¬again) now { c with
      fifo := last
      toFetch := if again then p.desc.length else 0
      fetchAddr := if again then p.desc.start else c.fetchAddr + 2
      fetchDone := decide (¬again), inFlight := false } := by
  intro last again
  have taken : c.fifo ++ wordSamples w c.toFetch = last := by
    unfold wordSamples last
    split <;> rfl
  have none_ : c.toFetch - (wordSamples w c.toFetch).length = 0 := by
    unfold wordSamples
    rcases left with one | two <;> simp [*]
  have some_ : last ≠ [] := by
    unfold last
    split <;> simp
  unfold ClipPlayer.takeWord
  dsimp only
  rw [taken, none_, if_pos rfl]
  refine (congrArg (ClipPlayer.endPriming now) (endPass_eq (p := p) (c := { c with
    fifo := last, toFetch := 0, fetchAddr := c.fetchAddr + 2, inFlight := false }) playing)).trans ?_
  have done : (if again then c.fetchDone else true) = decide (¬again) := by
    by_cases next : again <;> simp [next, fetching]
  change ClipPlayer.endPriming now { c with
    fifo := last, toFetch := if again then p.desc.length else 0
    fetchAddr := if again then p.desc.start else c.fetchAddr + 2
    fetchDone := if again then c.fetchDone else true, inFlight := false } = _
  rw [done]
  exact endPriming_eq (by simp [some_])

end

theorem endSampleRead_void {s : State} {a : RamAccess} (ram : s.port.ram = some a) (who : a.who = .clipPlayer)
    (void : a.void = true) : endSampleRead s = freeRam s := by
  unfold endSampleRead
  rw [inRamOf_eq ram who]
  exact if_pos void

/-- A sample word returns (R158). -/
theorem body_endSampleRead {s : State} {a : RamAccess} (ram : s.port.ram = some a) (who : a.who = .clipPlayer)
    (void : a.void = false) :
    (endSampleRead s).body = ({ s with clip := ClipPlayer.takeWord s.now a.data s.clip } : State).body := by
  unfold endSampleRead
  rw [inRamOf_eq ram who]
  exact (congrArg State.body (if_neg (ne_true_of_eq_false void))).trans (body_putClip_of _ rfl)

theorem access_endSampleRead (s : State) : (endSampleRead s).port.access = s.port.access := by
  unfold endSampleRead
  split
  · split <;> simp [freeRam]
  · rfl

/-! ## The answer to a start request (R155) -/

/-- A request of the host is the ACTIVE command's. -/
def ClipSource.active (source : ClipSource) (s : State) : Prop :=
  ∀ tag, source = .command tag → s.hdr.record.state = .active ∧ s.hdr.record.code = codeClip

theorem active_of_posts {source : ClipSource} {s : State} (posts : startPosts source s) : source.active s := by
  rintro tag rfl
  exact posts.2

theorem body_answerStart_ok {source : ClipSource} {s t : State} (h : t.body = s.body) (posts : source.active s) :
    (answerStart source .ok t).body = (s.startAnswered source .ok).body := by
  cases source with
  | command tag =>
    obtain ⟨active, code⟩ := posts tag rfl
    have with_ : activeWith codeClip t = true := by
      rw [activeWith_of_body h]
      exact activeWith_iff.2 ⟨active, code⟩
    exact (congrArg State.body (if_pos with_)).trans (body_endPlain h active)
  | tape time => exact h
  | injected => exact h
  | remote => exact h
  | linked => exact h

/-- A change of the player may come before the answer ok, or after it. -/
theorem startAnswered_ok_clip {source : ClipSource} {F : Nat → ClipPlayer → ClipPlayer} {s : State} :
    { s.startAnswered source .ok with
      clip := F (s.startAnswered source .ok).now (s.startAnswered source .ok).clip }
        = State.startAnswered source .ok { s with clip := F s.now s.clip } := by
  cases source <;> rfl

theorem startAnswered_ok_player {source : ClipSource} {s : State} : (s.startAnswered source .ok).clip = s.clip := by
  cases source <;> rfl

theorem startAnswered_ok_log (source : ClipSource) (s : State) : (s.startAnswered source .ok).log = s.log := by
  cases source <;> rfl

theorem startAnswered_ok_settings (source : ClipSource) (s : State) :
    (s.startAnswered source .ok).hdr.settings.ringBase = s.hdr.settings.ringBase := by
  cases source <;> rfl

theorem latched_startAnswered (e : Event) (source : ClipSource) (s : State) :
    (s.startAnswered source .ok).latched e = (s.latched e).startAnswered source .ok := by
  cases source <;> rfl

theorem executor_rest_startAnswered {source : ClipSource} {s : State} (rest : executorStep s = none) :
    executorStep (s.startAnswered source .ok) = none := by
  cases source with
  | command tag => exact executor_rest_ended rest ⟨rfl, rfl, rfl, rfl, rfl, rfl⟩
  | tape time => exact rest
  | injected => exact rest
  | remote => exact rest
  | linked => exact rest

theorem begun_requests (clip : Nat) (source : ClipSource) (d : Descriptor) (now : Nat) (c : ClipPlayer) :
    (ClipPlayer.begun clip source d now c).requests = c.requests := by
  rw [ClipPlayer.begun, retarget_eq]

theorem body_dropStart {st : StartRecord} {s t : State} (h : t.body = s.body) : (dropStart st t).body = ({ s with
    shadow := if st.pinned
      then (releasePin .clip st.request.clip { s with clip := { s.clip with start := none } }).shadow else s.shadow
    clip := { s.clip with start := none } } : State).body := by
  have dropped := body_clipWith (F := fun c => { c with start := none }) h (fun _ _ => rfl)
  unfold dropStart
  cases pinned : st.pinned with
  | false => simpa using dropped
  | true => exact (body_releasePin dropped).trans rfl

/-! ## The fade's end (R162) -/

/-- The player at the end of its fade: CLIP_OUT is 0, the FIFO empty and the playing clip dropped. -/
def ClipPlayer.gone (c : ClipPlayer) : ClipPlayer :=
  { c with lastOutput := 0, fifo := [], playing := none, fadeCount := 0, fetchDone := true }

/-- The player has been stopped, and looks at its start record. -/
def atFadeEnd (s : State) : State :=
  putClip { (withdrawClip s).clip with
    lastOutput := 0, fifo := [], playing := none, inFlight := false, fadeCount := 0, fetchDone := true } (withdrawClip s)

theorem body_atFadeEnd {s t : State} (h : t.body = s.body) :
    (atFadeEnd t).body = ({ s with clip := s.clip.gone } : State).body := by
  have withdrawn : (withdrawClip t).body = s.body := Eq.trans (body_voidAccess _ _) h
  exact body_clipWith (F := fun c => { c with
    lastOutput := 0, fifo := [], playing := none, inFlight := false, fadeCount := 0, fetchDone := true }) withdrawn
    (fun _ _ => rfl)

section
variable {t : State}

theorem fadeEnd_none (start : (atFadeEnd t).clip.start = none) : fadeEnd t = playNext (atFadeEnd t) := by
  unfold atFadeEnd at start ⊢
  simp only [fadeEnd, start]

theorem fadeEnd_held {st : StartRecord} {copy : List Word} (start : (atFadeEnd t).clip.start = some st)
    (cut : st.request.queueMode = false) (held : st.copy = some copy) : fadeEnd t
      = serveAll (beginPlay st.request.clip st.request.source copy
          (answerStart st.request.source .ok (dropStart st (atFadeEnd t)))) := by
  unfold atFadeEnd at start ⊢
  simp only [fadeEnd, start, cut, held]
  rfl

theorem fadeEnd_awaited {st : StartRecord} (start : (atFadeEnd t).clip.start = some st)
    (cut : st.request.queueMode = false) (awaited : st.copy = none) : fadeEnd t = setPlayer .fetching (atFadeEnd t) := by
  unfold atFadeEnd at start ⊢
  simp only [fadeEnd, start, cut, awaited]
  rfl

end

section
variable {s t : State} (h : t.body = s.body)
include h

theorem body_fadeEnd_queue (start : s.clip.start = none) :
    ∃ u, fadeEnd t = playNext u ∧ u.body = ({ s with clip := s.clip.gone } : State).body := by
  have gone := body_atFadeEnd h
  exact ⟨atFadeEnd t, fadeEnd_none (by rw [clip_of_body gone]; exact start), gone⟩

/-- A CUT that waits with its copy begins, and is answered (R153, R155). -/
theorem body_fadeEnd_cut {st : StartRecord} {copy : List Word} (start : s.clip.start = some st)
    (cut : st.request.queueMode = false) (held : st.copy = some copy) (requests : s.clip.requests = [])
    (posts : st.request.source.active s) : (fadeEnd t).body = (State.startAnswered st.request.source .ok { s with
      shadow := if st.pinned
        then (releasePin .clip st.request.clip { s with clip := { s.clip with start := none } }).shadow else s.shadow
      clip := ClipPlayer.begun st.request.clip st.request.source (descriptorOf copy) s.now
        { s.clip.gone with start := none } }).body := by
  have gone := body_atFadeEnd h
  have start' : (atFadeEnd t).clip.start = some st := by rw [clip_of_body gone]; exact start
  have dropped := body_dropStart (st := st) gone
  have pins : (releasePin .clip st.request.clip { s with clip := { s.clip.gone with start := none } }).shadow
      = (releasePin .clip st.request.clip { s with clip := { s.clip with start := none } }).shadow :=
    releasePin_congr (s := { s with clip := { s.clip with start := none } })
      (t := { s with clip := { s.clip.gone with start := none } }) ⟨rfl, rfl, userLookups_congr rfl rfl⟩ .clip _
  have answered := body_answerStart_ok (source := st.request.source) dropped posts
  have begun := (body_beginPlay (clip := st.request.clip) (source := st.request.source) (copy := copy) answered).trans
    (congrArg State.body (startAnswered_ok_clip (F := fun now c => ClipPlayer.begun st.request.clip st.request.source
      (descriptorOf copy) now c)))
  have quiet : (beginPlay st.request.clip st.request.source copy
      (answerStart st.request.source .ok (dropStart st (atFadeEnd t)))).clip.requests = [] := by
    rw [clip_of_body begun]
    dsimp only
    rw [startAnswered_ok_player, begun_requests]
    exact requests
  rw [fadeEnd_held start' cut held, serveAll_of_quiet (.inr quiet), begun]
  exact congrArg (fun sh => (State.startAnswered st.request.source .ok { s with
    shadow := if st.pinned then sh else s.shadow
    clip := ClipPlayer.begun st.request.clip st.request.source (descriptorOf copy) s.now
      { s.clip.gone with start := none } }).body) pins

/-- One whose descriptor is awaited leaves the player FETCHING (R162). -/
theorem body_fadeEnd_fetching {st : StartRecord} (start : s.clip.start = some st) (cut : st.request.queueMode = false)
    (awaited : st.copy = none) : (fadeEnd t).body = ({ s with
      clip := ClipPlayer.retarget s.now { s.clip.gone with state := .fetching } } : State).body := by
  have gone := body_atFadeEnd h
  have start' : (atFadeEnd t).clip.start = some st := by rw [clip_of_body gone]; exact start
  rw [fadeEnd_awaited start' cut awaited]
  exact (body_setPlayer gone).trans rfl

end

/-! ## What is due (R159, R160, R162) -/

theorem access_withdrawClip (s : State) : (withdrawClip s).port.access = s.port.access := by
  unfold withdrawClip voidAccess
  dsimp only
  split
  · split <;> rfl
  · rfl

theorem access_fadeEnd (s : State) : (fadeEnd s).port.access = s.port.access := by
  have gone : (atFadeEnd s).port.access = s.port.access := by
    simp [atFadeEnd, access_withdrawClip]
  cases start : (atFadeEnd s).clip.start with
  | none => rw [fadeEnd_none start, ← gone]; simp
  | some st =>
    cases mode : st.request.queueMode with
    | true =>
      have next : fadeEnd s = playNext (atFadeEnd s) := by
        unfold atFadeEnd at start ⊢
        simp only [fadeEnd, start, mode, if_true]
      rw [next, ← gone]
      simp
    | false =>
      cases copy : st.copy with
      | none => rw [fadeEnd_awaited start mode copy, ← gone]; simp
      | some copy => rw [fadeEnd_held start mode copy, ← gone]; simp

theorem access_outputSample (x : Int) (rest : List Int) (s : State) :
    (outputSample x rest s).port.access = s.port.access := by
  unfold outputSample
  dsimp only
  split_ifs <;> simp [access_fadeEnd]

theorem access_missSample (s : State) : (missSample s).port.access = s.port.access := by
  unfold missSample
  dsimp only
  split_ifs <;> simp [access_fadeEnd]

theorem access_dueSample (s : State) : (dueSample s).port.access = s.port.access := by
  unfold dueSample
  split
  · split
    · exact access_outputSample _ _ s
    · split_ifs <;> simp [access_fadeEnd, access_missSample]
  · rfl

/-- The sample that is due ends with the executor and the Log Writer as they were. -/
theorem ends_dueSample {s u : State} (settled : Settled s) (body : (dueSample s).body = u.body)
    (executor : executorStep u = none) (ring : u.hdr.settings.ringBase = s.hdr.settings.ringBase) (log : u.log = s.log) :
    Ends .sampleDue s u := by
  refine ends_live settled rfl body executor ?_ (access_dueSample s)
  rw [logQuiet, ring, log]
  exact settled.2.2.1

section
variable {s : State} {p : PlayingClip} (playing : s.clip.playing = some p) (primed : s.clip.priming = false)
  (reached : s.clip.sampleBase + s.clip.samples * 1000000 / sampleRate p.desc.rate ≤ s.now)
include playing primed reached

theorem sampleIsDue_of (sounds : s.clip.state = .playing ∨ s.clip.state = .fadingOut) : sampleIsDue s = true := by
  have rate : s.clip.rate = sampleRate p.desc.rate := by
    unfold ClipPlayer.rate
    rw [playing]
  unfold sampleIsDue ClipPlayer.nextDue
  rw [rate, primed]
  rcases sounds with st | st <;> simp [st, reached]

theorem dueSample_outputs {x : Int} {rest : List Int} (sounds : s.clip.state = .playing ∨ s.clip.state = .fadingOut)
    (fifo : s.clip.fifo = x :: rest) : dueSample s = outputSample x rest s := by
  unfold dueSample
  rw [if_pos (sampleIsDue_of playing primed reached sounds), fifo]

theorem dueSample_misses (sounds : s.clip.state = .playing ∨ s.clip.state = .fadingOut)
    (fifo : s.clip.fifo = []) (fetching : s.clip.fetchDone = false) : dueSample s = missSample s := by
  unfold dueSample
  rw [if_pos (sampleIsDue_of playing primed reached sounds), fifo]
  simp only [fetching]
  rfl

end

theorem sampleIsDue_priming {s : State} (priming : s.clip.priming = true) : sampleIsDue s = false := by
  unfold sampleIsDue
  rw [priming, Bool.not_true, Bool.and_false, Bool.false_and]

theorem sampleIsDue_before {s : State} {p : PlayingClip} (playing : s.clip.playing = some p)
    (before : s.now < s.clip.sampleBase + s.clip.samples * 1000000 / sampleRate p.desc.rate) : sampleIsDue s = false := by
  have rate : s.clip.rate = sampleRate p.desc.rate := by
    unfold ClipPlayer.rate
    rw [playing]
  unfold sampleIsDue ClipPlayer.nextDue
  rw [rate, decide_eq_false (Nat.not_le.2 before), Bool.and_false]

theorem dueSample_nothing {s : State} (h : sampleIsDue s = false) : dueSample s = s :=
  if_neg (ne_true_of_eq_false h)

/-! ## Outputs in PLAYING (R159 to R161) -/

theorem playValue_eq (x : Int) (gain volume : Nat) : playValue x gain volume = x * gain * volume / 65536 :=
  Int.fdiv_eq_ediv_of_nonneg _ (by decide)

theorem fadeValue_eq (x : Int) (gain volume c n : Nat) :
    fadeValue x gain volume c n = x * gain * volume * (c : Int) / (65536 * n) :=
  Int.fdiv_eq_ediv_of_nonneg _ (by positivity)

/-- The player has output a sample (R159). -/
def ClipPlayer.sampled (rest : List Int) (output : Int) (c : ClipPlayer) : ClipPlayer :=
  { c with fifo := rest, samples := c.samples + 1, lastOutput := output }

section
variable {s : State} {p : PlayingClip} {x : Int} {rest : List Int} (playing : s.clip.playing = some p)
include playing

/-- A sample is output in PLAYING, scaled by gain and volume (R159). -/
theorem outputSample_plays (state : s.clip.state = .playing) : outputSample x rest s =
    let u := putClip (s.clip.sampled rest (x * p.desc.gain * s.clip.volume / 65536)) s
    if s.clip.fetchDone = true ∧ rest = [] then playNext u else u := by
  have gain : s.clip.clipGain = p.desc.gain := by
    unfold ClipPlayer.clipGain
    rw [playing]
  unfold outputSample
  dsimp only
  rw [if_neg (by simp [state]), gain, playValue_eq]
  rfl

/-- A sample is output during the fade, scaled by the count that is left (R162). -/
theorem outputSample_fades (state : s.clip.state = .fadingOut) : outputSample x rest s =
    let left := s.clip.fadeCount - 1
    let output := x * p.desc.gain * s.clip.volume * (left : Int) / (65536 * fadeLength p.desc.rate)
    let u := putClip { s.clip.sampled rest output with fadeCount := left } s
    if left = 0 ∨ (s.clip.fetchDone = true ∧ rest = []) then fadeEnd u else u := by
  have gain : s.clip.clipGain = p.desc.gain := by
    unfold ClipPlayer.clipGain
    rw [playing]
  have fade : s.clip.fadeStart = fadeLength p.desc.rate := by
    unfold ClipPlayer.fadeStart
    rw [playing]
  unfold outputSample
  dsimp only
  rw [if_pos state, gain, fade, fadeValue_eq]
  rfl

end

/-! ## What the fade's end leads to (R153, R162) -/

/-- The sample with which the fade ends, in a player v that has taken it. -/
theorem ends_fadeOver {s t v : State} (settled : Settled s) (ends : dueSample s = fadeEnd t) (body : t.body = v.body)
    (same : SameExecutor s v) (hdr : v.hdr = s.hdr) (log : v.log = s.log) (shadow : v.shadow = s.shadow)
    (tray : v.tray = s.tray) (start : v.clip.start = s.clip.start) :
    (s.clip.start = none → v.clip.queue = [] →
      Ends .sampleDue s { v with clip := ClipPlayer.retarget v.now { v.clip.gone with state := .idle } }) ∧
    (∀ q later, s.clip.start = none → v.clip.queue = q :: later → Ends .sampleDue s { v with
      shadow := if q.pinned then (releasePin .clip q.clip s).shadow else s.shadow
      clip := ClipPlayer.begun q.clip q.source (descriptorOf q.copy) v.now { v.clip.gone with queue := later } }) ∧
    (∀ (st : StartRecord) copy, s.clip.start = some st → st.request.queueMode = false → st.copy = some copy →
      v.clip.requests = [] → startPosts st.request.source s →
      Ends .sampleDue s (State.startAnswered st.request.source .ok { v with
        shadow := if st.pinned
          then (releasePin .clip st.request.clip { s with clip := { s.clip with start := none } }).shadow else s.shadow
        clip := ClipPlayer.begun st.request.clip st.request.source (descriptorOf copy) v.now
          { v.clip.gone with start := none } })) ∧
    (∀ st, s.clip.start = some st → st.request.queueMode = false → st.copy = none →
      Ends .sampleDue s { v with clip := ClipPlayer.retarget v.now { v.clip.gone with state := .fetching } }) := by
  have ring : v.hdr.settings.ringBase = s.hdr.settings.ringBase := by rw [hdr]
  have rest := executor_rest settled.2.1 same
  have users : userLookups v = userLookups s := userLookups_congr tray start
  refine ⟨fun none_ queue => ?_, fun q later none_ queue => ?_, fun st copy held cut copied requests posts => ?_,
    fun st held cut awaited => ?_⟩
  · obtain ⟨u, next, gone⟩ := body_fadeEnd_queue body (start.trans none_)
    refine ends_dueSample settled ?_ (executor_rest rest ⟨rfl, rfl, rfl, rfl, rfl, rfl⟩) ring log
    rw [ends, next]
    exact (body_playNext_idle gone queue).trans rfl
  · obtain ⟨u, next, gone⟩ := body_fadeEnd_queue body (start.trans none_)
    refine ends_dueSample settled ?_ (executor_rest rest ⟨rfl, rfl, rfl, rfl, rfl, rfl⟩) ring log
    have pins : (releasePin .clip q.clip { v with clip := v.clip.gone }).shadow = (releasePin .clip q.clip s).shadow :=
      releasePin_congr (t := { v with clip := v.clip.gone })
        ⟨shadow, congrArg Header.settings hdr, Eq.trans (userLookups_congr rfl rfl) users⟩ .clip q.clip
    rw [ends, next, body_playNext_begins gone queue, pins]
    dsimp only
    rw [shadow]
  · have posts' : startPosts st.request.source v := by
      unfold startPosts logRoom
      rw [hdr, log]
      exact posts
    have pins : (releasePin .clip st.request.clip { v with clip := { v.clip with start := none } }).shadow
        = (releasePin .clip st.request.clip { s with clip := { s.clip with start := none } }).shadow :=
      releasePin_congr (s := { s with clip := { s.clip with start := none } })
        (t := { v with clip := { v.clip with start := none } })
        ⟨shadow, congrArg Header.settings hdr, userLookups_congr tray rfl⟩ .clip _
    refine ends_dueSample settled ?_ (executor_rest_startAnswered (executor_rest rest ⟨rfl, rfl, rfl, rfl, rfl, rfl⟩)) ?_ ?_
    · rw [ends, body_fadeEnd_cut body (start.trans held) cut copied requests (active_of_posts posts'), pins, shadow]
    · exact Eq.trans (startAnswered_ok_settings _ _) ring
    · exact Eq.trans (startAnswered_ok_log _ _) log
  · refine ends_dueSample settled ?_ (executor_rest rest ⟨rfl, rfl, rfl, rfl, rfl, rfl⟩) ring log
    rw [ends]
    exact body_fadeEnd_fetching body (start.trans held) cut awaited

/-! ## The cases of a sample that is due -/

section
variable {s : State} {p : PlayingClip} {x : Int} {rest : List Int} {q : ClipEntry} {later : List ClipEntry}
  (settled : Settled s) (playing : s.clip.playing = some p) (primed : s.clip.priming = false)
  (reached : s.clip.sampleBase + s.clip.samples * 1000000 / sampleRate p.desc.rate ≤ s.now)
include settled playing primed reached

theorem ends_sampleOutput (state : s.clip.state = .playing) (fifo : s.clip.fifo = x :: rest)
    (more : s.clip.fetchDone = false ∨ rest ≠ []) : Ends .sampleDue s { s with clip := { s.clip with
      fifo := rest, samples := s.clip.samples + 1, lastOutput := x * p.desc.gain * s.clip.volume / 65536 } } := by
  refine ends_dueSample settled ?_ (executor_rest settled.2.1 ⟨rfl, rfl, rfl, rfl, rfl, rfl⟩) rfl rfl
  rw [dueSample_outputs playing primed reached (.inl state) fifo, outputSample_plays playing state]
  dsimp only
  rw [if_neg (by rcases more with done | rest_ <;> simp [*])]
  exact body_putClip_of _ rfl

/-- After the last sample of a play with nothing queued the player is IDLE (R161). -/
theorem ends_playOver (state : s.clip.state = .playing) (fifo : s.clip.fifo = [x]) (done : s.clip.fetchDone = true)
    (queue : s.clip.queue = []) : Ends .sampleDue s { s with clip := ClipPlayer.retarget s.now { s.clip with
      state := .idle, playing := none, fifo := [], samples := s.clip.samples + 1, lastOutput := 0 } } := by
  refine ends_dueSample settled ?_ (executor_rest settled.2.1 ⟨rfl, rfl, rfl, rfl, rfl, rfl⟩) rfl rfl
  rw [dueSample_outputs playing primed reached (.inl state) fifo, outputSample_plays playing state]
  dsimp only
  rw [if_pos ⟨done, rfl⟩]
  exact (body_playNext_idle (body_putClip_of (s.clip.sampled [] _) rfl) queue).trans rfl

/-- With a clip queued its play begins (R161). -/
theorem ends_playNext (state : s.clip.state = .playing) (fifo : s.clip.fifo = [x]) (done : s.clip.fetchDone = true)
    (queue : s.clip.queue = q :: later) : Ends .sampleDue s { s with
      shadow := if q.pinned then (releasePin .clip q.clip s).shadow else s.shadow
      clip := ClipPlayer.begun q.clip q.source (descriptorOf q.copy) s.now
        { s.clip with queue := later, samples := s.clip.samples + 1 } } := by
  refine ends_dueSample settled ?_ (executor_rest settled.2.1 ⟨rfl, rfl, rfl, rfl, rfl, rfl⟩) rfl rfl
  rw [dueSample_outputs playing primed reached (.inl state) fifo, outputSample_plays playing state]
  dsimp only
  rw [if_pos ⟨done, rfl⟩]
  let c := s.clip.sampled [] (x * p.desc.gain * s.clip.volume / 65536)
  have pins : (releasePin .clip q.clip { s with clip := c }).shadow = (releasePin .clip q.clip s).shadow :=
    releasePin_congr (s := s) (t := { s with clip := c }) ⟨rfl, rfl, userLookups_congr rfl rfl⟩ .clip q.clip
  refine (body_playNext_begins (body_putClip_of c (s := s) rfl) queue).trans ?_
  rw [pins]
  rfl

theorem ends_fadeGoesOn (state : s.clip.state = .fadingOut) (fifo : s.clip.fifo = x :: rest) (left : 1 < s.clip.fadeCount)
    (more : s.clip.fetchDone = false ∨ rest ≠ []) : Ends .sampleDue s { s with clip := { s.clip with
      fifo := rest, samples := s.clip.samples + 1, fadeCount := s.clip.fadeCount - 1
      lastOutput := x * p.desc.gain * s.clip.volume * ((s.clip.fadeCount - 1 : Nat) : Int)
        / (65536 * fadeLength p.desc.rate) } } := by
  refine ends_dueSample settled ?_ (executor_rest settled.2.1 ⟨rfl, rfl, rfl, rfl, rfl, rfl⟩) rfl rfl
  rw [dueSample_outputs playing primed reached (.inr state) fifo, outputSample_fades playing state]
  dsimp only
  rw [if_neg (by rcases more with done | rest_ <;> simp [*] <;> omega)]
  exact body_putClip_of _ rfl

omit settled in
/-- The last sample of the fade, and the fade's end. -/
theorem dueSample_fadeEnds (state : s.clip.state = .fadingOut) (fifo : s.clip.fifo = x :: rest)
    (last : s.clip.fadeCount ≤ 1 ∨ (s.clip.fetchDone = true ∧ rest = [])) :
    ∃ output, dueSample s = fadeEnd (putClip { s.clip.sampled rest output with fadeCount := s.clip.fadeCount - 1 } s) := by
  refine ⟨x * p.desc.gain * s.clip.volume * ((s.clip.fadeCount - 1 : Nat) : Int) / (65536 * fadeLength p.desc.rate), ?_⟩
  rw [dueSample_outputs playing primed reached (.inr state) fifo, outputSample_fades playing state]
  dsimp only
  rw [if_pos (by rcases last with one | done; exacts [.inl (by omega), .inr done])]

end

/-! ## A sample missed (R160) -/

/-- The underrun is latched, once a play. -/
def State.underrun (s : State) : State := if s.clip.underrunReported then s else s.latched .underrun

/-- The player has missed a sample (R160). -/
def ClipPlayer.missed (count : Nat) (c : ClipPlayer) : ClipPlayer :=
  { c with underruns := countUp c.underruns, underrunReported := true, samples := c.samples + 1, fadeCount := count }

/-- The state in which a sample has been missed: the underrun is latched, once a play. -/
def State.missed (count : Nat) (s : State) : State :=
  if s.clip.underrunReported then { s with clip := s.clip.missed count }
  else State.latched .underrun { s with clip := s.clip.missed count }

theorem missSample_eq (s : State) : missSample s =
    let count := s.clip.fadeCount - flagNat (decide (s.clip.state = .fadingOut))
    let u := latchIf (!s.clip.underrunReported) .underrun (putClip (s.clip.missed count) s)
    if s.clip.state = .fadingOut ∧ count = 0 then fadeEnd u else u := by
  simp [missSample, ClipPlayer.missed]

theorem body_missed {count : Nat} {s : State} :
    (latchIf (!s.clip.underrunReported) .underrun (putClip (s.clip.missed count) s)).body = (s.missed count).body := by
  refine (body_latchIf (s := { s with clip := s.clip.missed count }) (body_putClip_of _ rfl)).trans ?_
  unfold State.missed
  cases s.clip.underrunReported <;> rfl

theorem missed_same (count : Nat) (s : State) : SameExecutor s (s.missed count) ∧ (s.missed count).hdr = s.hdr
    ∧ (s.missed count).log = s.log ∧ (s.missed count).shadow = s.shadow ∧ (s.missed count).tray = s.tray
    ∧ (s.missed count).clip = s.clip.missed count := by
  unfold State.missed
  split <;> exact ⟨⟨rfl, rfl, rfl, rfl, rfl, rfl⟩, rfl, rfl, rfl, rfl, rfl⟩

section
variable {s : State} {p : PlayingClip} (settled : Settled s) (playing : s.clip.playing = some p)
  (primed : s.clip.priming = false)
  (reached : s.clip.sampleBase + s.clip.samples * 1000000 / sampleRate p.desc.rate ≤ s.now)
  (fifo : s.clip.fifo = []) (fetching : s.clip.fetchDone = false)
include playing primed reached fifo fetching

include settled in
theorem ends_missed {count : Nat} (sounds : s.clip.state = .playing ∨ s.clip.state = .fadingOut ∧ 1 < s.clip.fadeCount)
    (left : s.clip.fadeCount - flagNat (decide (s.clip.state = .fadingOut)) = count) : Ends .sampleDue s (s.missed count) := by
  subst left
  obtain ⟨same, hdr, log, -⟩ := missed_same (s.clip.fadeCount - flagNat (decide (s.clip.state = .fadingOut))) s
  refine ends_dueSample settled ?_ (executor_rest settled.2.1 same) (by rw [hdr]) log
  rw [dueSample_misses playing primed reached (sounds.imp_right And.left) fifo fetching, missSample_eq]
  dsimp only
  rw [if_neg]
  · exact body_missed
  · rintro ⟨state, last⟩
    rcases sounds with plays | ⟨-, left⟩
    · exact absurd (plays.symm.trans state) (by decide)
    · rw [state] at last
      simp only [decide_true, flagNat, if_true] at last
      omega

theorem dueSample_missesLast (state : s.clip.state = .fadingOut) (last : s.clip.fadeCount ≤ 1) :
    dueSample s = fadeEnd (latchIf (!s.clip.underrunReported) .underrun (putClip (s.clip.missed 0) s)) := by
  have none_ : s.clip.fadeCount - flagNat (decide (s.clip.state = .fadingOut)) = 0 := by
    rw [state]
    simp only [decide_true, flagNat, if_true]
    omega
  rw [dueSample_misses playing primed reached (.inr state) fifo fetching, missSample_eq]
  dsimp only
  rw [none_, if_pos ⟨state, rfl⟩]

end

/-! ## The gain's ticks (R166) -/

theorem gainTickDue_iff {g : GainRamp} {s : State} (ramp : s.clip.gainRamp = some g) :
    gainTickDue s = true ↔ g.start + (g.ticks + 1) * 1000 ≤ s.now := by
  unfold gainTickDue
  rw [ramp]
  exact decide_eq_true_iff

theorem gainTick_eq {g : GainRamp} {c : ClipPlayer} (ramp : c.gainRamp = some g) : c.gainTick =
    if g.duration ≤ g.ticks + 1 then { c with gain := g.gt, gainRamp := none }
    else { c with gain := g.level (g.ticks + 1), gainRamp := some { g with ticks := g.ticks + 1 } } := by
  unfold ClipPlayer.gainTick
  rw [ramp]

/-- Settles O51: what the play, the fade and the fade's end make of the player is in the lemmas above, and each of them
leaves the executor and the Log Writer alone. -/
theorem samplesAndGain : Obligations.SamplesAndGain := by
  unfold Obligations.SamplesAndGain
  intro s a x rest p g q later st copy settled c lo hi fifo primed due n k len fadeOver
  have still {u : State} (body : (endSampleRead s).body = u.body) (same : SameExecutor s u)
      (ring : u.hdr.settings.ringBase = s.hdr.settings.ringBase) (log : u.log = s.log) : Ends .sampleWordReturned s u :=
    ends_quietly settled rfl body same ring log (access_endSampleRead s)
  refine ⟨fun ram who void => ?_, fun ram who void more fetching => ?_, fun ram who void fetching playing left => ?_,
    fun ⟨playing, ready, reached⟩ state fifo more => ends_sampleOutput settled playing ready reached state fifo more,
    fun ⟨playing, ready, reached⟩ state fifo done queue => ends_playOver settled playing ready reached state fifo done queue,
    fun ⟨playing, ready, reached⟩ state fifo done queue => ends_playNext settled playing ready reached state fifo done queue,
    fun ⟨playing, ready, reached⟩ state fifo last => ?_,
    fun ⟨playing, ready, reached⟩ state fifo left more => ends_fadeGoesOn settled playing ready reached state fifo left more,
    fun ⟨playing, ready, reached⟩ fifo fetching => ⟨fun state => ?_, fun state left => ?_, fun state last => ?_⟩,
    fun notPlaying notFading => ?_, fun notDue => ?_, fun ramp reached more => ?_, fun ramp reached last => ?_,
    fun notDue => ?_⟩
  · exact still (by rw [endSampleRead_void ram who void]; rfl) ⟨rfl, rfl, rfl, rfl, rfl, rfl⟩ rfl rfl
  · refine still ?_ ⟨rfl, rfl, rfl, rfl, rfl, rfl⟩ rfl rfl
    rw [body_endSampleRead ram who void, takeWord_more more fetching]
    rfl
  · refine still ?_ ⟨rfl, rfl, rfl, rfl, rfl, rfl⟩ rfl rfl
    rw [body_endSampleRead ram who void, takeWord_last playing left fetching]
    rfl
  · obtain ⟨output, ends⟩ := dueSample_fadeEnds playing ready reached state fifo last
    obtain ⟨idle, next, cut, fetch⟩ := ends_fadeOver settled ends (body_putClip_of _ (s := s) rfl)
      ⟨rfl, rfl, rfl, rfl, rfl, rfl⟩ rfl rfl rfl rfl rfl
    exact ⟨idle, next q later, cut st copy, fetch st⟩
  · exact ends_missed settled playing ready reached fifo fetching (.inl state) (by rw [state]; rfl)
  · exact ends_missed settled playing ready reached fifo fetching (.inr ⟨state, left⟩) (by rw [state]; rfl)
  · have ends := dueSample_missesLast playing ready reached fifo fetching state last
    obtain ⟨same, hdr, log, shadow, tray, clip⟩ := missed_same 0 s
    obtain ⟨idle, next, cut, fetch⟩ := ends_fadeOver settled ends body_missed same hdr log shadow tray (by rw [clip]; rfl)
    by_cases reported : s.clip.underrunReported = true
    · have eq : s.missed 0 = { s with clip := s.clip.missed 0 } := if_pos reported
      have as_is (u : State) : (if c.underrunReported then u else State.latched .underrun u) = u := if_pos reported
      rw [eq] at idle next cut fetch
      refine ⟨fun none_ queue => ?_, fun none_ queue => ?_, fun held mode copied requests posts => ?_,
        fun held mode awaited => ?_⟩
      · exact (congrArg (Ends .sampleDue s) (as_is _)).mpr (idle none_ queue)
      · exact (congrArg (Ends .sampleDue s) (as_is _)).mpr (next q later none_ queue)
      · exact (congrArg (Ends .sampleDue s) (as_is _)).mpr (cut st copy held mode copied requests posts)
      · exact (congrArg (Ends .sampleDue s) (as_is _)).mpr (fetch st held mode awaited)
    · have eq : s.missed 0 = State.latched .underrun { s with clip := s.clip.missed 0 } := if_neg reported
      have too (u : State) : (if c.underrunReported then u else State.latched .underrun u) = u.latched .underrun :=
        if_neg reported
      rw [eq] at idle next cut fetch
      refine ⟨fun none_ queue => ?_, fun none_ queue => ?_, fun held mode copied requests posts => ?_,
        fun held mode awaited => ?_⟩
      · exact (congrArg (Ends .sampleDue s) (too _)).mpr (idle none_ queue)
      · exact (congrArg (Ends .sampleDue s) (too _)).mpr (next q later none_ queue)
      · exact (congrArg (Ends .sampleDue s) ((too _).trans (latched_startAnswered _ _ _))).mpr
          (cut st copy held mode copied requests posts)
      · exact (congrArg (Ends .sampleDue s) (too _)).mpr (fetch st held mode awaited)
  · refine ends_nothing settled rfl (f := dueSample) (dueSample_nothing ?_)
    unfold sampleIsDue
    rw [decide_eq_false notPlaying, decide_eq_false notFading]
    rfl
  · refine ends_nothing settled rfl (f := dueSample) (dueSample_nothing ?_)
    rcases notDue with ready | ⟨playing, before⟩
    · exact sampleIsDue_priming ready
    · exact sampleIsDue_before playing before
  · have due := (gainTickDue_iff ramp).2 reached
    refine ends_quietly settled rfl (f := gainTickNow) ?_ ⟨rfl, rfl, rfl, rfl, rfl, rfl⟩ rfl rfl (by simp)
    unfold gainTickNow
    rw [if_pos due, gainTick_eq ramp, if_neg (show ¬g.duration ≤ g.ticks + 1 from Nat.not_le.2 more)]
    exact body_putClip_of _ rfl
  · have due := (gainTickDue_iff ramp).2 reached
    refine ends_quietly settled rfl (f := gainTickNow) ?_ ⟨rfl, rfl, rfl, rfl, rfl, rfl⟩ rfl rfl (by simp)
    unfold gainTickNow
    rw [if_pos due, gainTick_eq ramp, if_pos (show g.duration ≤ g.ticks + 1 from last)]
    exact body_putClip_of _ rfl
  · refine ends_nothing settled rfl (f := gainTickNow) (if_neg ?_)
    rcases notDue with none_ | ⟨ramp, before⟩
    · unfold gainTickDue
      rw [show s.clip.gainRamp = none from none_]
      exact Bool.false_ne_true
    · rw [gainTickDue_iff ramp]
      exact Nat.not_le.2 before

end Sys2Proof.Machine
end
section
/-! The CLIP and CLIP_STOP commands (R152 to R156, R163). -/

namespace Sys2Proof.Machine

/-! ## Descriptors (R53, R156) -/

theorem fieldOf_eq (w : Word) (lo width : Nat) : fieldOf w lo width = w.toNat / 2 ^ lo % 2 ^ width := by
  rw [fieldOf, Nat.shiftRight_eq_div_pow]

theorem bitOf_eq (w : Word) (i : Nat) : bitOf w i = decide (w.toNat / 2 ^ i % 2 = 1) := by
  rw [bitOf, BitVec.getLsbD, Nat.testBit_eq_decide_div_mod_eq]

theorem descriptorOf_words (w0 w1 w2 w3 : Word) : descriptorOf [w0, w1, w2, w3] = descriptorIn w0 w1 w2 w3 := by
  have start : w0.toNat / 2 % 32768 = w0.toNat / 2 := Nat.mod_eq_of_lt (by have := w0.isLt; omega)
  have gain : w3.toNat / 256 % 256 = w3.toNat / 256 := Nat.mod_eq_of_lt (by have := w3.isLt; omega)
  simp [descriptorOf, descriptorIn, fieldOf_eq, bitOf_eq, start, gain]

theorem descriptorValid_of_passes {d : Descriptor} (passes : d.passes) : descriptorValid d = true := by
  obtain ⟨length, rate, start, inside⟩ := passes
  have room : d.start + d.length - 1 < ramBytes := by
    unfold ramBytes
    omega
  simp [descriptorValid, length, rate, start, room]

/-! ## A pin leaves every record where it is (R56, R62) -/

theorem find_setEntry {sh : Shadow} {i : Nat} {e : WatchEntry} (same : e.fields.map (fun d => (d.kind, d.key))
    = (sh.entry i).fields.map (fun d => (d.kind, d.key))) (kind : RecKind) (key : Nat) :
    (sh.setEntry i e).find kind key = sh.find kind key := by
  have holds : e.holds kind key = (sh.entry i).holds kind key := by
    unfold WatchEntry.holds
    cases new : e.fields <;> cases old : (sh.entry i).fields <;> simp_all
  have map : (sh.table.setIfInBounds i e).toList.map (WatchEntry.holds kind key)
      = sh.table.toList.map (WatchEntry.holds kind key) := by
    refine List.ext_getElem (by simp) fun j hj _ => ?_
    have hj' : j < 16 := by simpa using hj
    simp only [List.getElem_map, Vector.getElem_toList, Vector.getElem_setIfInBounds]
    split
    · next here =>
      subst here
      rw [holds, Shadow.entry, Vector.getElem?_eq_getElem hj', Option.getD_some]
    · rfl
  have through (l : List WatchEntry) : l.findIdx? (WatchEntry.holds kind key)
      = (l.map (WatchEntry.holds kind key)).findIdx? id := by rw [List.findIdx?_map]; rfl
  unfold Shadow.find Shadow.setEntry
  rw [through, through, map]

theorem find_pinned {sh : Shadow} {i : Nat} (kind : RecKind) (key : Nat) :
    (sh.pinned i).find kind key = sh.find kind key := by
  cases entry : sh.entry i with
  | free => simp only [Shadow.pinned, entry]
  | filling d =>
    simp only [Shadow.pinned, entry]
    exact find_setEntry (by rw [entry]; rfl) kind key
  | valid d stale used =>
    simp only [Shadow.pinned, entry]
    exact find_setEntry (by rw [entry]; rfl) kind key

/-! ## Descriptors answered (R153) -/

section
variable {st : StartRecord} {copy : List Word} {t : State} (start : t.clip.start = some st)
  (cut : st.request.queueMode = false) (valid : descriptorValid (descriptorOf copy) = true)
include start cut valid

theorem resolveStart_begins (fetching : t.clip.state = .fetching) : resolveStart (some copy) t =
    beginPlay st.request.clip st.request.source copy (answerStart st.request.source .ok (dropStart st t)) := by
  unfold resolveStart
  rw [start]
  dsimp only
  rw [if_neg (ne_true_of_eq_false cut)]
  unfold resolveCut copyValid
  dsimp only
  rw [if_pos valid, if_pos fetching, Option.getD_some]

theorem resolveStart_keeps (other : t.clip.state ≠ .fetching) : resolveStart (some copy) t =
    putClip { t.clip with start := some { st with copy := some copy } } t := by
  unfold resolveStart
  rw [start]
  dsimp only
  rw [if_neg (ne_true_of_eq_false cut)]
  unfold resolveCut copyValid
  dsimp only
  rw [if_pos valid, if_neg other]

end

theorem resolveStart_refuses {st : StartRecord} {t : State} (start : t.clip.start = some st)
    (queued : st.request.queueMode = true) :
    resolveStart none t = answerStart st.request.source .clipInvalid (dropStart st t) := by
  unfold resolveStart
  rw [start]
  dsimp only
  rw [if_pos queued]
  rfl

theorem entered_state (st : PlayerState) (now : Nat) (c : ClipPlayer) : (c.entered st now).state = st := by
  rw [ClipPlayer.entered, retarget_eq]

theorem fading_state (p : PlayingClip) (now : Nat) (c : ClipPlayer) : (c.fading p now).state = .fadingOut := by
  rw [ClipPlayer.fading, retarget_eq]

theorem entered_requests (st : PlayerState) (now : Nat) (c : ClipPlayer) : (c.entered st now).requests = c.requests := by
  rw [ClipPlayer.entered, retarget_eq]

/-! ## A CUT whose record an entry holds (R153, R155, R157) -/

section
variable {r : ClipRequest} {i used : Nat} {d : EntryData} {stale : Bool} {s t : State} (h : t.body = s.body)
  (power : s.thermal.power = .normal) (start : s.clip.start = none) (requests : s.clip.requests = [])
  (queue : s.clip.queue = []) (cut : r.queueMode = false) (base : s.hdr.settings.clipBase ≠ 0)
include h power start requests queue cut base

omit queue cut base in
theorem startRequest_free : startRequest r t = serveAll (serve r t) := by
  refine startRequest_serves (by rw [body_thermal h]; exact power) ?_ ?_
  · rw [clip_of_body h]
    exact start
  · rw [clip_of_body h]
    exact requests

/-- At an IDLE player its play begins at once, and the pin is released again. -/
theorem body_startRequest_begins (idle : s.clip.state = .idle) (found : s.shadow.find .clip r.clip = some i)
    (valid : s.shadow.entry i = .valid d stale used) (passes : descriptorValid (descriptorOf d.copy) = true)
    (posts : r.source.active s) (alone : noLookupWaits { s with shadow := (s.shadow.pinned i).released i }) :
    (startRequest r t).body = (State.startAnswered r.source .ok { s with
      shadow := (s.shadow.pinned i).released i
      clip := ClipPlayer.begun r.clip r.source (descriptorOf d.copy) s.now s.clip }).body := by
  obtain ⟨u, serves, fetching⟩ := serve_idle h cut idle queue
  obtain ⟨v, finds, looked⟩ := lookupStart_finds (r := r) fetching base found valid
  have begins : lookupStart r u = beginPlay r.clip r.source d.copy (answerStart r.source .ok (dropStart r.looked v)) := by
    refine finds.trans (resolveStart_begins (st := r.looked) ?_ cut passes ?_)
    · rw [clip_of_body looked]
    · rw [clip_of_body looked]
      exact entered_state _ _ _
  have dropped := body_dropStart (st := r.looked) looked
  have released : (releasePin .clip r.clip { s with
      shadow := s.shadow.pinned i, clip := { s.clip.entered .fetching s.now with start := none } }).shadow
        = (s.shadow.pinned i).released i := by
    refine shadow_releasePin (by rw [find_pinned]; exact found) ((waitingLookups_congr ?_).trans alone)
    exact ⟨rfl, rfl, userLookups_congr rfl start.symm⟩
  have answered := body_answerStart_ok (source := r.source) dropped posts
  have begun := (body_beginPlay (clip := r.clip) (source := r.source) (copy := d.copy) answered).trans
    (congrArg State.body (startAnswered_ok_clip (F := fun now c => ClipPlayer.begun r.clip r.source
      (descriptorOf d.copy) now c)))
  have quiet : (lookupStart r u).clip.requests = [] := by
    rw [begins, clip_of_body begun]
    dsimp only
    rw [startAnswered_ok_player, begun_requests]
    exact (entered_requests _ _ _).trans requests
  rw [startRequest_free h power start requests, serves, serveAll_of_quiet (.inr quiet), begins, begun]
  dsimp only
  rw [begun_entered]
  have kept : { s.clip with start := none } = s.clip := by rw [← start]
  rw [kept]
  exact congrArg (fun sh => (State.startAnswered r.source .ok { s with
    shadow := sh, clip := ClipPlayer.begun r.clip r.source (descriptorOf d.copy) s.now s.clip }).body) released

section
variable {p : PlayingClip} (state : s.clip.state = .playing) (playing : s.clip.playing = some p)
include state playing

/-- At a PLAYING one the clip fades out, and a miss is fetched. -/
theorem body_startRequest_fades_misses (missing : s.shadow.find .clip r.clip = none)
    (victim : s.shadow.victim = some i) : (startRequest r t).body = (State.fetchingDescriptor r.clip i { s with
      clip := s.clip.cutOff s.now p r.looked }).body := by
  obtain ⟨u, serves, fading⟩ := serve_playing h cut state playing queue
  have looked := body_lookupStart_misses (r := r) fading base missing victim
  have held : (lookupStart r u).clip.start ≠ none := by
    rw [clip_of_body looked]
    exact Option.some_ne_none _
  rw [startRequest_free h power start requests, serves, serveAll_of_quiet (.inl held), looked, cutOff_eq]

/-- A fetch under way is joined. -/
theorem body_startRequest_fades_joins (found : s.shadow.find .clip r.clip = some i)
    (filling : (s.shadow.entry i).isValid = false) : (startRequest r t).body = ({ s with
      shadow := s.shadow.pinned i, clip := s.clip.cutOff s.now p r.looked } : State).body := by
  obtain ⟨u, serves, fading⟩ := serve_playing h cut state playing queue
  have looked := body_lookupStart_joins (r := r) fading base found filling
  have held : (lookupStart r u).clip.start ≠ none := by
    rw [clip_of_body looked]
    exact Option.some_ne_none _
  rw [startRequest_free h power start requests, serves, serveAll_of_quiet (.inl held), looked, cutOff_eq]

/-- A copy found is kept for the fade's end. -/
theorem body_startRequest_fades_keeps (found : s.shadow.find .clip r.clip = some i)
    (valid : s.shadow.entry i = .valid d stale used) (passes : descriptorValid (descriptorOf d.copy) = true) :
    (startRequest r t).body = ({ s with
      shadow := s.shadow.pinned i
      clip := s.clip.cutOff s.now p { r.looked with copy := some d.copy } } : State).body := by
  obtain ⟨u, serves, fading⟩ := serve_playing h cut state playing queue
  obtain ⟨v, finds, looked⟩ := lookupStart_finds (r := r) fading base found valid
  have keeps : lookupStart r u = putClip { v.clip with start := some { r.looked with copy := some d.copy } } v := by
    refine finds.trans (resolveStart_keeps (st := r.looked) ?_ cut passes ?_)
    · rw [clip_of_body looked]
    · rw [clip_of_body looked]
      exact fun same => absurd ((fading_state p s.now s.clip).symm.trans same) (by decide)
  have kept := body_clipWith (F := fun c => { c with start := some { r.looked with copy := some d.copy } }) looked
    (fun _ _ => rfl)
  have held : (lookupStart r u).clip.start ≠ none := by
    rw [keeps, clip_of_body kept]
    exact Option.some_ne_none _
  rw [startRequest_free h power start requests, serves, serveAll_of_quiet (.inl held), keeps, kept, cutOff_eq]

end

end

/-! ## The CLIP command (R152) -/

theorem commandClip_request {n : Nat} {r : CommandRecord} {t : State} (small : r.p1.toNat ≤ 63) (number : r.p1.toNat = n) :
    commandClip r t = startRequest { clip := n, queueMode := decide (r.p2 ≠ 0), source := .command r.tag } t := by
  unfold commandClip
  rw [if_neg (Nat.not_lt.2 small), number]

/-- Outside NORMAL a request of the host is refused (R152). -/
theorem startRequest_standby {n : Nat} {mode : Bool} {tag : Byte} {t : State} (power : t.thermal.power ≠ .normal)
    (active : activeWith codeClip t = true) :
    startRequest { clip := n, queueMode := mode, source := .command tag } t = endPlain .standby t := by
  unfold startRequest
  rw [if_pos power]
  exact if_pos active

/-- In QUEUE mode with no clip table set the request is answered clip_invalid (R54, R154). -/
theorem startRequest_noTable {n : Nat} {tag : Byte} {s t : State} (h : t.body = s.body)
    (power : s.thermal.power = .normal) (start : s.clip.start = none) (requests : s.clip.requests = [])
    (base : s.hdr.settings.clipBase = 0) (active : s.hdr.record.state = .active) (code : s.hdr.record.code = codeClip) :
    ∃ u, startRequest { clip := n, queueMode := true, source := .command tag } t = endPlain .clipInvalid u
      ∧ u.body = s.body := by
  let st : StartRecord :=
    { request := { clip := n, queueMode := true, source := .command tag }, copy := none, pinned := false }
  have given := body_clipWith (F := fun c => { c with start := some st }) h (fun _ _ => rfl)
  have dropped : (dropStart st (putClip { t.clip with start := some st } t)).body = s.body := by
    refine (body_dropStart (st := st) given).trans ?_
    exact congrArg (fun o => ({ s with clip := { s.clip with start := o } } : State).body) start.symm
  have served : serve st.request t
      = endPlain .clipInvalid (dropStart st (putClip { t.clip with start := some st } t)) := by
    have absent : lookup .clip n true t = (t, .absent) :=
      lookup_noTable (by rw [recordBase, body_hdr h]; exact base)
    have with_ : activeWith codeClip (dropStart st (putClip { t.clip with start := some st } t)) = true := by
      rw [activeWith_of_body dropped]
      exact activeWith_iff.2 ⟨active, code⟩
    have answered : answerStart (.command tag) .clipInvalid (dropStart st (putClip { t.clip with start := some st } t))
        = endPlain .clipInvalid (dropStart st (putClip { t.clip with start := some st } t)) := if_pos with_
    have looked : serve st.request t = resolveStart none (putClip { t.clip with start := some st } t) := by
      refine (if_pos rfl).trans ?_
      unfold lookupStart
      rw [absent]
    rw [looked, resolveStart_refuses (st := st) (by simp) rfl]
    exact answered
  refine ⟨_, ?_, dropped⟩
  rw [startRequest_free h power start requests, served, serveAll_of_quiet]
  right
  rw [clip_of_body (body_endPlain dropped active)]
  exact requests

/-- A CLIP command is taken. -/
theorem takes_clip {s : State} {a : RamAccess} (next : TakesNext s a codeClip) :
    ∃ w, endStatusWrite s = commandClip s.hdr.record.taken w ∧ w.body = ((statusShown a s).active).body := by
  obtain ⟨w, lands, body, record, -⟩ := takesNext_takes next
  obtain ⟨-, -, -, -, -, -, -, -, abort, -, code⟩ := next
  refine ⟨w, ?_, body⟩
  rw [lands, routeCommand_clip (by rw [record]; exact abort) (by rw [record]; exact code), record]

/-- A CUT command is taken, with a clip number in range. -/
theorem takes_cut {s : State} {a : RamAccess} (next : TakesNext s a codeClip) (small : s.hdr.record.p1.toNat ≤ 63)
    (cut : s.hdr.record.p2 = 0) : ∃ w, w.body = ((statusShown a s).active).body ∧ endStatusWrite s = startRequest
      { clip := s.hdr.record.p1.toNat, queueMode := false, source := .command s.hdr.record.tag } w := by
  obtain ⟨w, lands, body⟩ := takes_clip next
  have request := lands.trans (commandClip_request small rfl)
  have mode : decide (s.hdr.record.taken.p2 ≠ 0) = false := by
    rw [decide_eq_false_iff_not, not_not]
    exact cut
  rw [mode] at request
  exact ⟨w, body, request⟩

/-- A CLIP_STOP command is taken, at a player with no request in hand (R163). -/
theorem ends_clipStop {s : State} {a : RamAccess} (next : TakesNext s a codeClipStop) (plain : stopsPlainly s.clip) :
    Ends .statusBlockWriteLanded s (State.ended .ok 0 (plainLastSlot s) { statusShown a s with
      clip := s.clip.faded s.now }) := by
  obtain ⟨w, lands, body, record, -⟩ := takesNext_takes next
  obtain ⟨settled, -, -, -, -, -, -, -, abort, -, code⟩ := next
  have routed := lands.trans (routeCommand_clipStop (by rw [record]; exact abort) (by rw [record]; exact code))
  exact ends_endsPlain (v := { (statusShown a s).active with clip := s.clip.faded s.now }) settled routed
    (body_clipStopNow body plain) rfl (executor_rest_code (s := s) settled.2.1 rfl rfl rfl rfl rfl rfl rfl) rfl rfl

/-- Settles O19, command by command: what a request does to the player is in the lemmas above. -/
theorem clipCommandsWhenTaken : Obligations.ClipCommandsWhenTaken := by
  intro s a i used held stale w0 w1 w2 w3
  refine ⟨fun next large => ?_, fun next small power => ?_, fun next small power mode start requests base => ?_,
    fun next small cut misses => ?_, fun next small cut power start requests queue base => ?_,
    fun next idle start requests queue => ?_, fun p playing next state primed start requests queue => ?_⟩
  · obtain ⟨w, lands, body⟩ := takes_clip next
    exact ends_justEnds next.1 (lands.trans (if_pos large)) body
  · obtain ⟨w, lands, body⟩ := takes_clip next
    obtain ⟨settled, -, -, -, -, -, -, -, -, -, code⟩ := next
    refine ends_justEnds settled (lands.trans ((commandClip_request small rfl).trans
      (startRequest_standby (by rw [body_thermal body]; exact power) ?_))) body
    rw [activeWith_of_body body]
    exact activeWith_iff.2 ⟨rfl, code⟩
  · obtain ⟨w, lands, body⟩ := takes_clip next
    obtain ⟨settled, -, -, -, -, -, -, -, -, -, code⟩ := next
    have request := lands.trans (commandClip_request small rfl)
    rw [show decide (s.hdr.record.taken.p2 ≠ 0) = true from decide_eq_true mode] at request
    obtain ⟨u, refused, same⟩ := startRequest_noTable (n := s.hdr.record.p1.toNat) (tag := s.hdr.record.tag) body power
      start requests base rfl code
    exact ends_justEnds settled (request.trans refused) same
  · obtain ⟨w, body, lands⟩ := takes_cut next small cut
    have settled := next.1
    refine ends_landing settled ((congrArg State.body lands).trans (body_startRequest_misses body misses))
      (executor_rest_code (s := s) settled.2.1 rfl rfl rfl rfl rfl rfl rfl) rfl rfl
  · intro n c source u desc found valid
    obtain ⟨w, body, lands⟩ := takes_cut next small cut
    obtain ⟨settled, -, -, -, -, -, -, -, -, -, code⟩ := next
    have rest {v : State} (tray : v.tray = s.tray) (cx : v.cx = s.cx) (lamp : v.lamp = s.lamp) (remote : v.remote = s.remote)
        (same : v.hdr.record.code = s.hdr.record.code) (p1 : v.hdr.record.p1 = s.hdr.record.p1) : executorStep v = none :=
      executor_rest_code (s := s) settled.2.1 (by rw [tray]) cx (by rw [lamp]) (by rw [remote]) (by rw [remote]) same p1
    have passes (h : held.copy = [w0, w1, w2, w3]) (d : desc.passes) : descriptorValid (descriptorOf held.copy) = true := by
      rw [h, descriptorOf_words]
      exact descriptorValid_of_passes d
    refine ⟨fun idle ⟨found, entry, copy, d⟩ alone => ?_, fun p state playing => ⟨fun missing victim => ?_,
      fun found filling => ?_, fun ⟨found, entry, copy, d⟩ => ?_⟩⟩
    · have begins := body_startRequest_begins (r := { clip := n, queueMode := false, source := source }) body power start
        requests queue rfl base idle found entry (passes copy d) (fun _ _ => ⟨rfl, code⟩) alone
      rw [copy, descriptorOf_words] at begins
      exact ends_landing settled ((congrArg State.body lands).trans begins) (rest rfl rfl rfl rfl rfl rfl) rfl rfl
    · refine ends_landing settled ((congrArg State.body lands).trans (body_startRequest_fades_misses body power start
        requests queue rfl base state playing missing victim)) (rest rfl rfl rfl rfl rfl rfl) rfl rfl
    · refine ends_landing settled ((congrArg State.body lands).trans (body_startRequest_fades_joins body power start
        requests queue rfl base state playing found filling)) (rest rfl rfl rfl rfl rfl rfl) rfl rfl
    · have keeps := body_startRequest_fades_keeps (r := { clip := n, queueMode := false, source := source }) body power
        start requests queue rfl base state playing found entry (passes copy d)
      rw [copy] at keeps
      exact ends_landing settled ((congrArg State.body lands).trans keeps) (rest rfl rfl rfl rfl rfl rfl) rfl rfl
  · have stops := ends_clipStop next ⟨requests, start, queue, by rw [idle]; decide,
      fun plays => absurd (idle.symm.trans plays) (by decide)⟩
    rw [faded_still (by rw [idle]; decide)] at stops
    exact stops
  · have stops := ends_clipStop next ⟨requests, start, queue, by rw [state]; decide,
      fun _ => ⟨by rw [playing]; exact Option.some_ne_none p, primed⟩⟩
    rw [faded_playing state playing] at stops
    exact stops

end Sys2Proof.Machine
end
section
/-! Whole frames of the tape (R129 to R137): their check, the repeats, the log, and the immediate kinds. -/

namespace Sys2Proof.Machine

/-! ## A frame is heard, checked and counted (R125, R129, R130, R133) -/

theorem tapeFrame_absent {nibbles intervals : List Nat} {s : State} (carrier : s.cue.carrier ≠ .present) :
    tapeFrame nibbles intervals s = s := if_neg carrier

/-- The decoder has followed the frame's transitions. -/
def framePassed (intervals : List Nat) (s : State) : State :=
  putCue (CueTrack.tracked intervals s.endTime s.cue) s

theorem tapeFrame_deaf {nibbles intervals : List Nat} {s : State} (carrier : s.cue.carrier = .present)
    (decoding : s.hdr.settings.decoding = false) : tapeFrame nibbles intervals s = framePassed intervals s := by
  unfold tapeFrame
  rw [if_pos carrier]
  dsimp only
  rw [if_neg (by simp [decoding]), trackPeriods_eq]
  rfl

/-- The decoder stands after the frame's END, locked and between frames. -/
def atFrameEnd (intervals : List Nat) (s : State) : State :=
  putCue { (framePassed intervals s).cue with locked := true, window := [], group := [], spoiled := false }
    (framePassed intervals s)

theorem tapeFrame_heard {nibbles intervals : List Nat} {s : State} (carrier : s.cue.carrier = .present)
    (decoding : s.hdr.settings.decoding = true) (between : s.cue.frame = .between) :
    tapeFrame nibbles intervals s = completeFrame nibbles s.endTime (atFrameEnd intervals s) := by
  have quiet : failProgress (framePassed intervals s) = framePassed intervals s := by
    unfold failProgress
    rw [show (framePassed intervals s).cue.frame = .between by simp [framePassed, CueTrack.tracked, between]]
  unfold tapeFrame
  rw [if_pos carrier]
  dsimp only
  rw [if_pos (by simp [decoding]), trackPeriods_eq]
  change completeFrame nibbles s.endTime (putCue { (failProgress (framePassed intervals s)).cue with
    locked := true, window := [], group := [], spoiled := false } (failProgress (framePassed intervals s))) = _
  rw [quiet]
  rfl

theorem body_framePassed {intervals : List Nat} {s : State} : (framePassed intervals s).body
    = ({ s with cue := CueTrack.tracked intervals s.endTime s.cue } : State).body := body_putCue_of _ rfl

theorem body_atFrameEnd {intervals : List Nat} {s : State} : (atFrameEnd intervals s).body = ({ s with
    cue := { CueTrack.tracked intervals s.endTime s.cue with
      locked := true, window := [], group := [], spoiled := false } } : State).body := by
  unfold atFrameEnd
  rw [body_cue body_framePassed]
  exact (body_putCue_of _ body_framePassed).trans rfl

theorem isRepeat_iff {nibbles : List Nat} {s t : State} (last : t.cue.lastAccepted = s.cue.lastAccepted) :
    isRepeat nibbles s.endTime t = true ↔ repeats nibbles s := by
  unfold isRepeat repeats
  rw [last]
  cases s.cue.lastAccepted with
  | none => simp
  | some l => simp [Config.repeatWindow]

/-- The frame's END has been taken. -/
def frameTaken (intervals : List Nat) (s : State) : State :=
  putCue { (atFrameEnd intervals s).cue with frame := .between, fields := [] } (atFrameEnd intervals s)

section
variable {k : Nat} {fr : CueFrame} {s : State}

theorem completeFrame_right (check : frameChecks k fr = true) {endTime : Nat} {t : State} :
    completeFrame (CueFrame.nibbles fr k) endTime t =
      let u := putCue { t.cue with frame := .between, fields := [] } t
      if isRepeat (CueFrame.nibbles fr k) endTime u then putCue { u.cue with repeats := countUp u.cue.repeats } u
      else
        let v := putCue { u.cue with
          good := countUp u.cue.good, lastAccepted := some { nibbles := CueFrame.nibbles fr k, endTime := endTime } } u
        routeFrame fr.u.toNat k (256 * fr.p2.toNat + 16 * fr.p1.toNat + fr.p0.toNat) v.cue.tapeTime false v :=
  if_pos (of_decide_eq_true check)

theorem completeFrame_wrong (check : frameChecks k fr = false) {endTime : Nat} {t : State} :
    completeFrame (CueFrame.nibbles fr k) endTime t = failFrame .check 7 t :=
  if_neg (of_decide_eq_false check)

theorem body_frameTaken {intervals : List Nat} :
    (frameTaken intervals s).body = ({ s with cue := CueTrack.afterFrame intervals s.endTime s.cue } : State).body := by
  unfold frameTaken
  rw [body_cue body_atFrameEnd]
  exact (body_putCue_of _ body_atFrameEnd).trans rfl

theorem isRepeat_taken {nibbles intervals : List Nat} :
    isRepeat nibbles s.endTime (frameTaken intervals s) = true ↔ repeats nibbles s :=
  isRepeat_iff (by rw [body_cue body_frameTaken]; rfl)

/-- A valid frame that repeats the last accepted one is only counted (R133). -/
theorem body_tapeFrame_repeat (heard : hears k fr s) (again : repeats (CueFrame.nibbles fr k) s) :
    (tapeFrame (CueFrame.nibbles fr k) fr.intervals s).body = ({ s with
      cue := { CueTrack.afterFrame fr.intervals s.endTime s.cue with repeats := countUp s.cue.repeats } } : State).body := by
  obtain ⟨carrier, decoding, between, check⟩ := heard
  have taken := body_frameTaken (s := s) (intervals := fr.intervals)
  rw [tapeFrame_heard carrier decoding between, completeFrame_right check]
  refine (congrArg State.body (if_pos (isRepeat_taken.2 again))).trans ?_
  change (putCue { (frameTaken fr.intervals s).cue with
    repeats := countUp (frameTaken fr.intervals s).cue.repeats } (frameTaken fr.intervals s)).body = _
  rw [body_cue taken]
  exact (body_putCue_of _ taken).trans rfl

/-- A valid frame that is no repeat is counted good, and routed (R132, R133). -/
theorem tapeFrame_counts (heard : hears k fr s) (fresh : ¬repeats (CueFrame.nibbles fr k) s) :
    ∃ u, tapeFrame (CueFrame.nibbles fr k) fr.intervals s = routeFrame fr.u.toNat k
        (256 * fr.p2.toNat + 16 * fr.p1.toNat + fr.p0.toNat) s.cue.tapeTime false u
      ∧ u.body = (s.counted (CueFrame.nibbles fr k) fr.intervals).body ∧ u.port = s.port := by
  obtain ⟨carrier, decoding, between, check⟩ := heard
  have taken := body_frameTaken (s := s) (intervals := fr.intervals)
  let u := putCue { (frameTaken fr.intervals s).cue with
    good := countUp (frameTaken fr.intervals s).cue.good
    lastAccepted := some { nibbles := CueFrame.nibbles fr k, endTime := s.endTime } } (frameTaken fr.intervals s)
  have counted : u.body = (s.counted (CueFrame.nibbles fr k) fr.intervals).body := by
    unfold u
    rw [body_cue taken]
    exact (body_putCue_of _ taken).trans rfl
  have time : u.cue.tapeTime = s.cue.tapeTime := by
    rw [body_cue counted]
    rfl
  refine ⟨u, ?_, counted, by simp [u, frameTaken, atFrameEnd, framePassed]⟩
  rw [tapeFrame_heard carrier decoding between, completeFrame_right check, ← time]
  exact if_neg (fun again => fresh (isRepeat_taken.1 again))

end

/-! ## Routes (R132, R136, R137) -/

theorem addressed_of_body {u : Nat} {s t : State} (h : t.body = s.body) : addressed u t = addressed u s := by
  unfold addressed
  have unit : t.unit = s.unit := show t.body.unit = s.body.unit by rw [h]
  rw [body_hdr h, unit]

theorem routeFrame_foreign {u k p time : Nat} {injected : Bool} {t : State} (other : addressed u t = false) :
    routeFrame u k p time injected t
      = if t.hdr.settings.foreignLog then handLog (.foreign injected u k p time) t else t :=
  if_neg (ne_true_of_eq_false other)

theorem routeFrame_sequenced {u p time : Nat} {kind : SeqKind} {injected : Bool} {t : State} (here : addressed u t = true) :
    routeFrame u (SeqKind.code kind) p time injected t = routeSequenced kind u (SeqKind.code kind) p time injected t := by
  unfold routeFrame
  rw [if_pos here]
  cases kind <;> rfl

theorem routeFrame_immediate {u k p time : Nat} {injected : Bool} {t : State} (here : addressed u t = true)
    (immediate : k = 0 ∨ 6 < k) : routeFrame u k p time injected t = routeImmediate u k p time injected t := by
  have none_ : seqKindOf k = none := by
    unfold seqKindOf
    split
    case h_7 => rfl
    all_goals omega
  unfold routeFrame
  rw [if_pos here, none_]

/-! ## A record that is dropped (R139, R140) -/

/-- A record handed over at a full buffer, or alone at a full ring, is dropped. -/
theorem body_logPump_handLog_full {n : Nat} {r : LogRecord} {s t : State} (h : t.body = s.body) (full : logFull s) :
    (logPump (n + 2) (handLog r t)).body = s.overflowed.body := by
  obtain ⟨ring, ⟨four, writing⟩ | ⟨empty, idle, noRoom⟩⟩ := full
  · have dropped : (handLog r t).body = s.overflowed.body := by
      unfold handLog
      rw [body_hdr h, body_log h, if_neg ring, if_neg (by omega)]
      exact body_latched (body_putLog_of _ h)
    rw [logPump_of_quiet _ ((logQuiet_of_body dropped).2 (.inr (.inl writing)))]
    exact dropped
  · have staged : (handLog r t).body = ({ s with log := { s.log with staging := [r] } } : State).body := by
      unfold handLog
      rw [body_hdr h, body_log h, if_neg ring, if_pos (by rw [empty]; decide), empty]
      exact body_putLog_of _ h
    rw [logPump_drops (r := r) (rest := []) (by rw [body_hdr staged]; exact ring) (by rw [body_log staged]; exact idle)
      (by rw [body_log staged]) (by rw [body_hdr staged, body_log staged]; exact noRoom), body_log staged]
    have dropped : (latch .cueFault (putLog { s.log with
        staging := [], overflow := countUp s.log.overflow } (handLog r t))).body = s.overflowed.body := by
      refine (body_latched (body_putLog_of _ staged)).trans ?_
      exact congrArg (fun l => (State.latched .cueFault { s with log := { s.log with
        staging := l, overflow := countUp s.log.overflow } }).body) empty.symm
    rw [logPump_of_quiet _ ((logQuiet_of_body dropped).2 (.inr (.inr empty)))]
    exact dropped

/-- A command that ends with a record that is dropped. -/
theorem ends_overflowed {c : Instr} {f : State → State} {s v w : State} {r : LogRecord} (settled : Settled s)
    (hc : exec c s = .next (live f s)) (effect : f s = handLog r w) (body : w.body = v.body) (same : SameExecutor s v)
    (full : logFull v) (access : w.port.access = s.port.access) : Ends c s v.overflowed := by
  have rest := executor_rest settled.2.1 same
  have executor : executorStep (handLog r w) = none :=
    (executorStep_none_congr (s := w) (by simp) (by simp) (by simp) (by simp) (by simp) (by simp)).2
      ((executorStep_none_of_body body).2 rest)
  have course : courses (f s) = logPump 5 (handLog r w) := by rw [effect, courses, settle_of_none 40 executor]
  have quiet : logQuiet v.overflowed := by
    obtain ⟨-, ⟨-, writing⟩ | ⟨empty, -⟩⟩ := full
    · exact .inr (.inl writing)
    · exact .inr (.inr empty)
  refine ends_courses hc settled.1 (by rw [course]; exact body_logPump_handLog_full body full)
    (executor_rest rest ⟨rfl, rfl, rfl, rfl, rfl, rfl⟩) quiet ?_
  rw [course, port_logPump, hostWaits_congr (q := s.port) (by simpa using access)]
  exact settled.2.2.2

/-! ## The immediate kinds (R136) -/

section
variable {u p time : Nat} {injected : Bool} {t : State}

theorem routeImmediate_mark : routeImmediate u 10 p time injected t
    = handLog (.cue (plainFlags injected) u 10 p time) t := by
  unfold routeImmediate
  rfl

theorem routeImmediate_hold : routeImmediate u 9 p time injected t
    = holdCue p (handLog (.cue (plainFlags injected) u 9 p time) t) := by
  unfold routeImmediate
  rfl

theorem routeImmediate_clipStop : routeImmediate u 8 p time injected t
    = clipStopNow (handLog (.cue (plainFlags injected) u 8 p time) t) := by
  unfold routeImmediate
  rfl

theorem routeImmediate_clip (cut : p / 64 % 2 = 0) : routeImmediate u 7 p time injected t
    = startRequest { clip := p % 64, queueMode := false, source := if injected then .injected else .tape time }
        (handLog (.cue (plainFlags injected) u 7 p time) t) := by
  have mode : decide (p / 64 % 2 = 1) = false := by
    rw [decide_eq_false_iff_not]
    omega
  unfold routeImmediate
  rw [mode]
  rfl

theorem routeImmediate_unknown {k : Nat} (unknown : k = 0 ∨ 10 < k) : routeImmediate u k p time injected t
    = handLog (.cue { plainFlags injected with unknownKind := true } u k p time) t := by
  unfold routeImmediate kindClip kindClipStop kindHold kindMark
  rw [if_neg (by omega), if_neg (by omega), if_neg (by omega), if_neg (by omega)]

end

/-- HOLD adds CUE and sets its timer (R144). -/
theorem body_holdCue {p : Nat} {s t : State} (h : t.body = s.body) : (holdCue p t).body = ({ s with
    deck := { s.deck with cue := true, holdUntil := if p = 0 then none else some (s.now + p * 100000) } } : State).body := by
  unfold holdCue
  rw [body_deck h, body_now h]
  exact body_putDeck_of _ h

theorem stopsPlainly_playing {p : PlayingClip} {c : ClipPlayer} (state : c.state = .playing)
    (playing : c.playing = some p) (primed : c.priming = false) (start : c.start = none) (requests : c.requests = [])
    (queue : c.queue = []) : stopsPlainly c := by
  refine ⟨requests, start, queue, ?_, fun _ => ⟨?_, primed⟩⟩
  · rw [state]
    decide
  · rw [playing]
    exact Option.some_ne_none p

theorem counted_same (nibbles intervals : List Nat) (s : State) : SameExecutor s (s.counted nibbles intervals) :=
  ⟨rfl, rfl, rfl, rfl, rfl, rfl⟩

/-- A frame of an immediate kind for this unit, and no repeat, is routed with the decoder as it has counted it. -/
theorem tapeFrame_immediate {k : Nat} {fr : CueFrame} {s : State} (heard : hears k fr s)
    (fresh : ¬repeats (CueFrame.nibbles fr k) s) (here : addressed fr.u.toNat s = true) (immediate : k = 0 ∨ 6 < k) :
    ∃ w, tapeFrame (CueFrame.nibbles fr k) fr.intervals s = routeImmediate fr.u.toNat k
        (256 * fr.p2.toNat + 16 * fr.p1.toNat + fr.p0.toNat) s.cue.tapeTime false w
      ∧ w.body = (s.counted (CueFrame.nibbles fr k) fr.intervals).body ∧ w.port = s.port := by
  obtain ⟨w, routes, body, port⟩ := tapeFrame_counts heard fresh
  refine ⟨w, routes.trans (routeFrame_immediate ?_ immediate), body, port⟩
  rw [addressed_of_body body]
  exact here

/-- Settles O49, kind by kind. -/
theorem immediateCues : Obligations.ImmediateCues := by
  intro fr kind s i pl settled u p taken cued
  refine ⟨fun ⟨heard, fresh, here, room⟩ => ?_, fun heard fresh here full => ?_,
    fun unknown ⟨heard, fresh, here, room⟩ => ?_, fun ⟨heard, fresh, here, room⟩ => ?_,
    fun ⟨heard, fresh, here, room⟩ state playing primed start requests queue => ?_,
    fun ⟨heard, fresh, here, room⟩ cut misses => ?_⟩
  · obtain ⟨w, routes, body, port⟩ := tapeFrame_immediate heard fresh here (.inr (by decide))
    exact ends_logged settled rfl (routes.trans routeImmediate_mark) body (counted_same _ _ s) room (by rw [port])
  · obtain ⟨w, routes, body, port⟩ := tapeFrame_immediate heard fresh here (.inr (by decide))
    exact ends_overflowed settled rfl (routes.trans routeImmediate_mark) body (counted_same _ _ s) full (by rw [port])
  · have outside : kind.toNat = 0 ∨ 10 < kind.toNat := by
      unfold unknownKind at unknown
      rw [Bool.or_eq_true, decide_eq_true_iff, decide_eq_true_iff] at unknown
      exact unknown.imp (fun zero => by rw [zero]; rfl) (fun large => large)
    obtain ⟨w, routes, body, port⟩ := tapeFrame_immediate heard fresh here (outside.imp_right (by omega))
    exact ends_logged settled rfl (routes.trans (routeImmediate_unknown outside)) body (counted_same _ _ s) room
      (by rw [port])
  · obtain ⟨w, routes, body, port⟩ := tapeFrame_immediate heard fresh here (.inr (by decide))
    have held := body_holdCue (p := p) (body_handLog (r := .cue (plainFlags false) u 9 p s.cue.tapeTime) body room)
    refine (congrArg (Ends (.cueHold fr) s) (logged_comm (F := fun t => { t with deck := { s.deck with
      cue := true, holdUntil := if p = 0 then none else some (s.now + p * 100000) } })
      (s := s.counted (CueFrame.nibbles fr 9) fr.intervals) (fun _ => rfl) rfl rfl)).mpr ?_
    exact ends_staged settled rfl ((congrArg State.body (routes.trans routeImmediate_hold)).trans held)
      (executor_rest settled.2.1 ⟨rfl, rfl, rfl, rfl, rfl, rfl⟩) room (by simp)
  · obtain ⟨w, routes, body, port⟩ := tapeFrame_immediate heard fresh here (.inr (by decide))
    have stops := body_clipStopNow (body_handLog (r := .cue (plainFlags false) u 8 p s.cue.tapeTime) body room)
      (stopsPlainly_playing state playing primed start requests queue)
    refine (congrArg (Ends (.cueClipStop fr) s) (logged_comm (F := fun t => { t with
      clip := ClipPlayer.retarget s.now ({ s.clip with state := .fadingOut, fadeCount := fadeLength pl.desc.rate }) })
      (s := s.counted (CueFrame.nibbles fr 8) fr.intervals) (fun _ => rfl) rfl rfl)).mpr ?_
    refine ends_staged settled rfl ((congrArg State.body (routes.trans routeImmediate_clipStop)).trans (stops.trans ?_))
      (executor_rest settled.2.1 ⟨rfl, rfl, rfl, rfl, rfl, rfl⟩) room (by simp)
    exact congrArg (fun c => (State.staged (.cue (plainFlags false) u 8 p s.cue.tapeTime)
      { s.counted (CueFrame.nibbles fr 8) fr.intervals with clip := c }).body) (faded_playing state playing)
  · obtain ⟨w, routes, body, port⟩ := tapeFrame_immediate heard fresh here (.inr (by decide))
    have starts := body_startRequest_misses (n := p % 64) (i := i) (source := .tape s.cue.tapeTime)
      (body_handLog (r := .cue (plainFlags false) u 7 p s.cue.tapeTime) body room) misses
    refine (congrArg (Ends (.cueClip fr) s) (logged_comm (F := fun t => t.fetchingClip (p % 64) i (.tape s.cue.tapeTime))
      (s := s.counted (CueFrame.nibbles fr 7) fr.intervals) (fun _ => rfl) rfl rfl)).mpr ?_
    exact ends_staged settled rfl ((congrArg State.body (routes.trans (routeImmediate_clip cut))).trans starts)
      (executor_rest settled.2.1 ⟨rfl, rfl, rfl, rfl, rfl, rfl⟩) room (by simp)

end Sys2Proof.Machine
end
section
/-! The executor takes an action up (R2 to R8, R15 to R19). -/

namespace Sys2Proof.Machine

/-! ## The ramp generator (R76 to R79) -/

theorem body_takeRamp {level tenths : Nat} {byAction offMark : Bool} {s t : State} (h : t.body = s.body) :
    (takeRamp level tenths byAction offMark t).body = (s.ramping level tenths byAction offMark).body := by
  unfold takeRamp
  rw [body_lamp h]
  exact body_putLamp_of _ h

theorem renewOffRamp_normal {s t : State} (h : t.body = s.body) (power : s.thermal.power ≠ .standbyPending) :
    renewOffRamp t = t := by
  unfold renewOffRamp
  rw [body_thermal h]
  exact if_neg fun k => power k.1

/-- A ramp request in NORMAL or STANDBY, where no off mark is renewed (R77). -/
theorem body_requestRamp {level tenths : Nat} {byAction offMark : Bool} {s t : State} (h : t.body = s.body)
    (power : s.thermal.power ≠ .standbyPending) :
    (requestRamp level tenths byAction offMark t).body = (s.ramping level tenths byAction offMark).body := by
  have taken := body_takeRamp (level := level) (tenths := tenths) (byAction := byAction) (offMark := offMark) h
  have same := renewOffRamp_normal taken power
  unfold requestRamp
  dsimp only
  rw [same, ite_self]
  exact taken

/-- A freeze in NORMAL or STANDBY (R79). -/
theorem body_freezeRamp {s t : State} (h : t.body = s.body) (power : s.thermal.power ≠ .standbyPending) :
    (freezeRamp t).body = ({ s with lamp := { s.lamp with ramp := none } } : State).body := by
  unfold freezeRamp
  rw [body_lamp h]
  cases ramp : s.lamp.ramp with
  | none => exact h.trans (congrArg (fun r => ({ s with lamp := { s.lamp with ramp := r } } : State).body) ramp)
  | some r =>
    have frozen := body_putLamp_of { s.lamp with ramp := none } h
    dsimp only
    rw [renewOffRamp_normal frozen power, ite_self]
    exact frozen

/-! ## The Cue Queue (R3, R145) -/

/-- Auto-hold follows the depth of the Cue Queue (R145). -/
def Deck.following (on : Bool) (depth : Nat) (d : Deck) : Deck :=
  { d with auto := if on then (if 6 ≤ depth then true else if depth ≤ 2 then false else d.auto) else d.auto }

theorem body_autoHold {s t : State} (h : t.body = s.body) : (autoHold t).body =
    ({ s with deck := s.deck.following s.hdr.settings.autoHold s.cx.queue.length } : State).body := by
  unfold autoHold Deck.following
  rw [body_hdr h, body_cx h, body_deck h]
  split_ifs
  · exact body_putDeck_of _ h
  · exact body_putDeck_of _ h
  · exact h
  · exact h

theorem body_putCx_resized {c : CueExecutor} {s t : State} (h : t.body = s.body)
    (queue : c.queue.length ≠ s.cx.queue.length) : (putCx c t).body = ({ s with
      cx := c, deck := s.deck.following s.hdr.settings.autoHold c.queue.length } : State).body := by
  have put : (markDirty 22 (markStatusIf (decide (c.busy ≠ t.cx.busy)) { t with cx := c })).body
      = ({ s with cx := c } : State).body := by
    refine (body_markDirty _ _).trans ((body_markStatusIf _ _).trans ?_)
    rw [eq_traffic h]
    rfl
  unfold putCx
  refine (congrArg State.body (if_neg ?_)).trans ((body_autoHold put).trans rfl)
  rw [body_cx h]
  exact queue

/-! ## Take-up (R2, R7) -/

/-- An executor at rest with no action has no source waiting (R2). -/
theorem noSource_of_idle {s : State} (rest : executorStep s = none) (idle : s.cx.action = none) : noSource s := by
  have none_ := completion_of_rest rest
  unfold executorStep at rest
  rw [none_, idle] at rest
  have quiet : sourceWaiting s = false := by
    cases waiting : sourceWaiting s with
    | false => rfl
    | true => simp [waiting] at rest
  unfold sourceWaiting at quiet
  rw [Bool.or_eq_false_iff, Bool.or_eq_false_iff, Bool.or_eq_false_iff] at quiet
  obtain ⟨⟨⟨pending, net⟩, oneShot⟩, queue⟩ := quiet
  exact ⟨pending, by simpa using queue, by simpa using net, by simpa using oneShot⟩

theorem executorStep_arbitrates {s : State} (completion : s.tray.completion = none) (idle : s.cx.action = none)
    (waiting : sourceWaiting s = true) : executorStep s = some (arbitrate s) := by
  unfold executorStep
  rw [completion, idle]
  exact if_pos waiting

section
variable {s : State}

theorem arbitrate_net (pending : s.cx.pendingCmd = false) (net : s.remote.netCount ≠ 0) : arbitrate s =
    takeUp (netRequest s.remote.netCount) .remote (putRemote { s.remote with netCount := 0 } s) := by
  unfold arbitrate
  rw [if_neg (ne_true_of_eq_false pending), if_pos net]

theorem arbitrate_oneShot {k : OneShot} (pending : s.cx.pendingCmd = false) (net : s.remote.netCount = 0)
    (oneShot : s.remote.oneShot = some k) : arbitrate s =
    takeUp (oneShotRequest k s) .remote (putRemote { s.remote with oneShot := none } s) := by
  unfold arbitrate
  rw [if_neg (ne_true_of_eq_false pending), if_neg (not_not.2 net), oneShot]

theorem arbitrate_queue {e : QueueEntry} {rest : List QueueEntry} (pending : s.cx.pendingCmd = false)
    (net : s.remote.netCount = 0) (oneShot : s.remote.oneShot = none) (queue : s.cx.queue = e :: rest) : arbitrate s =
    takeUp (entryRequest e s.tray.n) (if e.injected then .injected else .tape e.tapeTime)
      (putCx { s.cx with queue := rest } s) := by
  unfold arbitrate
  rw [if_neg (ne_true_of_eq_false pending), if_neg (not_not.2 net), oneShot, queue]

end

/-- An action that the checks of R7 let through. -/
theorem takeUp_begins {req : ActionRequest} {source : Source} {t : State} (passes : takeUpFailure req t = none) :
    takeUp req source t = beginAction req source t := by
  unfold takeUp
  rw [passes]

theorem takeUp_fails {req : ActionRequest} {source : Source} {code : ResultCode} {t : State}
    (fails : takeUpFailure req t = some code) :
    takeUp req source t = postResult req source false code 0 (plainLastSlot t) t := by
  unfold takeUp
  rw [fails]

theorem takeUpFailure_fade {level rate : Nat} {t : State} (power : t.thermal.power = .normal) :
    takeUpFailure (.fade level rate) t = none := by
  simp [takeUpFailure, power, ActionRequest.isChange]

theorem takeUpFailure_lamp {on : Bool} {t : State} (power : t.thermal.power = .normal) :
    takeUpFailure (.lamp on) t = none := by
  simp [takeUpFailure, power, ActionRequest.isChange]

theorem takeUpFailure_advance {n : Nat} {t : State} (power : t.thermal.power = .normal)
    (state : t.tray.state ≠ .trayOut) (free : t.tray.state ≠ .jammed) : takeUpFailure (.advance n) t = none := by
  simp [takeUpFailure, power, ActionRequest.isChange, state, free]

theorem takeUpFailure_noTray {n : Nat} {t : State} (power : t.thermal.power = .normal)
    (state : t.tray.state = .trayOut) : takeUpFailure (.advance n) t = some .trayOut := by
  simp [takeUpFailure, power, ActionRequest.isChange, state]

/-! ## The warming of an OFF lamp (R87, R88) -/

/-- A lamp that is WARMING is reported: run-on ends, and the duty is decided again (R108, R110). -/
theorem body_lampReport_warming {old : LampState} {s t : State} (h : t.body = s.body) (warming : s.lamp.state = .warming)
    (was : old.lit = false) : (lampReport old t).body
      = (State.dutied { s with thermal := { s.thermal with runOn := none } }).body := by
  have lit : s.lamp.state.lit = true := by rw [warming]; rfl
  have stays (u : State) (lamp : u.lamp = s.lamp) : staysUp u := fun down => by
    rw [lamp, lit] at down
    exact absurd down.2.1 (by decide)
  unfold lampReport
  rw [was]
  simp only [Bool.false_and, Bool.false_eq_true, if_false]
  rw [body_lamp h, body_thermal h]
  cases runOn : s.thermal.runOn with
  | some start =>
    rw [if_pos ⟨warming, rfl⟩]
    have ended := body_endRunOn_stays h (fun down => absurd (lit.symm.trans down.2) (by decide))
    refine (body_evalStandby_stays (body_decideDuty ended) (stays _ rfl)).trans ?_
    rw [dutied_dutied]
  | none =>
    rw [if_neg (by simp)]
    refine (body_evalStandby_stays (body_decideDuty h) (stays _ rfl)).trans ?_
    exact congrArg (fun r => (State.dutied { s with thermal := { s.thermal with runOn := r } }).body) runOn

theorem body_setLampState_warming {s t : State} (h : t.body = s.body) (off : s.lamp.state = .off) :
    (setLampState .warming t).body = (State.dutied { s with
      lamp := { s.lamp with state := .warming }, thermal := { s.thermal with runOn := none } }).body := by
  have put : (putLamp { s.lamp with
      state := .warming, judging := s.lamp.judging && LampState.warming.lit
      firing := if LampState.warming.lit then s.lamp.firing else none } t).body
      = ({ s with lamp := { s.lamp with state := .warming } } : State).body := by
    rw [show LampState.warming.lit = true from rfl, Bool.and_true, if_pos rfl]
    exact body_putLamp_of _ h
  unfold setLampState
  rw [body_lamp h, if_neg (by simp [off])]
  exact body_lampReport_warming put rfl (by rw [off]; rfl)

/-- The lamp counts its warming from the beginning (R88). -/
def Lamp.counted (l : Lamp) : Lamp := { l with warmCount := 0, failures := 0, warmTarget := 20 * hptOf l.h }

theorem body_enterWarming {s t : State} (h : t.body = s.body) (off : s.lamp.state = .off)
    (fan : s.thermal.fanFault = false) (sensors : s.thermal.sensorFault = false) :
    (enterWarming t).body = s.warmingBegun.body := by
  have counted : (putLamp t.lamp.counted t).body = ({ s with lamp := s.lamp.counted } : State).body := by
    rw [body_lamp h]
    exact body_putLamp_of _ h
  have warming : (setLampState .warming (putLamp t.lamp.counted t)).body = s.warmingBegun.body :=
    (body_setLampState_warming counted off).trans rfl
  have cool : coolingFaultStands (setLampState .warming (putLamp t.lamp.counted t)) = false := by
    unfold coolingFaultStands
    rw [body_thermal warming]
    exact Bool.or_eq_false_iff.2 ⟨fan, sensors⟩
  exact (congrArg State.body (if_neg (ne_true_of_eq_false cool))).trans warming

/-! ## First phases (R8, R16, R17, R19) -/

section
variable {source : Source} {s t : State} (h : t.body = s.body)
include h

/-- A FADE ramps to its level, and a level above F is the show level (R16). -/
theorem body_beginFade (power : s.thermal.power = .normal) {level rate : Nat} :
    (beginFade level rate source t).body = ((({ s with
      cx := { s.cx with showLevel := if s.lamp.f < level then level else s.cx.showLevel } } : State).doing
        (freshAction (.fade level rate) source false .fading)).ramping level rate true false).body := by
  have shown : (if t.lamp.f < level then putCx { t.cx with showLevel := level } t else t).body = ({ s with
      cx := { s.cx with showLevel := if s.lamp.f < level then level else s.cx.showLevel } } : State).body := by
    rw [body_lamp h, body_cx h]
    split
    · exact body_putCx_of h rfl
    · exact h
  have standing : (setAction (freshAction (.fade level rate) source false .fading)
      (if t.lamp.f < level then putCx { t.cx with showLevel := level } t else t)).body = _ := body_setAction shown
  exact body_requestRamp standing (by simp [State.doing, power])

/-- A LAMP off ramps an ON lamp to F with the off mark (R19). -/
theorem body_beginLampOff (power : s.thermal.power = .normal) (on : s.lamp.state = .on) :
    (beginLampOff source t).body = ((s.doing (freshAction (.lamp false) source false .fading)).ramping s.lamp.f
      s.hdr.settings.blankRate true true).body := by
  have standing := body_setAction (x := freshAction (.lamp false) source false .fading) h
  unfold beginLampOff
  rw [body_lamp h, on]
  dsimp only
  rw [body_hdr h]
  exact body_requestRamp standing (by simp [State.doing, power])

/-- A LAMP on starts the warming of an OFF lamp (R17, R88). -/
theorem body_beginLampOn (off : s.lamp.state = .off) (fan : s.thermal.fanFault = false)
    (sensors : s.thermal.sensorFault = false) :
    (beginLampOn source t).body = ((s.doing (freshAction (.lamp true) source false .warming)).warmingBegun).body := by
  have standing := body_setAction (x := freshAction (.lamp true) source false .warming) h
  unfold beginLampOn
  rw [body_lamp h, off]
  dsimp only
  unfold warmRequest
  rw [body_lamp standing]
  refine (congrArg State.body ?_).trans (body_enterWarming standing off fan sensors)
  simp only [State.doing, off]

end

/-! ## Take-up at the end of a command (R2) -/

/-- A command with which the executor does one thing, and waits then. -/
theorem ends_step {c : Instr} {f : State → State} {s t w : State} (settled : Settled s)
    (hc : exec c s = .next (live f s)) (step : executorStep (f s) = some t) (body : t.body = w.body)
    (rest : executorStep w = none) (quiet : logQuiet w) (access : t.port.access = s.port.access) : Ends c s w := by
  have course : courses (f s) = t := by
    rw [courses_step step ((executorStep_none_of_body body).2 rest), logPump_of_quiet 5 ((logQuiet_of_body body).2 quiet)]
  refine ends_courses hc settled.1 (by rw [course]; exact body) rest quiet ?_
  rw [course, hostWaits_congr access]
  exact settled.2.2.2

/-- Such a command with which a record has been staged. -/
theorem ends_step_staged {c : Instr} {f : State → State} {s t w : State} {r : LogRecord} (settled : Settled s)
    (hc : exec c s = .next (live f s)) (step : executorStep (f s) = some t) (body : t.body = (w.staged r).body)
    (rest : executorStep w = none) (room : logRoom w) (access : t.port.access = s.port.access) :
    Ends c s (w.logged r) := by
  have waits : executorStep t = none := (executorStep_none_of_body body).2 (executor_rest rest ⟨rfl, rfl, rfl, rfl, rfl, rfl⟩)
  have kept : executorStep (w.logged r) = none := by
    rw [logged_given]
    exact executor_rest rest ⟨rfl, rfl, rfl, rfl, rfl, rfl⟩
  refine ends_courses hc settled.1 (by rw [courses_step step waits]; exact body_logPump_staged body room) kept
    logQuiet_logged ?_
  rw [courses_step step waits, port_logPump, hostWaits_congr access]
  exact settled.2.2.2

/-- The executor has only the head of the Cue Queue to take up. -/
structure OnlyCue (e : QueueEntry) (s : State) : Prop where
  completion : s.tray.completion = none
  idle : s.cx.action = none
  pending : s.cx.pendingCmd = false
  net : s.remote.netCount = 0
  oneShot : s.remote.oneShot = none
  queue : s.cx.queue = [e]

/-- The Cue Queue has given its only entry. -/
def State.dequeued (s : State) : State :=
  { s with cx := { s.cx with queue := [] }, deck := s.deck.following s.hdr.settings.autoHold 0 }

theorem takesUp_cue {e : QueueEntry} {s t : State} (h : t.body = s.body) (only : OnlyCue e s) :
    ∃ u, executorStep t = some (takeUp (entryRequest e s.tray.n) (if e.injected then .injected else .tape e.tapeTime) u)
      ∧ u.body = s.dequeued.body ∧ u.port = t.port := by
  obtain ⟨completion, idle, pending, net, oneShot, queue⟩ := only
  have queue' : t.cx.queue = [e] := by rw [body_cx h]; exact queue
  refine ⟨putCx { t.cx with queue := [] } t, ?_, ?_, by simp⟩
  · rw [executorStep_arbitrates (by rw [body_tray h]; exact completion) (by rw [body_cx h]; exact idle)
      (by simp [sourceWaiting, queue']),
      arbitrate_queue (by rw [body_cx h]; exact pending) (by rw [body_remote h]; exact net)
        (by rw [body_remote h]; exact oneShot) queue', body_tray h]
  · rw [body_cx h]
    exact body_putCx_resized (s := s) h (by simp [queue])

/-- The state in which a FADE has been begun (R16). -/
def State.fadeBegun (level rate : Nat) (source : Source) (s : State) : State :=
  (State.doing (freshAction (.fade level rate) source false .fading) { s with
    cx := { s.cx with showLevel := if s.lamp.f < level then level else s.cx.showLevel } }).ramping level rate true false

theorem takesUp_fade {e : QueueEntry} {s t : State} (h : t.body = s.body) (only : OnlyCue e s) (kind : e.kind = .fade)
    (power : s.thermal.power = .normal) :
    let level := if e.param / 256 = 15 then 1023 else 68 * (e.param / 256)
    ∃ u, executorStep t = some u ∧ u.port = t.port ∧ u.body = (s.dequeued.fadeBegun level (e.param % 256)
      (if e.injected then .injected else .tape e.tapeTime)).body := by
  intro level
  obtain ⟨u, step, body, port⟩ := takesUp_cue h only
  have request : entryRequest e s.tray.n = .fade level (e.param % 256) := by
    unfold entryRequest
    rw [kind]
  have power' : u.thermal.power = .normal := by rw [body_thermal body]; exact power
  rw [request, takeUp_begins (takeUpFailure_fade power')] at step
  exact ⟨_, step, by simp [port, beginAction], body_beginFade body power⟩

/-! ## Frames of the sequenced kinds (R134, R135) -/

theorem exec_seqCue (kind : SeqKind) (fr : CueFrame) (s : State) : exec (seqCue kind fr) s
    = .next (live (tapeFrame (CueFrame.nibbles fr (SeqKind.code kind)) fr.intervals) s) := by
  cases kind <;> rfl

/-- The queue entry of a cue. -/
def entryOf (kind : SeqKind) (p time : Nat) (injected : Bool) : QueueEntry :=
  { kind := kind, param := p, injected := injected, tapeTime := time }

section
variable {kind : SeqKind} {u k p time : Nat} {injected : Bool} {s t : State}

theorem routeSequenced_beyond (h : t.body = s.body) (beyond : kind = .goto ∧ s.tray.n ≤ p) :
    routeSequenced kind u k p time injected t
      = handLog (.cue { plainFlags injected with badParam := true } u k p time) t :=
  if_pos (by rw [body_tray h]; exact beyond)

/-- A cue within the tray joins a queue of fewer than 8, which auto-hold follows. -/
theorem body_routeSequenced_joins (h : t.body = s.body) (inside : ¬(kind = .goto ∧ s.tray.n ≤ p))
    (short : s.cx.queue.length < 8) (room : logRoom s) :
    (routeSequenced kind u k p time injected t).body = (State.staged (.cue (plainFlags injected) u k p time) { s with
      cx := { s.cx with queue := s.cx.queue ++ [entryOf kind p time injected] }
      deck := s.deck.following s.hdr.settings.autoHold (s.cx.queue.length + 1) }).body := by
  have staged := body_handLog (r := .cue (plainFlags injected) u k p time) h room
  have joins : routeSequenced kind u k p time injected t
      = putCx { t.cx with queue := t.cx.queue ++ [entryOf kind p time injected] }
          (handLog (.cue (plainFlags injected) u k p time) t) :=
    (if_neg (by rw [body_tray h]; exact inside)).trans (if_pos (by rw [body_cx h]; exact short))
  rw [joins, body_cx h]
  refine (body_putCx_resized staged ?_).trans ?_
  · simp [State.staged]
  · rw [List.length_append]
    rfl

/-- A cue has joined an empty queue. -/
def State.joinedBy (e : QueueEntry) (s : State) : State :=
  { s with cx := { s.cx with queue := [e] }, deck := s.deck.following s.hdr.settings.autoHold 1 }

theorem body_routeSequenced_alone (h : t.body = s.body) (inside : ¬(kind = .goto ∧ s.tray.n ≤ p))
    (empty : s.cx.queue = []) (room : logRoom s) : (routeSequenced kind u k p time injected t).body
      = (State.staged (.cue (plainFlags injected) u k p time) (s.joinedBy (entryOf kind p time injected))).body := by
  rw [body_routeSequenced_joins h inside (by rw [empty]; decide) room, empty]
  rfl

theorem staged_noRing {r : LogRecord} {s : State} (ring : s.hdr.settings.ringBase = 0) : s.staged r = s := by
  rw [State.staged, LogWriter.staged, if_pos ring]

/-- Once it has been taken up, auto-hold has been turned off, when it follows the depth. -/
theorem dequeued_joinedBy {e : QueueEntry} {s : State} (empty : s.cx.queue = []) : (s.joinedBy e).dequeued = { s with
    deck := { s.deck with auto := if s.hdr.settings.autoHold then false else s.deck.auto } } := by
  have deck : (s.deck.following s.hdr.settings.autoHold 1).following s.hdr.settings.autoHold 0
      = { s.deck with auto := if s.hdr.settings.autoHold then false else s.deck.auto } := by
    cases s.hdr.settings.autoHold <;> rfl
  have cx : { s.cx with queue := [] } = s.cx := by rw [← empty]
  change { s with cx := { s.cx with queue := [] }
                  deck := (s.deck.following s.hdr.settings.autoHold 1).following s.hdr.settings.autoHold 0 } = _
  rw [deck, cx]

theorem routeSequenced_full (h : t.body = s.body) (inside : ¬(kind = .goto ∧ s.tray.n ≤ p))
    (full : 8 ≤ s.cx.queue.length) : routeSequenced kind u k p time injected t
      = latch .cueFault (handLog (.cue { plainFlags injected with dropped := true } u k p time) t) :=
  (if_neg (by rw [body_tray h]; exact inside)).trans (if_neg (by rw [body_cx h]; exact Nat.not_lt.2 full))

end

theorem tapeFrame_sequenced {kind : SeqKind} {fr : CueFrame} {s : State} (heard : hears (SeqKind.code kind) fr s)
    (fresh : ¬repeats (CueFrame.nibbles fr (SeqKind.code kind)) s) (here : addressed fr.u.toNat s = true) :
    ∃ w, tapeFrame (CueFrame.nibbles fr (SeqKind.code kind)) fr.intervals s
        = routeSequenced kind fr.u.toNat (SeqKind.code kind)
          (256 * fr.p2.toNat + 16 * fr.p1.toNat + fr.p0.toNat) s.cue.tapeTime false w
      ∧ w.body = (s.counted (CueFrame.nibbles fr (SeqKind.code kind)) fr.intervals).body ∧ w.port = s.port := by
  obtain ⟨w, routes, body, port⟩ := tapeFrame_counts heard fresh
  refine ⟨w, routes.trans (routeFrame_sequenced ?_), body, port⟩
  rw [addressed_of_body body]
  exact here

theorem tapeFrame_fails {k : Nat} {fr : CueFrame} {s : State} (carrier : s.cue.carrier = .present)
    (decoding : s.hdr.settings.decoding = true) (between : s.cue.frame = .between) (wrong : frameChecks k fr = false) :
    let t := atFrameEnd fr.intervals s
    tapeFrame (CueFrame.nibbles fr k) fr.intervals s = if t.hdr.settings.errorLog
      then handLog (.frameError .check 7 t.cue.tapeTime) (markFailed t) else markFailed t := by
  rw [tapeFrame_heard carrier decoding between, completeFrame_wrong wrong, failFrame_eq]

/-- Settles O48, by what becomes of the frame. -/
theorem sequencedCues : Obligations.SequencedCues := by
  intro kind fr s x settled k nibbles u p beyond entry depth taken flags
  refine ⟨fun busy ⟨heard, fresh, here⟩ inside short room => ?_, fun busy ⟨heard, fresh, here⟩ inside full room => ?_,
    fun ⟨heard, fresh, here⟩ out room => ?_, fun heard fresh other => ⟨fun off => ?_, fun on room => ?_⟩,
    fun heard again => ?_, fun carrier decoding between wrong => ⟨fun off => ?_, fun on room => ?_⟩,
    fun absent => ?_, fun carrier deaf => ?_, fun idle fade ⟨heard, fresh, here⟩ room power => ?_,
    fun idle advance ⟨heard, fresh, here⟩ power out ring => ?_⟩
  · obtain ⟨w, routes, body, port⟩ := tapeFrame_sequenced heard fresh here
    obtain ⟨action, phase, completion⟩ := busy
    refine (congrArg (Ends (seqCue kind fr) s) (logged_comm (F := fun t => { t with
      cx := { s.cx with queue := s.cx.queue ++ [entry] }
      deck := s.deck.following s.hdr.settings.autoHold depth }) (s := s.counted nibbles fr.intervals)
      (fun _ => rfl) rfl rfl)).mpr ?_
    exact ends_staged settled (exec_seqCue kind fr s)
      ((congrArg State.body routes).trans (body_routeSequenced_joins body inside short room))
      (executorStep_busy completion action phase) room (by simp)
  · obtain ⟨w, routes, body, port⟩ := tapeFrame_sequenced heard fresh here
    refine (congrArg (Ends (seqCue kind fr) s) (logged_comm (F := State.latched .cueFault)
      (s := s.counted nibbles fr.intervals) (fun _ => rfl) rfl rfl)).mpr ?_
    exact ends_staged settled (exec_seqCue kind fr s) ((congrArg State.body (routes.trans
      (routeSequenced_full body inside full))).trans (body_latched (body_handLog body room)))
      (executor_rest settled.2.1 ⟨rfl, rfl, rfl, rfl, rfl, rfl⟩) room (by simp)
  · obtain ⟨w, routes, body, port⟩ := tapeFrame_sequenced heard fresh here
    exact ends_logged settled (exec_seqCue kind fr s) (routes.trans (routeSequenced_beyond body out)) body
      (counted_same _ _ s) room (by rw [port])
  · obtain ⟨w, routes, body, port⟩ := tapeFrame_counts heard fresh
    have passed := routes.trans ((routeFrame_foreign (by rw [addressed_of_body body]; exact other)).trans
      (if_neg (by rw [body_hdr body]; exact ne_true_of_eq_false off)))
    exact ends_quietly settled (exec_seqCue kind fr s) ((congrArg State.body passed).trans body) (counted_same _ _ s)
      rfl rfl (by simp)
  · obtain ⟨w, routes, body, port⟩ := tapeFrame_counts heard fresh
    have passed := routes.trans ((routeFrame_foreign (by rw [addressed_of_body body]; exact other)).trans
      (if_pos (by rw [body_hdr body]; exact on)))
    exact ends_logged settled (exec_seqCue kind fr s) passed body (counted_same _ _ s) room (by rw [port])
  · exact ends_quietly settled (exec_seqCue kind fr s) (body_tapeFrame_repeat heard again) ⟨rfl, rfl, rfl, rfl, rfl, rfl⟩
      rfl rfl (by simp)
  · have effect := (tapeFrame_fails carrier decoding between wrong).trans
      (if_neg (by rw [body_hdr body_atFrameEnd]; exact ne_true_of_eq_false off))
    exact ends_quietly settled (exec_seqCue kind fr s)
      ((congrArg State.body effect).trans ((body_markFailed body_atFrameEnd).trans rfl)) ⟨rfl, rfl, rfl, rfl, rfl, rfl⟩
      rfl rfl (by simp)
  · have effect := (tapeFrame_fails carrier decoding between wrong).trans
      (if_pos (by rw [body_hdr body_atFrameEnd]; exact on))
    have time : (atFrameEnd fr.intervals s).cue.tapeTime = s.cue.tapeTime := by
      rw [body_cue body_atFrameEnd]
      rfl
    rw [time] at effect
    exact ends_logged settled (exec_seqCue kind fr s) effect ((body_markFailed body_atFrameEnd).trans rfl)
      ⟨rfl, rfl, rfl, rfl, rfl, rfl⟩ room (by simp [markFailed, atFrameEnd, framePassed])
  · exact ends_nothing settled (exec_seqCue kind fr s) (tapeFrame_absent absent)
  · refine ends_quietly settled (exec_seqCue kind fr s) ?_ ⟨rfl, rfl, rfl, rfl, rfl, rfl⟩ rfl rfl (by simp)
    rw [tapeFrame_deaf carrier deaf]
    exact body_putCue_of _ rfl
  · obtain ⟨w, routes, body, port⟩ := tapeFrame_sequenced heard fresh here
    obtain ⟨pending, queue, net, oneShot⟩ := noSource_of_idle settled.2.1 idle
    have completion := completion_of_rest settled.2.1
    intro level rate v
    have inside : ¬(kind = .goto ∧ s.tray.n ≤ p) := fun out => by
      rw [fade] at out
      exact absurd out.1 (by decide)
    have joined := (congrArg State.body routes).trans (body_routeSequenced_alone body inside queue room)
    obtain ⟨t, step, port', begun⟩ := takesUp_fade joined ⟨completion, idle, pending, net, oneShot, rfl⟩ fade power
    have alone := dequeued_joinedBy (e := entryOf kind p s.cue.tapeTime false) (s := s.counted nibbles fr.intervals) queue
    let F (t : State) : State := (State.doing (freshAction (.fade level rate) (.tape s.cue.tapeTime) false .fading) { t with
      cx := { s.cx with showLevel := if s.lamp.f < level then level else s.cx.showLevel }
      deck := { s.deck with auto := if s.hdr.settings.autoHold then false else s.deck.auto } }).ramping level rate true false
    have shape : F v = State.logged (.cue flags u k p s.cue.tapeTime) (F (s.counted nibbles fr.intervals)) :=
      logged_comm (fun _ => rfl) rfl rfl
    refine (congrArg (Ends (seqCue kind fr) s) shape).mpr
      (ends_step_staged settled (exec_seqCue kind fr s) step (begun.trans ?_)
        (executorStep_busy completion rfl (by simp [freshAction])) room (by rw [port']; simp))
    exact congrArg (fun t => (State.staged (.cue flags u k p s.cue.tapeTime)
      (State.fadeBegun level rate (.tape s.cue.tapeTime) t)).body) alone
  · obtain ⟨w, routes, body, port⟩ := tapeFrame_sequenced heard fresh here
    obtain ⟨pending, queue, net, oneShot⟩ := noSource_of_idle settled.2.1 idle
    have completion := completion_of_rest settled.2.1
    have inside : ¬(kind = .goto ∧ s.tray.n ≤ p) := fun out => by
      rw [advance] at out
      exact absurd out.1 (by decide)
    have joined := (congrArg State.body routes).trans (body_routeSequenced_alone body inside queue (.inl ring))
    rw [staged_noRing (s := State.joinedBy _ (s.counted nibbles fr.intervals)) ring] at joined
    obtain ⟨t, step, taken, port'⟩ := takesUp_cue joined ⟨completion, idle, pending, net, oneShot, rfl⟩
    have alone := dequeued_joinedBy (e := entryOf kind p s.cue.tapeTime false) (s := s.counted nibbles fr.intervals) queue
    rw [alone] at taken
    have fails : takeUpFailure (entryRequest (entryOf kind p s.cue.tapeTime false) s.tray.n) t = some .trayOut := by
      have request : entryRequest (entryOf kind p s.cue.tapeTime false) s.tray.n = .advance (clampCount p s.tray.n) := by
        unfold entryRequest entryOf
        rw [advance]
      rw [request]
      exact takeUpFailure_noTray (by rw [body_thermal taken]; exact power) (by rw [body_tray taken]; exact out)
    have posts (req : ActionRequest) (code : ResultCode) (n m : Nat) (bad : code ≠ .ok) :
        postResult req (.tape s.cue.tapeTime) false code n m t = t := by
      refine (if_neg bad).trans (if_pos ?_)
      rw [body_hdr taken]
      exact ring
    have step' : executorStep (tapeFrame nibbles fr.intervals s) = some t :=
      step.trans (congrArg some ((takeUp_fails fails).trans (posts _ _ _ _ (by decide))))
    exact ends_step settled (exec_seqCue kind fr s) step' taken
      (executor_rest settled.2.1 ⟨rfl, rfl, rfl, rfl, rfl, rfl⟩) settled.2.2.1 (by rw [port']; simp)

end Sys2Proof.Machine
end
section
/-! Keys other than the focus keys (R175 to R179). -/

namespace Sys2Proof.Machine

/-! ## Presses in NORMAL (R176) -/

theorem prog_of_body {s t : State} (h : t.body = s.body) : t.prog = s.prog := by
  rw [State.prog, State.prog, body_hdr h, body_cue h]

/-- A key that the lockout does not refuse. -/
theorem unlocked_of_allowed {key : Nat} {t : State} (allowed : t.prog = false ∨ t.hdr.settings.override = true) :
    lockedOut t = true → subjectToLockout key = false := by
  intro locked
  rw [lockedOut, Bool.and_eq_true, Bool.not_eq_true'] at locked
  obtain ⟨prog, override⟩ := locked
  rcases allowed with off | on
  · exact absurd (prog.symm.trans off) (by decide)
  · exact absurd (on.symm.trans override) (by decide)

theorem locked_of_refused {t : State} (refused : ¬(t.prog = false ∨ t.hdr.settings.override = true)) :
    lockedOut t = true := by
  rw [not_or, Bool.not_eq_false, Bool.not_eq_true] at refused
  rw [lockedOut, refused.1, refused.2]
  rfl

section
variable {key : Nat} {fr : RemoteFrame} {s : State}

/-- Where the receiver alone has changed, a press in NORMAL that the lockout does not refuse has its effect. -/
theorem takePress_effect {src : PressSource} {r : Remote} {t : State} (h : t.body = ({ s with remote := r } : State).body)
    (power : s.thermal.power = .normal) (allowed : s.prog = false ∨ s.hdr.settings.override = true) :
    takePress key src t = pressEffect key src t := by
  refine takePress_normal (by rw [body_thermal h]; exact power) (unlocked_of_allowed ?_)
  rw [prog_of_body h, body_hdr h]
  exact allowed

/-- A new press in NORMAL that the lockout does not refuse has its effect. -/
theorem pressed_normal (power : s.thermal.power = .normal) (ok : accepts key fr s) (new : ¬heldKey key fr s)
    (allowed : s.prog = false ∨ s.hdr.settings.override = true) :
    remoteFrameIn key fr s = pressEffect key .remote (heard key fr s) :=
  (remoteFrameIn_press ok new).trans (takePress_effect (body_heard rfl) power allowed)

/-- A press of a panel key in NORMAL that the lockout does not refuse has its effect. -/
theorem panel_normal {k : PanelKey} {d : Nat} (power : s.thermal.power = .normal) (time : 20000 ≤ d)
    (up : (s.remote.key k).down = false) (fresh : (s.remote.key k).heldAtPin = false)
    (allowed : s.prog = false ∨ s.hdr.settings.override = true) :
    panelDown k d s = pressEffect (PanelKey.code k) .panel (putRemote (s.remote.setKey k .pressed) s) :=
  (panelDown_press time up fresh).trans (takePress_effect (body_putRemote_of _ rfl) power allowed)

end

/-! ## The net count and the one-shot key (R177, R178) -/

/-- Any command that a busy executor leaves waiting: only the receiver has changed. -/
theorem ends_remote {c : Instr} {f : State → State} {s : State} {r : Remote} {x : Action} (settled : Settled s)
    (busy : busyAction s x) (hc : exec c s = .next (live f s)) (body : (f s).body = ({ s with remote := r } : State).body)
    (access : (f s).port.access = s.port.access) : Ends c s { s with remote := r } := by
  obtain ⟨action, phase, completion⟩ := busy
  exact ends_live settled hc body (executorStep_busy completion action phase) settled.2.2.1 access

theorem body_addNet {d : Int} {s t : State} (h : t.body = s.body) : (addNet d t).body
    = ({ s with remote := { s.remote with netCount := max (-9) (min 9 (s.remote.netCount + d)) } } : State).body := by
  unfold addNet
  rw [body_remote h]
  exact body_putRemote_of _ h

theorem body_pressOneShot {k : OneShot} {s t : State} (h : t.body = s.body) : (pressOneShot k t).body
    = ({ s with remote := { s.remote with oneShot := some k } } : State).body := by
  unfold pressOneShot
  rw [body_remote h]
  exact body_putRemote_of _ h

theorem netUp_eq {n : Int} (low : -9 ≤ n) : max (-9) (min 9 (n + 1)) = min 9 (n + 1) := by omega

theorem netDown_eq {n : Int} (high : n ≤ 9) : max (-9) (min 9 (n + -1)) = max (-9) (n - 1) := by omega

/-! ## An IDLE executor takes a press up (R2, R5) -/

/-- The executor has only the one-shot LAMP to take up. -/
theorem takesUp_lamp {s t : State} (h : t.body = ({ s with remote := { s.remote with oneShot := some .lamp } } : State).body)
    (rest : executorStep s = none) (idle : s.cx.action = none) (power : s.thermal.power = .normal) :
    ∃ u, executorStep t = some (beginAction (oneShotRequest .lamp s) .remote u) ∧ u.body = s.body ∧ u.port = t.port := by
  obtain ⟨pending, queue, net, oneShot⟩ := noSource_of_idle rest idle
  have pressed : t.remote.oneShot = some .lamp := by rw [body_remote h]
  have taken : (putRemote { t.remote with oneShot := none } t).body = s.body := by
    rw [body_remote h]
    refine (body_putRemote_of _ h).trans ?_
    change ({ s with remote := { s.remote with oneShot := none } } : State).body = _
    rw [← oneShot]
  have request : oneShotRequest .lamp t = oneShotRequest .lamp s := by
    unfold oneShotRequest
    rw [body_lamp h]
  refine ⟨_, ?_, taken, by simp⟩
  rw [executorStep_arbitrates (by rw [body_tray h]; exact completion_of_rest (s := s) rest) (by rw [body_cx h]; exact idle)
      (by simp [sourceWaiting, pressed]),
    arbitrate_oneShot (by rw [body_cx h]; exact pending) (by rw [body_remote h]; exact net) pressed, request]
  exact congrArg some (takeUp_begins (takeUpFailure_lamp (by rw [body_thermal taken]; exact power)))

/-- The executor has only a net count to take up. -/
theorem takesUp_net {n : Int} {s t : State} (h : t.body = ({ s with remote := { s.remote with netCount := n } } : State).body)
    (rest : executorStep s = none) (idle : s.cx.action = none) (counted : n ≠ 0) :
    ∃ u, executorStep t = some (takeUp (netRequest n) .remote u) ∧ u.body = s.body ∧ u.port = t.port := by
  obtain ⟨pending, queue, net, oneShot⟩ := noSource_of_idle rest idle
  have pressed : t.remote.netCount = n := by rw [body_remote h]
  have taken : (putRemote { t.remote with netCount := 0 } t).body = s.body := by
    rw [body_remote h]
    refine (body_putRemote_of _ h).trans ?_
    change ({ s with remote := { s.remote with netCount := 0 } } : State).body = _
    rw [← net]
  refine ⟨_, ?_, taken, by simp⟩
  rw [executorStep_arbitrates (by rw [body_tray h]; exact completion_of_rest (s := s) rest) (by rw [body_cx h]; exact idle)
      (by simp [sourceWaiting, pressed, counted]),
    arbitrate_net (by rw [body_cx h]; exact pending) (by rw [pressed]; exact counted), pressed]

/-- A LAMP on that waits for a lamp still WARMING waits on. -/
theorem executorStep_warms {s : State} {x : Action} (completion : s.tray.completion = none)
    (action : s.cx.action = some x) (phase : x.phase = .warming) (lamp : s.lamp.state = .warming) (none_ : noSource s) :
    executorStep s = none := by
  obtain ⟨pending, queue, net, oneShot⟩ := none_
  rw [executorStep_warming completion action phase, lamp]
  simp [choiceIsLampOff, pending, queue, net, oneShot]

/-- A change in OPEN mode begins with its request (R8, R10). -/
theorem beginChange_opened {req : ActionRequest} {source : Source} {s t : State} (h : t.body = s.body)
    (mode : s.hdr.settings.changeMode = .opened) :
    ∃ u, beginChange req source t = requestTransport req.trayKind false u ∧ u.port = t.port
      ∧ u.body = (s.doing { freshAction req source false .moving with issued := true }).body := by
  have held := body_setAction (x := freshAction req source false .moving) h
  have same : enterPhase .moving (setAction (freshAction req source false .moving) t)
      = setAction (freshAction req source false .moving) (setAction (freshAction req source false .moving) t) := by
    unfold enterPhase
    rw [body_cx held]
    rfl
  have again := body_setAction (x := freshAction req source false .moving) held
  refine ⟨_, ?_, ?_, (body_setAction (x := { freshAction req source false .moving with issued := true }) again).trans rfl⟩
  · unfold beginChange
    rw [body_hdr h, mode]
    dsimp only
    unfold enterMovingOpen
    rw [same, issueRequest_eq (x := freshAction req source false .moving) (by rw [body_cx again]; rfl)]
    rfl
  · simp [setAction]

/-- A command with which the executor begins a lift. -/
theorem ends_liftsStep {c : Instr} {f : State → State} {s v t : State} (settled : Settled s)
    (hc : exec c s = .next (live f s)) (step : executorStep (f s) = some t) (lifts : LiftsTo t v)
    (executor : executorStep v = none) (quiet : logQuiet v) (access : t.port.access = s.port.access) : Lifts c s v := by
  obtain ⟨bare, pinned⟩ := lifts
  refine ⟨fun none_ => ends_step settled hc step (bare none_) executor quiet access, fun k m some_ found none_ => ?_⟩
  exact ends_step settled hc step (pinned k m some_ found none_)
    (executor_rest executor ⟨rfl, rfl, rfl, rfl, rfl, rfl⟩) quiet access

/-- Settles O52: a busy executor leaves the press waiting, an IDLE one takes it up, and the rest is refused. -/
theorem showKeys : Obligations.ShowKeys := by
  intro fr s x d settled power r got idle allowed up down held idleLamp lampKey
  refine ⟨fun busy => ⟨fun low ok new free => ?_, fun high ok new free => ?_, fun ok new free => ?_,
    fun ok new free => ?_, fun low time up_ fresh free => ?_, fun time up_ fresh free => ?_⟩,
    fun ok refused => ?_, fun ok again => ?_, fun out => ?_, fun time up_ atPin => ?_, fun short => ?_,
    fun ⟨action, ok, new, free⟩ on => ?_, fun ⟨action, ok, new, free⟩ off fan sensors => ?_,
    fun action ok new free mode ⟨state, request, top, base, skip, slot⟩ => ?_⟩
  · have effect := pressed_normal power ok new free
    refine ends_remote settled busy rfl (f := keyPress .fwd (.remote fr)) ?_ (by simp)
    refine (congrArg State.body effect).trans ((body_addNet (body_heard rfl)).trans ?_)
    exact congrArg (fun n => ({ s with remote := { got 1 with netCount := n } } : State).body) (netUp_eq low)
  · have effect := pressed_normal power ok new free
    refine ends_remote settled busy rfl (f := keyPress .rev (.remote fr)) ?_ (by simp)
    refine (congrArg State.body effect).trans ((body_addNet (body_heard rfl)).trans ?_)
    exact congrArg (fun n => ({ s with remote := { got 2 with netCount := n } } : State).body) (netDown_eq high)
  · have effect := pressed_normal power ok new free
    exact ends_remote settled busy rfl (f := remoteFrameIn 3 fr)
      ((congrArg State.body effect).trans (body_pressOneShot (body_heard rfl))) (by simp)
  · have effect := pressed_normal power ok new free
    exact ends_remote settled busy rfl (f := keyPress .lamp (.remote fr))
      ((congrArg State.body effect).trans (body_pressOneShot (body_heard rfl))) (by simp)
  · have effect := panel_normal (k := .fwd) power time up_ fresh free
    refine ends_remote settled busy rfl (f := keyPress .fwd (.panel d)) ?_ (by simp)
    refine (congrArg State.body effect).trans ((body_addNet (body_putRemote_of _ rfl)).trans ?_)
    exact congrArg (fun n => ({ s with remote := { r with keyFwd := held, netCount := n } } : State).body) (netUp_eq low)
  · have effect := panel_normal (k := .lamp) power time up_ fresh free
    exact ends_remote settled busy rfl (f := keyPress .lamp (.panel d))
      ((congrArg State.body effect).trans (body_pressOneShot (body_putRemote_of _ rfl))) (by simp)
  · have body := body_heard (key := 1) (fr := fr) (s := s) rfl
    have locked : lockedOut (heard 1 fr s) = true :=
      locked_of_refused (by rw [prog_of_body body, body_hdr body]; exact refused)
    have effect : remoteFrameIn 1 fr s = heard 1 fr s := by
      by_cases again : heldKey 1 fr s
      · exact remoteFrameIn_repeat ok again
      · exact (remoteFrameIn_press ok again).trans
          (takePress_lockedOut (by rw [body_thermal body]; exact power) locked rfl)
    exact ends_quietly settled rfl (f := keyPress .fwd (.remote fr)) ((congrArg State.body effect).trans body)
      ⟨rfl, rfl, rfl, rfl, rfl, rfl⟩ rfl rfl (by simp)
  · have effect := remoteFrameIn_repeat ok again
    exact ends_quietly settled rfl (f := keyPress .lamp (.remote fr)) ((congrArg State.body effect).trans (body_heard rfl))
      ⟨rfl, rfl, rfl, rfl, rfl, rfl⟩ rfl rfl (by simp)
  · exact ends_quietly settled rfl (f := remoteFrameIn 3 fr) ((congrArg State.body (remoteFrameIn_refused out)).trans
      (body_lineIdle rfl)) ⟨rfl, rfl, rfl, rfl, rfl, rfl⟩ rfl rfl (by simp)
  · exact ends_quietly settled rfl (f := keyPress .rev (.panel d)) ((congrArg State.body
      (panelDown_held (k := .rev) time up_ atPin)).trans (body_putRemote_of _ rfl)) ⟨rfl, rfl, rfl, rfl, rfl, rfl⟩ rfl rfl
      (by simp)
  · exact ends_nothing settled rfl (f := keyPress .fwd (.panel d)) (panelDown_nothing (k := .fwd) short)
  · have effect := pressed_normal power ok new free
    have pressed := (congrArg State.body effect).trans (body_pressOneShot (k := .lamp) (body_heard rfl))
    obtain ⟨u, step, body, port⟩ := takesUp_lamp (s := { s with remote := got 4 }) pressed
      (executor_rest settled.2.1 ⟨rfl, rfl, rfl, rfl, rfl, rfl⟩) action power
    have request : oneShotRequest .lamp { s with remote := got 4 } = .lamp false := by simp [oneShotRequest, on]
    rw [request] at step
    exact ends_step settled rfl (f := keyPress .lamp (.remote fr)) step (body_beginLampOff body power on)
      (executorStep_busy (completion_of_rest (s := s) settled.2.1) rfl (by simp [freshAction])) settled.2.2.1
      (by simp [beginAction, port])
  · have effect := pressed_normal power ok new free
    have pressed := (congrArg State.body effect).trans (body_pressOneShot (k := .lamp) (body_heard rfl))
    obtain ⟨u, step, body, port⟩ := takesUp_lamp (s := { s with remote := got 4 }) pressed
      (executor_rest settled.2.1 ⟨rfl, rfl, rfl, rfl, rfl, rfl⟩) action power
    have request : oneShotRequest .lamp { s with remote := got 4 } = .lamp true := by simp [oneShotRequest, off]
    rw [request] at step
    exact ends_step settled rfl (f := keyPress .lamp (.remote fr)) step (body_beginLampOn body off fan sensors)
      (executorStep_warms (completion_of_rest (s := s) settled.2.1) rfl rfl rfl (noSource_of_idle (s := s) settled.2.1 action))
      settled.2.2.1 (by simp [beginAction, port])
  · have effect := pressed_normal power ok new free
    have pressed := (congrArg State.body effect).trans (body_addNet (d := 1) (body_heard rfl))
    have one : max (-9) (min 9 (s.remote.netCount + 1)) = 1 := by
      rw [(noSource_of_idle settled.2.1 action).2.2.1]
      decide
    obtain ⟨u, step, body, port⟩ := takesUp_net (s := { s with remote := got 1 }) (n := 1)
      (pressed.trans (congrArg (fun n => ({ s with remote := { got 1 with netCount := n } } : State).body) one))
      (executor_rest settled.2.1 ⟨rfl, rfl, rfl, rfl, rfl, rfl⟩) action (by decide)
    obtain ⟨w, begun, port', issued⟩ := beginChange_opened (req := .advance 1) (source := .remote) body mode
    have passes : takeUpFailure (.advance 1) u = none := takeUpFailure_advance (by rw [body_thermal body]; exact power)
      (by rw [body_tray body, state]; decide) (by rw [body_tray body, state]; decide)
    have taken : takeUp (netRequest 1) .remote u = requestTransport (.advance 1) false w := (takeUp_begins passes).trans begun
    rw [taken] at step
    exact ends_liftsStep settled rfl (f := keyPress .fwd (.remote fr)) step
      (liftsTo_requestTransport issued request state rfl nofun (.inl skip) (Nat.le_of_lt slot) base top)
      (executorStep_busy (completion_of_rest (s := s) settled.2.1) rfl (by simp [freshAction])) settled.2.2.1
      (by simp [port, port'])

/-! ## STOP (R20, R21, R182) -/

theorem stopFocusCommand_none {s : State} (focus : s.remote.focus = none) : stopFocusCommand s = s := by
  rw [stopFocusCommand, focus]

theorem stopPending_none {s : State} (pending : s.cx.pendingCmd = false) : stopPending s = s :=
  if_neg (ne_true_of_eq_false pending)

theorem stopAction_none {silent : Bool} {s : State} (idle : s.cx.action = none) : stopAction silent s = s := by
  rw [stopAction, idle]

/-- An action in a phase of a ramp ends aborted, its ramp frozen (R20). -/
theorem stopAction_fades {x : Action} {silent : Bool} {s : State} (action : s.cx.action = some x)
    (moving : x.phase ≠ .moving) (warming : x.phase ≠ .warming) : stopAction silent s
      = endAction .aborted (freezeRamp (setAction { x with silent := x.silent || silent } s)) := by
  unfold stopAction
  rw [action]
  cases phase : x.phase with
  | moving => exact absurd phase moving
  | warming => exact absurd phase warming
  | _ => simp only [phase]

/-- The action that a command's STOP finds bears no new mark. -/
theorem unsilenced (x : Action) : { x with silent := x.silent || false } = x := by rw [Bool.or_false]

theorem remoteStop_nothing {s : State} (idle : s.cx.action = none) (pending : s.cx.pendingCmd = false)
    (focus : s.remote.focus = none) : remoteStop s = s := by
  rw [remoteStop, stopExecutor, stopAction_none idle, stopPending_none pending, stopFocusCommand_none focus]

theorem pendingCmd_endAction (code : ResultCode) (s : State) : (endAction code s).cx.pendingCmd = s.cx.pendingCmd := by
  cases action : s.cx.action with
  | none => rw [endAction, action]
  | some x =>
    rw [endAction_eq action]
    simp [takeOff, apply_ite State.cx]

/-- A STOP of the hand remote that finds an action in a phase of a ramp, and nothing else. -/
theorem remoteStop_fades {x : Action} {s : State} (action : s.cx.action = some x) (moving : x.phase ≠ .moving)
    (warming : x.phase ≠ .warming) (pending : s.cx.pendingCmd = false) (focus : s.remote.focus = none) :
    remoteStop s = endAction .aborted (freezeRamp (setAction x s)) := by
  rw [remoteStop, stopExecutor, stopAction_fades action moving warming, unsilenced,
    stopPending_none (by rw [pendingCmd_endAction]; simp [setAction, pending]), stopFocusCommand_none (by simp [setAction, focus])]

/-- A CLIP key is subject to no refusal. -/
theorem clipKey_open (n : BitVec 2) : 16 + n.toNat ≠ keyCodeLamp ∧ subjectToLockout (16 + n.toNat) = false
    ∧ refusedInStandby (16 + n.toNat) = false := by
  revert n
  decide

theorem pressEffect_clip {src : PressSource} {s : State} (n : BitVec 2) : pressEffect (16 + n.toNat) src s
    = startRequest { clip := n.toNat, queueMode := false, source := .remote } s := by
  have inside : 16 + n.toNat < 20 := by omega
  have differs (m : Nat) (small : m < 16) : 16 + n.toNat ≠ m := by omega
  simp [pressEffect, keyCodeFwd, keyCodeRev, keyCodeDissolve, keyCodeLamp, keyCodeStop, keyCodeHold, keyCodeRelease,
    keyCodeFocusIn, keyCodeFocusOut, keyCodeClip, inside, differs]

/-- A key outside the table. -/
theorem unknown_key {key : Nat} (other : keyCodes.contains key = false) :
    (key ≠ keyCodeLamp ∧ subjectToLockout key = false ∧ refusedInStandby key = false)
      ∧ ∀ src s, pressEffect key src s = s ∧ repeatEffect key s = s := by
  have differs (m : Nat) (listed : keyCodes.contains m = true) : key ≠ m := fun same => by
    rw [same, listed] at other
    exact absurd other (by decide)
  have fwd : key ≠ keyCodeFwd := differs _ rfl
  have rev : key ≠ keyCodeRev := differs _ rfl
  have dissolve : key ≠ keyCodeDissolve := differs _ rfl
  have lamp : key ≠ keyCodeLamp := differs _ rfl
  have stop : key ≠ keyCodeStop := differs _ rfl
  have hold : key ≠ keyCodeHold := differs _ rfl
  have release : key ≠ keyCodeRelease := differs _ rfl
  have focusIn : key ≠ keyCodeFocusIn := differs _ rfl
  have focusOut : key ≠ keyCodeFocusOut := differs _ rfl
  have clip : ¬(keyCodeClip ≤ key ∧ key < keyCodeClip + 4) := fun ⟨low, high⟩ => by
    have zero := differs 16 rfl
    have one := differs 17 rfl
    have two := differs 18 rfl
    have three := differs 19 rfl
    rw [keyCodeClip] at low high
    omega
  refine ⟨⟨lamp, ?_, ?_⟩, fun src s => ⟨?_, ?_⟩⟩
  · simp [subjectToLockout, fwd, rev, dissolve, lamp]
  · simp [refusedInStandby, fwd, rev, dissolve, focusIn, focusOut]
  · simp only [pressEffect, if_neg fwd, if_neg rev, if_neg dissolve, if_neg lamp, if_neg stop, if_neg hold, if_neg release,
      if_neg focusIn, if_neg focusOut, if_neg clip]
  · simp only [repeatEffect, if_neg focusIn, if_neg focusOut]

/-- Settles O53, key by key. -/
theorem otherKeys : Obligations.OtherKeys := by
  intro fr n key i s x settled got press
  refine ⟨fun ⟨ok, new⟩ power wake => ?_, fun ⟨ok, new⟩ power => ?_, fun ⟨ok, new⟩ => ?_, fun ⟨ok, new⟩ => ?_,
    fun ⟨ok, new⟩ idle focus => ?_, fun ⟨ok, new⟩ action moving warming focus power alone => ?_,
    fun ⟨ok, new⟩ misses => ?_, fun other ok => ?_⟩
  · have body := body_heard (key := 4) (fr := fr) (s := s) rfl
    have effect : remoteFrameIn 4 fr s = wakeUnit (heard 4 fr s) :=
      (remoteFrameIn_press ok new).trans ((if_pos (by rw [body_thermal body]; exact power)).trans
        ((if_pos rfl).trans (if_pos (by rw [body_hdr body]; exact wake))))
    have woken : (wakeUnit (heard 4 fr s)).body = _ := (congrArg State.body
      (if_neg (by rw [body_thermal body]; exact power))).trans (body_decideDuty (body_putThermal_of _ body))
    rw [body_thermal body] at woken
    exact ends_quietly settled rfl (f := keyPress .lamp (.remote fr)) ((congrArg State.body effect).trans woken)
      ⟨rfl, rfl, rfl, rfl, rfl, rfl⟩ rfl rfl (by simp)
  · have body := body_heard (key := 1) (fr := fr) (s := s) rfl
    have effect : remoteFrameIn 1 fr s = heard 1 fr s :=
      (remoteFrameIn_press ok new).trans ((if_pos (by rw [body_thermal body]; exact power)).trans
        ((if_neg (by decide)).trans (if_pos rfl)))
    exact ends_quietly settled rfl (f := keyPress .fwd (.remote fr)) ((congrArg State.body effect).trans body)
      ⟨rfl, rfl, rfl, rfl, rfl, rfl⟩ rfl rfl (by simp)
  · have body := body_heard (key := 6) (fr := fr) (s := s) rfl
    have effect := (remoteFrameIn_press ok new).trans (takePress_free (by decide) rfl rfl)
    refine ends_quietly settled rfl (f := remoteFrameIn 6 fr) ((congrArg State.body effect).trans
      ((body_putDeck_of _ body).trans ?_)) ⟨rfl, rfl, rfl, rfl, rfl, rfl⟩ rfl rfl (by simp)
    rw [body_deck body]
    rfl
  · have body := body_heard (key := 7) (fr := fr) (s := s) rfl
    have effect := (remoteFrameIn_press ok new).trans (takePress_free (by decide) rfl rfl)
    exact ends_quietly settled rfl (f := remoteFrameIn 7 fr) ((congrArg State.body effect).trans
      (body_releaseDeck body)) ⟨rfl, rfl, rfl, rfl, rfl, rfl⟩ rfl rfl (by simp)
  · have body := body_heard (key := 5) (fr := fr) (s := s) rfl
    obtain ⟨pending, -⟩ := noSource_of_idle settled.2.1 idle
    have effect := ((remoteFrameIn_press ok new).trans (takePress_free (by decide) rfl rfl)).trans
      (remoteStop_nothing (by rw [body_cx body]; exact idle) (by rw [body_cx body]; exact pending)
        (by rw [body_remote body]; exact focus))
    exact ends_quietly settled rfl (f := remoteFrameIn 5 fr) ((congrArg State.body effect).trans body)
      ⟨rfl, rfl, rfl, rfl, rfl, rfl⟩ rfl rfl (by simp)
  · have body := body_heard (key := 5) (fr := fr) (s := s) rfl
    have effect := ((remoteFrameIn_press ok new).trans (takePress_free (by decide) rfl rfl)).trans
      (remoteStop_fades (by rw [body_cx body]; exact action) moving warming (by rw [body_cx body]; exact alone.1.1)
        (by rw [body_remote body]; exact focus))
    have held : (setAction x (heard 5 fr s)).body = ({ s with remote := got 5 } : State).body := by
      refine (body_setAction body).trans ?_
      change ({ s with remote := got 5, cx := { s.cx with action := some x } } : State).body = _
      rw [← action]
    exact ends_endAction (v := { s with remote := got 5, lamp := { s.lamp with ramp := none } }) settled rfl
      (f := remoteFrameIn 5 fr) effect (body_freezeRamp held (by simp [power])) action alone
      (completion_of_rest (s := s) settled.2.1) settled.2.2.1 (by simp [setAction, heard])
  · have body := body_heard (key := 16 + n.toNat) (fr := fr) (s := s) rfl
    have effect := (remoteFrameIn_press ok new).trans (takePress_free (clipKey_open n).1 (clipKey_open n).2.1 (clipKey_open n).2.2)
    have clip : pressEffect (16 + n.toNat) .remote (heard (16 + n.toNat) fr s)
        = startRequest { clip := n.toNat, queueMode := false, source := .remote } (heard (16 + n.toNat) fr s) := pressEffect_clip n
    have asked := body_startRequest_misses (source := .remote) (s := { s with remote := got (16 + n.toNat) }) body misses
    exact ends_quietly settled rfl (f := remoteFrameIn (16 + n.toNat) fr) ((congrArg State.body (effect.trans clip)).trans asked)
      ⟨rfl, rfl, rfl, rfl, rfl, rfl⟩ rfl rfl (by simp)
  · have effect : remoteFrameIn key.toNat fr s = heard key.toNat fr s := by
      obtain ⟨⟨lamp, free, open_⟩, none_⟩ := unknown_key other
      by_cases again : heldKey key.toNat fr s
      · exact (remoteFrameIn_repeat ok again).trans (none_ .remote _).2
      · exact ((remoteFrameIn_press ok again).trans (takePress_free lamp free open_)).trans (none_ .remote _).1
    exact ends_quietly settled rfl (f := remoteFrameIn key.toNat fr) ((congrArg State.body effect).trans (body_heard rfl))
      ⟨rfl, rfl, rfl, rfl, rfl, rfl⟩ rfl rfl (by simp)

end Sys2Proof.Machine
end
section
/-! FOCUS and INJECT when they are taken (R137, R182, R203). -/

namespace Sys2Proof.Machine

/-! ## FOCUS (R182) -/

/-- A FOCUS command is taken. -/
theorem takes_focus {s : State} {a : RamAccess} (next : TakesNext s a codeFocus) :
    ∃ w, endStatusWrite s = commandFocus s.hdr.record.taken w ∧ w.body = ((statusShown a s).active).body := by
  obtain ⟨w, lands, body, record, -⟩ := takesNext_takes next
  obtain ⟨-, -, -, -, -, -, -, -, abort, -, code⟩ := next
  refine ⟨w, ?_, body⟩
  rw [lands, routeCommand_focus (by rw [record]; exact abort) (by rw [record]; exact code), record]

theorem body_startFocus {inward : Bool} {o : FocusOwner} {limit : Nat} {s t : State} (h : t.body = s.body)
    (free : ∀ run ∈ s.remote.focus, run.owner ≠ .command) : (startFocus inward o limit t).body = ({ s with
      remote := { s.remote with focus := some (FocusRun.fresh inward o limit s.now) } } : State).body := by
  have off := body_endFocus (code := .aborted) h free
  rw [startFocus, body_remote off, body_now off]
  exact (body_putRemote_of _ off).trans rfl

/-! ## INJECT (R137) -/

/-- An INJECT command is taken. -/
theorem takes_inject {s : State} {a : RamAccess} (next : TakesNext s a codeInject) :
    ∃ w, endStatusWrite s = commandInject s.hdr.record.taken w ∧ w.body = ((statusShown a s).active).body := by
  obtain ⟨w, lands, body, record, -⟩ := takesNext_takes next
  obtain ⟨-, -, -, -, -, -, -, -, abort, -, code⟩ := next
  refine ⟨w, ?_, body⟩
  rw [lands, routeCommand_inject (by rw [record]; exact abort) (by rw [record]; exact code), record]

/-- One with its parameters in range, in NORMAL, routes its cue. -/
theorem takes_cueInject {s : State} {a : RamAccess} (next : TakesNext s a codeInject) (power : s.thermal.power = .normal)
    (good : ¬(15 < s.hdr.record.p1.toNat ∨ 15 < s.hdr.record.p2.toNat ∨ 4095 < s.hdr.record.p3.toNat)) :
    ∃ w, endStatusWrite s = endPlain .ok
        (routeFrame s.hdr.record.p1.toNat s.hdr.record.p2.toNat s.hdr.record.p3.toNat 0 true w)
      ∧ w.body = ((statusShown a s).active).body := by
  obtain ⟨w, lands, body⟩ := takes_inject next
  exact ⟨w, lands.trans ((if_neg good).trans (if_neg (not_not.2 (by rw [body_thermal body]; exact power)))), body⟩

/-- The result of a command that ends ok leaves the Log Writer's part. -/
theorem ended_logged {r : LogRecord} {n : Nat} (s : State) : (s.logged r).ended .ok 0 n = (s.ended .ok 0 n).logged r :=
  logged_comm (F := State.ended .ok 0 n) (fun _ => rfl) rfl rfl

/-- An effect of a cue that neither the record's state nor the Log Writer's part plays a part in. -/
structure CueEffect (s v : State) (F : State → State) : Prop where
  active : (F v.active).hdr.record.state = .active
  tray : (F v.active).tray = s.tray
  kept : (F v.active).log = s.log
  settings : (F v.active).hdr.settings = s.hdr.settings
  other : ∀ l, F { v with log := l } = { F v with log := l }
  log : (F v).log = v.log
  ring : (F v).hdr.settings.ringBase = v.hdr.settings.ringBase
  same : State.ended .ok 0 (plainLastSlot s) (F v.active) = State.ended .ok 0 (plainLastSlot s) (F v)

section
variable {s : State} {a : RamAccess} {r : LogRecord} {F : State → State} (next : TakesNext s a codeInject)
  (power : s.thermal.power = .normal)
  (good : ¬(15 < s.hdr.record.p1.toNat ∨ 15 < s.hdr.record.p2.toNat ∨ 4095 < s.hdr.record.p3.toNat)) (room : logRoom s)
include next power good room

/-- The cue of an INJECT is logged and has its effect, and the command ends ok. -/
theorem ends_cueInject (rest : executorStep (F (statusShown a s).active) = none)
    (effect : CueEffect s (statusShown a s) F)
    (routes : ∀ w : State, w.body = ((statusShown a s).active).body →
      (routeFrame s.hdr.record.p1.toNat s.hdr.record.p2.toNat s.hdr.record.p3.toNat 0 true w).body
        = (State.staged r (F (statusShown a s).active)).body) :
    Ends .statusBlockWriteLanded s (State.ended .ok 0 (plainLastSlot s) (F ((statusShown a s).logged r))) := by
  obtain ⟨w, lands, body⟩ := takes_cueInject next power good
  obtain ⟨active, tray, kept, settings, other, log, ring, same⟩ := effect
  have slot : plainLastSlot (State.staged r (F (statusShown a s).active)) = plainLastSlot s := by
    change plainLastSlot (F (statusShown a s).active) = plainLastSlot s
    rw [plainLastSlot, plainLastSlot, tray]
  have ended : (endStatusWrite s).body = (State.staged r
      (State.ended .ok 0 (plainLastSlot s) (F (statusShown a s).active))).body := by
    rw [lands, body_endPlain (routes w body) active, slot]
    rfl
  have fits : logRoom (State.ended .ok 0 (plainLastSlot s) (F (statusShown a s).active)) := by
    change logRoom (F (statusShown a s).active)
    rw [logRoom, kept, settings]
    exact room
  rw [logged_comm other log ring, ended_logged, ← same]
  exact ends_staged next.1 rfl ended (executor_rest_code (s := F (statusShown a s).active) rest rfl rfl rfl rfl rfl rfl rfl)
    fits (access_endStatusWrite s)

end

/-- The executor of s, IDLE, has taken up a FADE: auto-hold has followed the queue to none. -/
def fadeTaken (s : State) (level rate : Nat) (t : State) : State :=
  (State.doing (freshAction (.fade level rate) .injected false .fading) { t with
    cx := { s.cx with showLevel := if s.lamp.f < level then level else s.cx.showLevel }
    deck := { s.deck with auto := if s.hdr.settings.autoHold then false else s.deck.auto } }).ramping level rate true false

theorem dequeued_ended {r : LogRecord} {n : Nat} (s : State) : (State.staged r (State.ended .ok 0 n s)).dequeued
    = State.staged r (State.ended .ok 0 n s.dequeued) := rfl

theorem fadeTaken_logged {s t : State} {level rate n : Nat} {r : LogRecord} :
    State.ended .ok 0 n (fadeTaken s level rate (t.logged r)) = (State.ended .ok 0 n (fadeTaken s level rate t)).logged r :=
  logged_comm (F := fun t => State.ended .ok 0 n (fadeTaken s level rate t)) (fun _ => rfl) rfl rfl

section
variable {s : State} {a : RamAccess} (next : TakesNext s a codeInject) (power : s.thermal.power = .normal)
  (good : ¬(15 < s.hdr.record.p1.toNat ∨ 15 < s.hdr.record.p2.toNat ∨ 4095 < s.hdr.record.p3.toNat)) (room : logRoom s)
include next power good room

/-- An injected FADE that an IDLE executor takes up at once. -/
theorem ends_fadeInject (here : addressed s.hdr.record.p1.toNat s = true) (idle : s.cx.action = none)
    (fade : s.hdr.record.p2.toNat = 5) :
    let p := s.hdr.record.p3.toNat
    let level := if p / 256 = 15 then 1023 else 68 * (p / 256)
    Ends .statusBlockWriteLanded s (State.ended .ok 0 (plainLastSlot s) (fadeTaken s level (p % 256)
      ((statusShown a s).logged (.cue (plainFlags true) s.hdr.record.p1.toNat s.hdr.record.p2.toNat p 0)))) := by
  intro p level
  obtain ⟨w, lands, body⟩ := takes_cueInject next power good
  have settled := next.1
  obtain ⟨pending, queue, net, oneShot⟩ := noSource_of_idle settled.2.1 idle
  have completion := completion_of_rest settled.2.1
  have routed : routeFrame s.hdr.record.p1.toNat s.hdr.record.p2.toNat p 0 true w
      = routeSequenced .fade s.hdr.record.p1.toNat s.hdr.record.p2.toNat p 0 true w := by
    rw [fade]
    exact routeFrame_sequenced (kind := .fade) (by rw [addressed_of_body body]; exact here)
  have joined := (congrArg State.body routed).trans (body_routeSequenced_alone body (by simp) queue room)
  have ended := (congrArg State.body lands).trans (body_endPlain joined rfl)
  obtain ⟨t, step, port, begun⟩ := takesUp_fade ended ⟨completion, idle, pending, net, oneShot, rfl⟩ rfl power
  have alone := dequeued_joinedBy (e := entryOf .fade p 0 true) (s := (statusShown a s).active) queue
  rw [fadeTaken_logged]
  refine ends_step_staged settled rfl (f := endStatusWrite) step (begun.trans ?_)
    (executorStep_busy completion rfl (by simp [freshAction])) room (by rw [port]; exact access_endStatusWrite s)
  let r : LogRecord := .cue (plainFlags true) s.hdr.record.p1.toNat s.hdr.record.p2.toNat p 0
  let n := plainLastSlot s
  have after : (State.staged r (State.ended .ok 0 n ((statusShown a s).active.joinedBy (entryOf .fade p 0 true)))).dequeued
      = State.staged r (State.ended .ok 0 n { (statusShown a s).active with
        deck := { s.deck with auto := if s.hdr.settings.autoHold then false else s.deck.auto } }) :=
    (dequeued_ended _).trans (congrArg (fun t => State.staged r (State.ended .ok 0 n t)) alone)
  exact congrArg State.body (congrArg (State.fadeBegun level (p % 256) .injected) after)

end

/-- Settles O18, kind by kind. -/
theorem focusAndInjectWhenTaken : Obligations.FocusAndInjectWhenTaken := by
  intro s a x kind i pl
  refine ⟨fun next => ⟨fun power => ?_, fun power free => ?_⟩, fun next => ?_⟩
  · obtain ⟨w, lands, body⟩ := takes_focus next
    exact ends_justEnds next.1 (lands.trans (if_pos (by rw [body_thermal body]; exact power))) body
  · obtain ⟨w, lands, body⟩ := takes_focus next
    have settled := next.1
    have starts := lands.trans (if_neg (not_not.2 (by rw [body_thermal body]; exact power)))
    exact ends_landing settled ((congrArg State.body starts).trans (body_startFocus body free))
      (executor_rest_code (s := s) settled.2.1 rfl rfl rfl rfl rfl rfl rfl) rfl rfl
  intro p1 p2 p3 bad
  have active : executorStep (statusShown a s).active = none :=
    executor_rest_code (s := s) next.1.2.1 rfl rfl rfl rfl rfl rfl rfl
  refine ⟨fun out => ?_, fun good power => ?_, fun good power other off => ?_, fun good power other on room => ?_,
    fun good power here room => ?_⟩
  · obtain ⟨w, lands, body⟩ := takes_inject next
    exact ends_justEnds next.1 (lands.trans (if_pos out)) body
  · obtain ⟨w, lands, body⟩ := takes_inject next
    exact ends_justEnds next.1 (lands.trans ((if_neg good).trans
      (if_pos (by rw [body_thermal body]; exact power)))) body
  · obtain ⟨w, lands, body⟩ := takes_cueInject next power good
    rw [routeFrame_foreign (by rw [addressed_of_body body]; exact other),
      if_neg (by rw [body_hdr body]; exact ne_true_of_eq_false off)] at lands
    exact ends_justEnds next.1 lands body
  · refine ends_cueInject (F := id) next power good room active ⟨rfl, rfl, rfl, rfl, fun _ => rfl, rfl, rfl, rfl⟩
      fun w body => ?_
    rw [routeFrame_foreign (by rw [addressed_of_body body]; exact other), if_pos (by rw [body_hdr body]; exact on)]
    exact body_handLog body room
  intro fl cued ok beyond depth
  have immediate (w : State) (body : w.body = ((statusShown a s).active).body) (k : p2 = 0 ∨ 6 < p2) :
      routeFrame p1 p2 p3 0 true w = routeImmediate p1 p2 p3 0 true w :=
    routeFrame_immediate (by rw [addressed_of_body body]; exact here) k
  have sequenced (w : State) (body : w.body = ((statusShown a s).active).body) (k : p2 = SeqKind.code kind) :
      routeFrame p1 p2 p3 0 true w = routeSequenced kind p1 p2 p3 0 true w := by
    rw [k]
    exact routeFrame_sequenced (by rw [addressed_of_body body]; exact here)
  refine ⟨fun mark => ?_, fun unknown => ?_, fun hold => ?_, fun stop state playing plain => ?_,
    fun clip cut misses => ?_, fun k out => ?_, fun k inside busy short => ?_, fun k inside busy full => ?_,
    fun idle fade => ?_⟩
  · refine ends_cueInject (F := id) next power good room active ⟨rfl, rfl, rfl, rfl, fun _ => rfl, rfl, rfl, rfl⟩
      fun w body => ?_
    have routed : routeFrame p1 p2 p3 0 true w = handLog (.cue fl p1 p2 p3 0) w := by
      rw [immediate w body (by omega), mark]
      exact routeImmediate_mark
    exact (congrArg State.body routed).trans (body_handLog body room)
  · refine ends_cueInject (F := id) next power good room active ⟨rfl, rfl, rfl, rfl, fun _ => rfl, rfl, rfl, rfl⟩
      fun w body => ?_
    exact (congrArg State.body ((immediate w body (by omega)).trans (routeImmediate_unknown unknown))).trans
      (body_handLog body room)
  · refine ends_cueInject (F := fun t => { t with deck := { s.deck with
        cue := true, holdUntil := if p3 = 0 then none else some (s.now + p3 * 100000) } }) next power good room
      (executor_rest active ⟨rfl, rfl, rfl, rfl, rfl, rfl⟩) ⟨rfl, rfl, rfl, rfl, fun _ => rfl, rfl, rfl, rfl⟩
      fun w body => ?_
    have routed : routeFrame p1 p2 p3 0 true w = holdCue p3 (handLog (.cue fl p1 p2 p3 0) w) := by
      rw [immediate w body (by omega), hold]
      exact routeImmediate_hold
    exact (congrArg State.body routed).trans (body_holdCue (body_handLog body room))
  · refine ends_cueInject (F := fun t => { t with clip := ClipPlayer.retarget s.now { s.clip with
        state := .fadingOut, fadeCount := fadeLength pl.desc.rate } }) next power good room
      (executor_rest active ⟨rfl, rfl, rfl, rfl, rfl, rfl⟩) ⟨rfl, rfl, rfl, rfl, fun _ => rfl, rfl, rfl, rfl⟩
      fun w body => ?_
    have routed : routeFrame p1 p2 p3 0 true w = clipStopNow (handLog (.cue fl p1 p2 p3 0) w) := by
      rw [immediate w body (by omega), stop]
      exact routeImmediate_clipStop
    refine (congrArg State.body routed).trans ((body_clipStopNow (body_handLog body room) plain).trans ?_)
    exact congrArg (fun c => (State.staged (.cue fl p1 p2 p3 0) { (statusShown a s).active with clip := c }).body)
      (faded_playing state playing)
  · refine ends_cueInject (F := fun t => t.fetchingClip (p3 % 64) i .injected) next power good room
      (executor_rest active ⟨rfl, rfl, rfl, rfl, rfl, rfl⟩) ⟨rfl, rfl, rfl, rfl, fun _ => rfl, rfl, rfl, rfl⟩
      fun w body => ?_
    have routed : routeFrame p1 p2 p3 0 true w = startRequest { clip := p3 % 64, queueMode := false, source := .injected }
        (handLog (.cue fl p1 p2 p3 0) w) := by
      rw [immediate w body (by omega), clip]
      exact routeImmediate_clip cut
    exact (congrArg State.body routed).trans (body_startRequest_misses (body_handLog body room) misses)
  · refine ends_cueInject (F := id) next power good room active ⟨rfl, rfl, rfl, rfl, fun _ => rfl, rfl, rfl, rfl⟩
      fun w body => ?_
    exact (congrArg State.body ((sequenced w body k).trans (routeSequenced_beyond body out))).trans
      (body_handLog body room)
  · obtain ⟨action, phase, completion⟩ := busy
    refine ends_cueInject (F := fun t => { t with
        cx := { s.cx with queue := s.cx.queue ++ [entryOf kind p3 0 true] }
        deck := s.deck.following s.hdr.settings.autoHold depth }) next power good room
      (executorStep_busy completion action phase) ⟨rfl, rfl, rfl, rfl, fun _ => rfl, rfl, rfl, rfl⟩
      fun w body => ?_
    exact (congrArg State.body (sequenced w body k)).trans (body_routeSequenced_joins body inside short room)
  · refine ends_cueInject (F := State.latched .cueFault) next power good room
      (executor_rest active ⟨rfl, rfl, rfl, rfl, rfl, rfl⟩) ⟨rfl, rfl, rfl, rfl, fun _ => rfl, rfl, rfl, rfl⟩
      fun w body => ?_
    exact (congrArg State.body ((sequenced w body k).trans (routeSequenced_full body inside full))).trans
      (body_latched (body_handLog body room))
  · exact ends_fadeInject next power good room here idle fade

end Sys2Proof.Machine
end
section
/-! WAKE and STANDBY when they are taken, and the action that a stop ends (R20, R26, R118 to R120, R213). -/

namespace Sys2Proof.Machine

/-! ## An action that ends with a record at most (R22) -/

/-- The record that an action of a cue posts when it does not end ok. -/
def Action.failure (x : Action) (code : ResultCode) : Option LogRecord :=
  match x.source with
  | .command _ => none
  | .remote => none
  | .tape time => some (.execFail false x.request.cueKind code time)
  | .injected => some (.execFail true x.request.cueKind code 0)

/-- The record, if there is one, has been staged. -/
def State.noted (o : Option LogRecord) (s : State) : State := { s with
  log := match o with
    | none => s.log
    | some r => s.log.staged s.hdr.settings.ringBase r }

/-- The record, if there is one, has been logged. -/
def State.filed (o : Option LogRecord) (s : State) : State := { s with
  log := match o with
    | none => s.log
    | some r => s.log.given s.hdr.settings.ringBase r }

/-- The action posts no result in the command record. -/
abbrev Action.unposted (x : Action) : Prop := x.source.isCommand = true → x.silent = true

theorem posted_filed {x : Action} {code : ResultCode} {values : Nat × Nat} (s : State) (failed : code ≠ .ok)
    (unposted : x.unposted) : s.posted x code values = s.filed (x.failure code) := by
  unfold State.posted State.filed Action.failure
  cases source : x.source with
  | command tag => exact if_pos (unposted (by rw [source]; rfl))
  | remote => rfl
  | tape time => exact (if_neg failed).trans (logged_given _ _)
  | injected => exact (if_neg failed).trans (logged_given _ _)

theorem actionEnded_filed {x : Action} {code : ResultCode} {values : Nat × Nat} (s : State) (failed : code ≠ .ok)
    (unposted : x.unposted) : s.actionEnded x code values = (s.unheld x).filed (x.failure code) :=
  (actionEnded_eq x code values s).trans (posted_filed _ failed unposted)

theorem body_endAction_noted {x : Action} {code : ResultCode} {s t : State} (h : t.body = s.body)
    (action : s.cx.action = some x) (failed : code ≠ .ok) (unposted : x.unposted) (room : logRoom s) :
    (endAction code t).body = ((s.unheld x).noted (x.failure code)).body := by
  have unheld := body_takeOff (x := x) h
  rw [endAction_eq (by rw [body_cx h]; exact action)]
  unfold postResult State.noted Action.failure
  cases source : x.source with
  | command tag => exact (congrArg State.body (if_pos (unposted (by rw [source]; rfl)))).trans unheld
  | remote => exact unheld
  | tape time => exact (congrArg State.body (if_neg failed)).trans (body_handLog unheld room)
  | injected => exact (congrArg State.body (if_neg failed)).trans (body_handLog unheld room)

/-- A command that ends with the record, if there is one, staged. -/
theorem ends_noted {c : Instr} {f : State → State} {s v : State} {o : Option LogRecord} (settled : Settled s)
    (hc : exec c s = .next (live f s)) (body : (f s).body = (v.noted o).body) (executor : executorStep v = none)
    (quiet : logQuiet v) (room : o ≠ none → logRoom v) (access : (f s).port.access = s.port.access) :
    Ends c s (v.filed o) := by
  cases o with
  | none => exact ends_live settled hc body executor quiet access
  | some r =>
    have ends := ends_staged (r := r) settled hc body executor (room (Option.some_ne_none r)) access
    rw [logged_given] at ends
    exact ends

/-! ## The part is stood by (R26, R118, R148, R163, R183) -/

/-- The power state once the deferral has been evaluated (R118). -/
def State.powered (s : State) : State := { s with
  thermal := if s.lamp.state.lit = true ∨ s.thermal.runOn ≠ none then { s.thermal with power := .standbyPending }
    else { s.thermal with power := .standby, duty := 0 } }

theorem body_powered {s t : State} (h : t.body = s.body) :
    (evalStandby (putThermal { t.thermal with power := .standbyPending } t)).body = s.powered.body := by
  have pending := body_putThermal_of { s.thermal with power := .standbyPending } h
  rw [body_thermal h]
  by_cases waits : s.lamp.state.lit = true ∨ s.thermal.runOn ≠ none
  · have stays := body_evalStandby_stays pending fun ⟨_, unlit, cold⟩ =>
      waits.elim (fun lit => absurd (lit.symm.trans unlit) (by decide)) (· cold)
    exact stays.trans (congrArg (fun h => ({ s with thermal := h } : State).body) (if_pos waits).symm)
  · have cold := waits
    rw [not_or, not_not, Bool.not_eq_true] at cold
    exact (body_evalStandby_enters pending rfl cold.1 cold.2).trans
      (congrArg (fun h => ({ s with thermal := h } : State).body) (if_neg waits).symm)

theorem body_emptySources {s t : State} (h : t.body = s.body) : (emptySources t).body = s.emptied.body := by
  have emptied : (putCx { t.cx with queue := [], pendingCmd := false } t).body = ({ s with
      cx := { s.cx with queue := [], pendingCmd := false }
      deck := { s.deck with auto :=
        if s.hdr.settings.autoHold = true ∧ s.cx.queue ≠ [] then false else s.deck.auto } } : State).body := by
    rw [body_cx h]
    by_cases queue : s.cx.queue = []
    · rw [if_neg (fun k => k.2 queue)]
      exact body_putCx_of h (by rw [queue])
    · refine (body_putCx_resized h ?_).trans ?_
      · rw [ne_comm]
        simpa using queue
      · have auto : s.deck.following s.hdr.settings.autoHold 0 = { s.deck with auto :=
            if s.hdr.settings.autoHold = true ∧ s.cx.queue ≠ [] then false else s.deck.auto } := by
          cases on_ : s.hdr.settings.autoHold <;> simp [Deck.following, queue]
        exact congrArg (fun d => ({ s with
          cx := { s.cx with queue := [], pendingCmd := false }, deck := d } : State).body) auto
  unfold emptySources
  rw [body_remote h]
  exact (body_putRemote_of _ emptied).trans rfl

/-- The lamp is turned off as by a LAMP off (R26). -/
def lampDown (s : State) : State :=
  match s.lamp.state with
  | .on => requestRamp s.lamp.f s.hdr.settings.blankRate false true s
  | _ => offRequest s

/-- The same for the part's state, with the lamp in a state. -/
def State.lampDown (st : LampState) (s : State) : State :=
  match st with
  | .on => s.ramping s.lamp.f s.hdr.settings.blankRate false true
  | .warming => s.lampOut
  | .failed => s.lampOut
  | _ => s

theorem requestRamp_marked {level tenths : Nat} {byAction : Bool} {s : State} :
    requestRamp level tenths byAction true s = takeRamp level tenths byAction true s := by
  unfold requestRamp
  rw [Bool.not_true, Bool.and_false]
  rfl

theorem lampDown_frame (st : LampState) (s : State) :
    (s.lampDown st).clip = s.clip ∧ (s.lampDown st).now = s.now ∧ (s.lampDown st).hdr = s.hdr
      ∧ (s.lampDown st).tray = s.tray ∧ (s.lampDown st).cx = s.cx ∧ (s.lampDown st).remote = s.remote
      ∧ (s.lampDown st).log = s.log := by
  cases st <;> exact ⟨rfl, rfl, rfl, rfl, rfl, rfl, rfl⟩

/-- The lamp's part in STANDBY and what the decoder, the player and the motor do are apart. -/
theorem lampDown_still (st : LampState) (s : State) : ({ s.lampDown st with
    cue := { (s.lampDown st).cue.unframed with carrier := .absent }, clip := s.clip.faded s.now
    remote := (s.lampDown st).remote.unfocused } : State) = State.lampDown st { s with
      cue := { s.cue.unframed with carrier := .absent }, clip := s.clip.faded s.now
      remote := s.remote.unfocused } := by
  cases st <;> rfl

/-- Where the deferral has been evaluated, a lamp put OFF does not evaluate it to another end. -/
theorem body_lampDown {s t : State} (h : t.body = s.body)
    (waits : s.thermal.power = .standbyPending → s.lamp.state.lit = true ∨ s.thermal.runOn ≠ none) :
    (Sys2Proof.Machine.lampDown t).body = (s.lampDown s.lamp.state).body := by
  have off (ne : s.lamp.state ≠ .off) : (setLampState .off t).body = s.lampOut.body := by
    refine (body_setLampState_off h ne).trans (congrArg State.body (if_neg fun ⟨pending, cold⟩ => ?_))
    rcases waits pending with lit | runs
    · simp [State.lampOut, State.dutied, lit] at cold
    · simp only [State.lampOut, State.dutied] at cold
      split at cold
      · cases cold
      · exact runs cold
  unfold Sys2Proof.Machine.lampDown State.lampDown offRequest
  rw [body_lamp h, body_hdr h]
  cases state : s.lamp.state with
  | on =>
    dsimp only
    rw [requestRamp_marked]
    exact body_takeRamp h
  | warming => exact off (by rw [state]; decide)
  | failed => exact off (by rw [state]; decide)
  | off => exact h
  | tripped => exact h

theorem body_standbyDecoder {s t : State} (h : t.body = s.body) : (standbyDecoder t).body
    = ({ s with cue := { s.cue.unframed with carrier := .absent } } : State).body := by
  have discarded := body_discardFrame h
  unfold standbyDecoder
  dsimp only
  rw [body_cue discarded]
  exact (body_putCue_of _ discarded).trans rfl

/-- A focus run ends with no command of its own. -/
theorem body_endFocus_plain {code : ResultCode} {s t : State} (h : t.body = s.body)
    (plain : ∀ run ∈ s.remote.focus, ¬(run.owner = .command ∧ s.hdr.record.state = .active
      ∧ s.hdr.record.code = codeFocus)) :
    (endFocus code t).body = ({ s with remote := s.remote.unfocused } : State).body := by
  unfold endFocus
  rw [body_remote h]
  cases focus : s.remote.focus with
  | none =>
    have same : s.remote.unfocused = s.remote := by rw [Remote.unfocused, ← focus]
    rw [same]
    exact h
  | some run =>
    have off := body_putRemote_of s.remote.unfocused h
    refine (congrArg State.body (if_neg fun k => plain run focus ⟨k.1, ?_⟩)).trans off
    exact activeWith_iff.1 ((activeWith_of_body off).symm.trans k.2)

/-- What STANDBY does after the deferral and the stop of the action. -/
def standRest (t : State) : State :=
  endFocus .ok (clipStopNow (standbyDecoder (lampDown (emptySources t))))

theorem enterStandby_eq (t : State) : enterStandby t =
    standRest (stopAction false (evalStandby (putThermal { t.thermal with power := .standbyPending } t))) := rfl

theorem body_standDown {s t : State} (h : t.body = s.body)
    (waits : s.thermal.power = .standbyPending → s.lamp.state.lit = true ∨ s.thermal.runOn ≠ none)
    (plain : stopsPlainly s.clip) (focus : s.hdr.record.code ≠ codeFocus) :
    (endFocus .ok (clipStopNow (standbyDecoder (lampDown t)))).body = (State.lampDown s.lamp.state { s with
      cue := { s.cue.unframed with carrier := .absent }, clip := s.clip.faded s.now
      remote := s.remote.unfocused }).body := by
  have down := body_lampDown h waits
  have still := lampDown_still s.lamp.state s
  obtain ⟨clip, now, hdr, -⟩ := lampDown_frame s.lamp.state s
  generalize s.lampDown s.lamp.state = d at down still clip now hdr
  have plain' : stopsPlainly d.clip := by rwa [clip]
  have focus' : d.hdr.record.code ≠ codeFocus := by rwa [hdr]
  have stopped := body_endFocus_plain (code := .ok) (body_clipStopNow (body_standbyDecoder down) plain')
    fun _ _ k => focus' k.2.2
  rw [← still, ← clip, ← now]
  exact stopped

theorem body_standRest {s t : State} (h : t.body = s.powered.body) (plain : stopsPlainly s.clip)
    (focus : s.hdr.record.code ≠ codeFocus) : (standRest t).body = s.standingBy.body := by
  have waits : s.powered.emptied.thermal.power = .standbyPending →
      s.powered.emptied.lamp.state.lit = true ∨ s.powered.emptied.thermal.runOn ≠ none := by
    change s.powered.thermal.power = .standbyPending → s.lamp.state.lit = true ∨ s.powered.thermal.runOn ≠ none
    unfold State.powered
    split_ifs with up
    · exact fun _ => up
    · exact fun pending => nomatch pending
  exact (body_standDown (body_emptySources h) waits plain focus).trans rfl

/-! ## What a stop makes of an action (R20, R45) -/

section
variable {x : Action} {silent : Bool} {s : State} (action : s.cx.action = some x)
include action

/-- An action that waits for the lamp, or holds its request, ends aborted. -/
theorem stopAction_held (held : x.phase = .warming ∨ (x.phase = .moving ∧ x.issued = false)) :
    stopAction silent s = endAction .aborted (setAction { x with silent := x.silent || silent } s) := by
  unfold stopAction
  rw [action]
  rcases held with phase | ⟨phase, issued⟩
  · simp only [phase]
  · simp only [phase, issued]
    rfl

/-- One whose request is issued is marked, and the request is stopped. -/
theorem stopAction_moves (phase : x.phase = .moving) (issued : x.issued = true) (going : x.stopped = false) :
    stopAction silent s = stopTransport (setAction { x with stopped := true, silent := x.silent || silent } s) := by
  unfold stopAction
  rw [action]
  simp only [phase, issued, going]
  rfl

end

/-- The request bears the mark of a stop (R45). -/
def Tray.stopped (q : TrayRequest) (t : Tray) : Tray := { t with request := some { q with stopRequested := true } }

/-- A transport that moves only takes the mark. -/
theorem body_stopTransport_marks {q : TrayRequest} {s t : State} (h : t.body = s.body) (request : s.tray.request = some q)
    (going : q.stopRequested = false) (state : s.tray.state ≠ .ready) :
    (stopTransport t).body = ({ s with tray := s.tray.stopped q } : State).body := by
  have marked := body_putTray_of (s.tray.stopped q) h
  have stays : ((putTray (s.tray.stopped q) t).tray.state) ≠ .ready := by
    rw [body_tray marked]
    exact state
  have passes : stopTransport t = putTray (s.tray.stopped q) t := by
    unfold stopTransport
    rw [body_tray h, request]
    dsimp only
    rw [if_neg (ne_true_of_eq_false going)]
    split
    · next ready => exact absurd ready stays
    · rfl
  rw [passes]
  exact marked

/-- A freeze in any power state: in STANDBY_PENDING an ON lamp has a fresh ramp in place of the one dropped (R79, R119). -/
theorem body_freezeRamp_renews {s t : State} (h : t.body = s.body) :
    ∃ ramp, (freezeRamp t).body = ({ s with lamp := { s.lamp with ramp := ramp } } : State).body
      ∧ (ramp = none ∨ s.lamp.state = .on) := by
  unfold freezeRamp
  rw [body_lamp h]
  cases ramp : s.lamp.ramp with
  | none =>
    refine ⟨none, h.trans ?_, .inl rfl⟩
    exact congrArg (fun r => ({ s with lamp := { s.lamp with ramp := r } } : State).body) ramp
  | some r =>
    have frozen := body_putLamp_of { s.lamp with ramp := none } h
    dsimp only
    by_cases renews : r.offMark = true ∧ s.thermal.power = .standbyPending ∧ s.lamp.state = .on
    · obtain ⟨mark, pending, on_⟩ := renews
      refine ⟨some (s.lamp.rampTo s.lamp.f s.hdr.settings.blankRate false true), ?_, .inr on_⟩
      rw [if_pos mark]
      unfold renewOffRamp
      rw [body_thermal frozen, body_lamp frozen, body_hdr frozen, if_pos ⟨pending, on_⟩]
      exact (body_takeRamp frozen).trans rfl
    · refine ⟨none, ?_, .inl rfl⟩
      cases mark : r.offMark with
      | false => exact frozen
      | true =>
        rw [if_pos rfl]
        unfold renewOffRamp
        rw [body_thermal frozen, body_lamp frozen, if_neg fun k => renews ⟨mark, k⟩]
        exact frozen

/-! ## STANDBY when it is taken (R213) -/

/-- The part stood by but for its lamp. -/
def State.standing (s : State) : State := { s.powered.emptied with
  cue := { s.cue.unframed with carrier := .absent }, clip := s.clip.faded s.now
  remote := s.emptied.remote.unfocused }

theorem standingBy_eq (s : State) : s.standingBy = s.standing.lampDown s.lamp.state := rfl

theorem lampDown_active (st : LampState) (s : State) : s.active.lampDown st = (s.lampDown st).active := by
  cases st <;> rfl

theorem lampDown_noted (st : LampState) (o : Option LogRecord) (s : State) :
    (s.noted o).lampDown st = (s.lampDown st).noted o := by
  cases st <;> rfl

theorem lampDown_filed (st : LampState) (o : Option LogRecord) (s : State) :
    (s.filed o).lampDown st = (s.lampDown st).filed o := by
  cases st <;> rfl

theorem standingBy_active (s : State) : s.active.standingBy = s.standingBy.active := lampDown_active s.lamp.state s.standing

theorem standingBy_noted (o : Option LogRecord) (s : State) : (s.noted o).standingBy = s.standingBy.noted o :=
  lampDown_noted s.lamp.state o s.standing

theorem standingBy_filed (o : Option LogRecord) (s : State) : (s.filed o).standingBy = s.standingBy.filed o :=
  lampDown_filed s.lamp.state o s.standing

theorem standingBy_frame (s : State) : s.standingBy.tray = s.tray
    ∧ s.standingBy.cx = { s.cx with queue := [], pendingCmd := false } ∧ s.standingBy.remote.netCount = 0
    ∧ s.standingBy.remote.oneShot = none ∧ s.standingBy.log = s.log ∧ s.standingBy.hdr = s.hdr := by
  obtain ⟨-, -, hdr, tray, cx, remote, log⟩ := lampDown_frame s.lamp.state s.standing
  exact ⟨tray, cx, congrArg Remote.netCount remote, congrArg Remote.oneShot remote, log, hdr⟩

/-- An ON lamp takes its new ramp whatever ramp it had. -/
theorem standingBy_ramp {ramp : Option Ramp} (s : State) (same : ramp = none ∨ s.lamp.state = .on) :
    ({ s with lamp := { s.lamp with ramp := ramp } } : State).standingBy
      = ({ s with lamp := { s.lamp with ramp := none } } : State).standingBy := by
  rcases same with rfl | on_
  · rfl
  · rw [standingBy_eq, standingBy_eq]
    change State.lampDown s.lamp.state _ = State.lampDown s.lamp.state _
    rw [on_]
    rfl

theorem unheld_ramp {x : Action} {ramp : Option Ramp} (s : State) :
    ({ s with lamp := { s.lamp with ramp := ramp } } : State).unheld x
      = { s.unheld x with lamp := { (s.unheld x).lamp with ramp := ramp } } := by
  unfold State.unheld Lamp.windowShut
  split <;> rfl

theorem unheld_state {x : Action} (s : State) : (s.unheld x).lamp.state = s.lamp.state := by
  unfold State.unheld Lamp.windowShut
  split <;> rfl

theorem unheld_powered {x : Action} (s : State) : s.powered.unheld x = (s.unheld x).powered := by
  unfold State.powered
  rw [unheld_state]
  rfl

/-- A STANDBY command is taken. -/
theorem takes_standby {s : State} {a : RamAccess} (next : TakesNext s a codeStandby) :
    ∃ w, endStatusWrite s = commandStandby w ∧ w.body = ((statusShown a s).active).body := by
  obtain ⟨w, lands, body, record, -⟩ := takesNext_takes next
  obtain ⟨-, -, -, -, -, -, -, -, abort, -, code⟩ := next
  exact ⟨w, lands.trans (routeCommand_standby (by rw [record]; exact abort) (by rw [record]; exact code)), body⟩

/-- The duty out of STANDBY (R108). -/
theorem dutyOf_up {u : State} (power : u.thermal.power ≠ .standby) : dutyOf u =
    if u.thermal.fanFault = true ∨ u.thermal.failTh = 4 ∨ u.thermal.failTg = 4 then 100
    else if u.lamp.state = .warming ∨ u.lamp.state = .on ∨ u.thermal.runOn ≠ none then max 55 (zoneDuty u.thermal.zone)
    else zoneDuty u.thermal.zone := by
  have fault : (u.thermal.fanFault || u.thermal.sensorFault) = true
      ↔ u.thermal.fanFault = true ∨ u.thermal.failTh = 4 ∨ u.thermal.failTg = 4 := by
    simp [Thermal.sensorFault]
  have warm : (u.lamp.state.lit || u.thermal.runOn.isSome) = true
      ↔ u.lamp.state = .warming ∨ u.lamp.state = .on ∨ u.thermal.runOn ≠ none := by
    rw [Bool.or_eq_true, ← or_assoc, Option.isSome_iff_ne_none]
    refine or_congr ?_ Iff.rfl
    cases u.lamp.state <;> simp [LampState.lit]
  unfold dutyOf
  simp only [if_neg power, fault, warm]

/-- A WAKE command is taken. -/
theorem takes_wake {s : State} {a : RamAccess} (next : TakesNext s a codeWake) :
    ∃ w, endStatusWrite s = endPlain .ok (wakeUnit w) ∧ w.body = ((statusShown a s).active).body := by
  obtain ⟨w, lands, body, record, -⟩ := takesNext_takes next
  obtain ⟨-, -, -, -, -, -, -, -, abort, -, code⟩ := next
  exact ⟨w, lands.trans (routeCommand_wake (by rw [record]; exact abort) (by rw [record]; exact code)), body⟩

/-- What the stop of the action has made of the part: o is the record that it posts. -/
structure Stopped (s u : State) (o : Option LogRecord) : Prop where
  clip : u.clip = s.clip
  hdr : u.hdr = s.hdr
  log : u.log = s.log
  last : plainLastSlot u = plainLastSlot s
  room : o ≠ none → logRoom s
  rest : ∀ v : State, v.tray = u.tray → v.cx = { u.cx with queue := [], pendingCmd := false } →
    v.remote.netCount = 0 → v.remote.oneShot = none → executorStep v = none

/-- A STANDBY command is taken in NORMAL, from what the stop of the action makes of the part. -/
theorem ends_stands {s u : State} {a : RamAccess} {o : Option LogRecord} (next : TakesNext s a codeStandby)
    (power : s.thermal.power = .normal) (plain : stopsPlainly s.clip) (stopped : Stopped s u o)
    (stops : ∀ t : State, t.body = (statusShown a s).active.powered.body →
      ∃ v : State, (stopAction false t).body = v.powered.body ∧ v.standingBy = (u.active.noted o).standingBy
        ∧ v.clip = u.clip ∧ v.hdr = u.active.hdr) :
    Ends .statusBlockWriteLanded s ((u.filed o).standingBy.ended .ok 0 (plainLastSlot s)) := by
  obtain ⟨w, lands, body⟩ := takes_standby next
  obtain ⟨settled, -, -, -, -, -, -, -, -, -, code⟩ := next
  obtain ⟨clip, hdr, log, last, room, rest⟩ := stopped
  obtain ⟨tray', cx', net', oneShot', log', hdr'⟩ := standingBy_frame u
  have enters := lands.trans (if_pos (by rw [body_thermal body]; exact power))
  obtain ⟨v, halts, same, clip', header⟩ := stops _ (body_powered body)
  have stood := body_standRest halts (by rw [clip', clip]; exact plain)
    (by rw [header, State.active, hdr]; simp [code]; decide)
  rw [same, standingBy_noted, standingBy_active] at stood
  have slot : plainLastSlot (u.standingBy.active.noted o) = plainLastSlot s := by
    rw [← last]
    unfold plainLastSlot
    rw [show (u.standingBy.active.noted o).tray = u.tray from tray']
  have ended : (endStatusWrite s).body
      = ((u.standingBy.ended .ok 0 (plainLastSlot s)).noted o).body := by
    rw [enters, enterStandby_eq, body_endPlain stood rfl, slot]
    rfl
  rw [standingBy_filed]
  have idle : executorStep (u.standingBy.ended .ok 0 (plainLastSlot s)) = none := rest _ tray' cx' net' oneShot'
  have part : (u.standingBy.ended .ok 0 (plainLastSlot s)).log = s.log
      ∧ (u.standingBy.ended .ok 0 (plainLastSlot s)).hdr.settings = s.hdr.settings :=
    ⟨log'.trans log, (congrArg Header.settings (hdr'.trans hdr) :)⟩
  obtain ⟨logs, settings⟩ := part
  refine ends_noted settled rfl (f := endStatusWrite) ended idle ?_ (fun some_ => ?_) (access_endStatusWrite s)
  · rw [logQuiet, logs, settings]
    exact settled.2.2.1
  · rw [logRoom, logs, settings]
    exact room some_

theorem emptied_idle {s v : State} (completion : s.tray.completion = none) (idle : s.cx.action = none)
    (tray : v.tray = s.tray) (cx : v.cx = { s.cx with queue := [], pendingCmd := false })
    (net : v.remote.netCount = 0) (oneShot : v.remote.oneShot = none) : executorStep v = none :=
  executorStep_idle (by rw [tray]; exact completion) (by rw [cx]; exact idle)
    ⟨by rw [cx], by rw [cx], net, oneShot⟩

/-- An action that the stop ends leaves an IDLE executor. -/
theorem stopped_unheld {x : Action} {l : Lamp} {s : State} {a : RamAccess} (settled : Settled s)
    (room : logRoom s) (o : Option LogRecord) : Stopped s (State.unheld x { statusShown a s with lamp := l }) o :=
  ⟨rfl, rfl, rfl, rfl, fun _ => room, fun _ => emptied_idle (completion_of_rest (s := s) settled.2.1) rfl⟩

theorem body_setAction_again {x : Action} {s t : State} (h : t.body = s.body) (action : s.cx.action = some x) :
    (setAction x t).body = s.body := by
  refine (body_setAction h).trans ?_
  change ({ s with cx := { s.cx with action := some x } } : State).body = _
  rw [← action]

section
variable {x : Action} {s t : State} (h : t.body = s.powered.body) (action : s.cx.action = some x)
  (unposted : x.unposted) (room : logRoom s)
include h action unposted room

/-- The stop of an action that waits, where the deferral has been evaluated. -/
theorem body_stopAction_held (held : x.phase = .warming ∨ (x.phase = .moving ∧ x.issued = false)) :
    (stopAction false t).body = ((s.unheld x).noted (x.failure .aborted)).powered.body := by
  rw [stopAction_held (by rw [body_cx h]; exact action) held, unsilenced]
  have ended := body_endAction_noted (code := .aborted) (body_setAction_again h action) action (by decide) unposted room
  rw [unheld_powered] at ended
  exact ended

/-- That of one in a phase of a ramp, up to the ramp that the lamp has then. -/
theorem body_stopAction_fades (moving : x.phase ≠ .moving) (warming : x.phase ≠ .warming) :
    ∃ ramp, (stopAction false t).body = ((State.unheld x { s with lamp := { s.lamp with ramp := ramp } }).noted
        (x.failure .aborted)).powered.body ∧ (ramp = none ∨ s.lamp.state = .on) := by
  obtain ⟨ramp, frozen, same⟩ := body_freezeRamp_renews (body_setAction_again h action)
  refine ⟨ramp, ?_, same⟩
  rw [stopAction_fades (by rw [body_cx h]; exact action) moving warming, unsilenced]
  have ended := body_endAction_noted (s := State.powered { s with lamp := { s.lamp with ramp := ramp } }) (code := .aborted)
    frozen action (by decide) unposted room
  rw [unheld_powered] at ended
  exact ended

end

/-- Settles O16. -/
theorem powerCommandsWhenTaken : Obligations.PowerCommandsWhenTaken := by
  intro s a x q
  refine ⟨fun next power => ?_, fun next power => ?_, fun next power => ?_, fun next power plain => ?_⟩
  · obtain ⟨w, lands, body⟩ := takes_wake next
    exact ends_justEnds next.1 (lands.trans (congrArg (endPlain .ok) (if_pos (by rw [body_thermal body]; exact power)))) body
  · intro h zone d
    obtain ⟨w, lands, body⟩ := takes_wake next
    have settled := next.1
    have woken : (wakeUnit w).body = _ := (congrArg State.body
      (if_neg (by rw [body_thermal body]; exact power))).trans (body_decideDuty (body_putThermal_of _ body))
    rw [body_thermal body] at woken
    have duty : dutyOf { (statusShown a s).active with thermal := { h with power := .normal } } = d := by
      refine (dutyOf_up (u := { (statusShown a s).active with thermal := { h with power := .normal } }) nofun).trans ?_
      rfl
    have ends := ends_endsPlain settled lands woken rfl (executor_rest_code (s := s) settled.2.1 rfl rfl rfl rfl rfl rfl rfl)
      rfl rfl
    exact (congrArg (fun n => Ends .statusBlockWriteLanded s (State.ended .ok 0 (plainLastSlot s) { statusShown a s with
      thermal := { h with
        power := .normal, duty := n, tachStart := if h.duty = 0 ∧ n ≠ 0 then s.now else h.tachStart } })) duty).mp ends
  · obtain ⟨w, lands, body⟩ := takes_standby next
    exact ends_justEnds next.1 (lands.trans (if_neg (by rw [body_thermal body]; exact power))) body
  intro v t stands
  have completion := completion_of_rest next.1.2.1
  refine ⟨fun idle => ?_, fun action unposted room => ⟨fun moving warming => ?_, fun held => ?_⟩,
    fun action phase issued going request free state => ?_⟩
  · refine ends_stands (u := v) (o := none) next power plain
      ⟨rfl, rfl, rfl, rfl, fun some_ => absurd rfl some_, fun _ => emptied_idle completion idle⟩
      fun t body => ⟨v.active, ?_, rfl, rfl, rfl⟩
    rw [stopAction_none (by rw [body_cx body]; exact idle)]
    exact body
  · have quiet : x.unposted := fun command => absurd (unposted.symm.trans command) (by decide)
    rw [actionEnded_filed _ (by decide) quiet]
    refine ends_stands (u := State.unheld x { v with lamp := { s.lamp with ramp := none } }) next power plain
      (stopped_unheld next.1 room _) fun t body => ?_
    obtain ⟨ramp, halts, same⟩ := body_stopAction_fades (s := v.active) body action quiet room moving warming
    refine ⟨_, halts, ?_, rfl, rfl⟩
    rw [standingBy_noted, standingBy_noted]
    refine congrArg (State.noted (x.failure .aborted)) ?_
    rw [unheld_ramp, standingBy_ramp _ (same.imp_right fun on_ => (unheld_state v.active).trans on_)]
    exact congrArg State.standingBy (unheld_ramp v.active).symm
  · have quiet : x.unposted := fun command => absurd (unposted.symm.trans command) (by decide)
    rw [actionEnded_filed _ (by decide) quiet]
    exact ends_stands (u := v.unheld x) next power plain (stopped_unheld (l := s.lamp) next.1 room _) fun t body =>
      ⟨_, body_stopAction_held (s := v.active) body action quiet room held, rfl, rfl, rfl⟩
  · have moving : t.state ≠ .ready := by
      rcases state with state | state | state | state | state | state <;> rw [state] <;> decide
    refine ends_stands (u := { v.doing { x with stopped := true } with tray := t.stopped q }) (o := none) next power plain
      ⟨rfl, rfl, rfl, rfl, fun some_ => absurd rfl some_, fun w tray cx _ _ => ?_⟩ fun t body => ⟨_, ?_, rfl, rfl, rfl⟩
    · exact executorStep_busy (x := { x with stopped := true }) (by rw [tray]; exact completion) (by rw [cx]; rfl)
        (by simp [phase])
    · rw [stopAction_moves (by rw [body_cx body]; exact action) phase issued going, Bool.or_false]
      exact body_stopTransport_marks (s := State.doing { x with stopped := true } v.active.powered) (body_setAction body)
        request free moving

end Sys2Proof.Machine
end
section
/-! Transitions of the cue line and the aligner (R125 to R129, R148). -/

namespace Sys2Proof.Machine

/-! ## The carrier (R126, R127) -/

theorem lostBefore_iff {time : Nat} {s : State} :
    lostBefore time s = true ↔ s.cue.carrier = .present ∧ 500000 < time - s.cue.lastValid := by
  rw [lostBefore, Bool.and_eq_true, decide_eq_true_iff, decide_eq_true_iff]
  rfl

section
variable {e : CueEdge} {s : State}

theorem cueEdge_standby (power : s.thermal.power ≠ .normal) : cueEdge e s = s := if_pos power

variable (power : s.thermal.power = .normal)
include power

theorem cueEdge_absent (carrier : s.cue.carrier = .absent) :
    cueEdge e s = startRun (max s.now (s.cue.lastTransition + e.interval)) s := by
  have early : lostBefore (s.cue.lastTransition + e.interval) s = false := by simp [lostBefore, carrier]
  unfold cueEdge
  dsimp only
  rw [if_neg (not_not.2 power), early]
  simp only [Bool.false_eq_true, if_false, carrier]

theorem cueEdge_acquiring (carrier : s.cue.carrier = .acquiring) :
    cueEdge e s = acquireEdge e (s.cue.lastTransition + e.interval) s := by
  have early : lostBefore (s.cue.lastTransition + e.interval) s = false := by simp [lostBefore, carrier]
  unfold cueEdge
  dsimp only
  rw [if_neg (not_not.2 power), early]
  simp only [Bool.false_eq_true, if_false, carrier]

theorem cueEdge_tracks (kept : s.cue.carrier = .present
    ∧ s.cue.lastTransition + e.interval - s.cue.lastValid ≤ 500000) :
    cueEdge e s = trackEdge e (s.cue.lastTransition + e.interval) s := by
  have early : lostBefore (s.cue.lastTransition + e.interval) s = false := by
    rw [Bool.eq_false_iff, ne_eq, lostBefore_iff]
    exact fun lost => Nat.not_lt.2 kept.2 lost.2
  unfold cueEdge
  dsimp only
  rw [if_neg (not_not.2 power), early]
  simp only [Bool.false_eq_true, if_false, kept.1]

theorem cueEdge_late (late : s.cue.carrier = .present
    ∧ 500000 < s.cue.lastTransition + e.interval - s.cue.lastValid) {t : State} (drops : dropCarrier s = t)
    (absent : t.cue.carrier = .absent) (now : t.now = s.now) :
    cueEdge e s = startRun (max s.now (s.cue.lastTransition + e.interval)) t := by
  have lost : lostBefore (s.cue.lastTransition + e.interval) s = true :=
    lostBefore_iff.2 late
  unfold cueEdge
  dsimp only
  rw [if_neg (not_not.2 power), lost, if_pos rfl, drops, now]
  simp only [absent]

end

theorem body_startRun {time : Nat} {s t : State} (h : t.body = s.body) : (startRun time t).body = ({ s with
    cue := { s.cue with
      carrier := .acquiring, runStart := time, runIntervals := [], lastTransition := time } } : State).body := by
  unfold startRun
  rw [body_cue h]
  exact body_putCue_of _ h

/-! ## One chip (R125) -/

theorem roundDiv_one {i p : Nat} (near : 4 * (i - p) ≤ p ∧ 4 * (p - i) ≤ p) (pos : 0 < p) : roundDiv i p = 1 := by
  unfold roundDiv
  exact Nat.div_eq_of_lt_le (by omega) (by omega)

theorem chipsValid_one {i p : Nat} (near : 4 * (i - p) ≤ p ∧ 4 * (p - i) ≤ p) : chipsValid 1 i p = true := by
  rw [chipsValid_iff]
  omega

theorem chipsValid_long {i p : Nat} (pos : 0 < p) (long : 7 * p < i) : chipsValid (roundDiv i p) i p = false := by
  have seven : 7 ≤ roundDiv i p := by
    unfold roundDiv
    rw [Nat.le_div_iff_mul_le (by omega)]
    omega
  rw [Bool.eq_false_iff]
  intro valid
  obtain ⟨-, six, -⟩ := (chipsValid_iff _ _ _).1 valid
  omega

theorem trackPeriod_one (p i : Nat) : trackPeriod p 1 i = max 1282 (min 2381 ((7 * p + i) / 8)) := by
  unfold trackPeriod clampTo Config.chipMin Config.chipMax
  repeat' split
  all_goals omega

/-- The decoder at a transition of this time, before its chips. -/
def CueTrack.reached (time : Nat) (c : CueTrack) : CueTrack := { c with lastTransition := time }

/-- The decoder after a valid transition of one chip. -/
def CueTrack.ticked (i p time : Nat) (c : CueTrack) : CueTrack :=
  { c with period := max 1282 (min 2381 ((7 * p + i) / 8)), lastValid := time }

section
variable {e : CueEdge} {time : Nat} {s : State} (pos : 0 < s.cue.period)

include pos in
theorem body_trackEdge_invalid (long : 7 * s.cue.period < e.interval) : (trackEdge e time s).body = ({ s with
    cue := { s.cue with lastTransition := time, spoiled := s.cue.locked } } : State).body := by
  have reached := body_putCue_of (s.cue.reached time) (s := s) rfl
  have effect : trackEdge e time s = putCue { (putCue (s.cue.reached time) s).cue with
      spoiled := (putCue (s.cue.reached time) s).cue.locked } (putCue (s.cue.reached time) s) :=
    if_neg (ne_true_of_eq_false (chipsValid_long pos long))
  rw [effect, body_cue reached]
  exact (body_putCue_of _ reached).trans rfl

include pos in
/-- A valid transition of one chip, from what the chip makes of the decoder. -/
theorem body_trackEdge_chip (near : 4 * (e.interval - s.cue.period) ≤ s.cue.period
    ∧ 4 * (s.cue.period - e.interval) ≤ s.cue.period) (decoding : s.hdr.settings.decoding = true) {v : State}
    (chip : ∀ t : State, t.body = ({ s with cue := s.cue.reached time } : State).body →
      (takeChip e.tone time t).body = v.body) :
    (trackEdge e time s).body = ({ v with cue := v.cue.ticked e.interval s.cue.period time } : State).body := by
  have reached := body_putCue_of (s.cue.reached time) (s := s) rfl
  have taken := chip _ reached
  have on_ : (putCue (s.cue.reached time) s).hdr.settings.decoding = true := by rw [body_hdr reached]; exact decoding
  have effect : trackEdge e time s = putCue ((takeChip e.tone time (putCue (s.cue.reached time) s)).cue.ticked e.interval
      s.cue.period time) (takeChip e.tone time (putCue (s.cue.reached time) s)) := by
    unfold trackEdge
    dsimp only
    rw [roundDiv_one near pos, if_pos (chipsValid_one near), trackPeriod_one]
    change putCue { (if (putCue (s.cue.reached time) s).hdr.settings.decoding then _ else _ : State).cue with
      period := _, lastValid := _ } (if (putCue (s.cue.reached time) s).hdr.settings.decoding then _ else _) = _
    rw [if_pos on_]
    rfl
  rw [effect, body_cue taken]
  exact body_putCue_of _ taken

end

/-! ## The aligner (R128, R129) -/

section
variable {tone : Bool} {time : Nat} {s t : State} (h : t.body = s.body)
include h

/-- The chip that completes FILL, FILL and START. -/
theorem body_takeChip_locks (hunt : s.cue.locked = false) (window : s.cue.window.length = 17)
    (pattern : bitsNat (s.cue.window ++ [tone]) = huntPattern) : (takeChip tone time t).body = ({ s with cue := { s.cue with
      locked := true, window := [], group := [], spoiled := false, frame := .collecting, fields := [] } } : State).body := by
  have whole : (s.cue.window ++ [tone]).drop (s.cue.window.length + 1 - 18) = s.cue.window ++ [tone] := by
    rw [window]
    rfl
  have locked := body_putCue_of { s.cue with locked := true, window := [], group := [], spoiled := false } h
  unfold takeChip
  rw [body_cue h, if_neg (ne_true_of_eq_false hunt)]
  dsimp only
  rw [whole, if_pos ⟨by simp [window], pattern⟩]
  unfold beginFrame
  rw [body_cue locked]
  exact (body_putCue_of _ locked).trans rfl

/-- The aligner as it hands a group over. -/
theorem takeChip_group (locked : s.cue.locked = true) (six : (s.cue.group ++ [tone]).length = 6)
    (clean : s.cue.spoiled = false) : ∃ u, takeChip tone time t = takeGroup (classifyGroup (s.cue.group ++ [tone])) time u
      ∧ u.body = ({ s with cue := { s.cue with group := [], spoiled := false } } : State).body := by
  refine ⟨putCue { s.cue with group := [], spoiled := false } t, ?_, body_putCue_of _ h⟩
  unfold takeChip
  rw [body_cue h, if_pos locked]
  dsimp only
  rw [if_neg (by omega), clean]
  rfl

theorem takeGroup_hunts {g : CueGroup} (between : s.cue.frame = .between) (fill : g ≠ .fill) (start : g ≠ .start) :
    takeGroup g time t = toHunt t := by
  unfold takeGroup
  rw [body_cue h, between]
  cases g with
  | fill => exact absurd rfl fill
  | start => exact absurd rfl start
  | _ => rfl

theorem takeGroup_invalid (collecting : s.cue.frame = .collecting) :
    takeGroup .invalid time t = toHunt (failFrame .invalidGroup t.cue.fields.length t) := by
  unfold takeGroup
  rw [body_cue h, collecting]

/-- A frame that fails where errors are not logged. -/
theorem body_failFrame_quiet {cause : FrameCause} {n : Nat} (quiet : s.hdr.settings.errorLog = false) :
    (failFrame cause n t).body = (State.latched .cueFault { s with cue := s.cue.failed }).body := by
  rw [failFrame_eq, if_neg (by rw [body_hdr h]; exact ne_true_of_eq_false quiet)]
  exact body_markFailed h

end

/-- Settles O47, transition by transition. -/
theorem transitionsAndTheAligner : Obligations.TransitionsAndTheAligner := by
  intro s e settled c time run last8 inRange oneChip tracked group grouped hunt late kept again
  have same {c' : CueTrack} : SameExecutor s { s with cue := c' } := ⟨rfl, rfl, rfl, rfl, rfl, rfl⟩
  have quietly {i : Instr} (hc : exec i s = .next (live (cueEdges [e]) s)) {u : State} (body : (cueEdge e s).body = u.body)
      (same : SameExecutor s u) (ring : u.hdr.settings.ringBase = s.hdr.settings.ringBase) (log : u.log = s.log) :
      Ends i s u := ends_quietly settled hc (f := cueEdges [e]) body same ring log (by simp)
  refine ⟨fun power => ?_, fun power => ⟨fun carrier => ?_, fun carrier out => ?_, fun carrier inside early => ?_,
    fun carrier inside long => ?_, fun late between => ?_, fun late progress quiet => ?_, fun kept pos long => ?_,
    fun kept near pos unlocked window pattern decoding => ?_, fun kept grouped between fill start => ?_,
    fun kept grouped collecting invalid quiet => ?_⟩⟩
  · exact ends_nothing settled rfl (f := cueEdges [e]) (cueEdge_standby power)
  · exact quietly rfl ((congrArg State.body (cueEdge_absent power carrier)).trans (body_startRun rfl)) same rfl rfl
  · have effect := (cueEdge_acquiring power carrier).trans (if_neg out)
    exact quietly rfl ((congrArg State.body effect).trans (body_startRun rfl)) same rfl rfl
  · have effect := (cueEdge_acquiring power carrier).trans ((if_pos inside).trans (if_neg (Nat.not_le.2 early)))
    exact quietly rfl ((congrArg State.body effect).trans (body_putCue_of _ rfl)) same rfl rfl
  · have effect := (cueEdge_acquiring power carrier).trans ((if_pos inside).trans (if_pos long))
    exact quietly rfl ((congrArg State.body effect).trans (body_putCue_of _ rfl)) same rfl rfl
  · have away := body_carrierAway (s := s) rfl
    have effect := cueEdge_late power late (dropCarrier_between between) (by rw [body_cue away]; rfl)
      (by rw [body_now away]; rfl)
    exact quietly rfl ((congrArg State.body effect).trans ((body_startRun away).trans rfl)) ⟨rfl, rfl, rfl, rfl, rfl, rfl⟩
      rfl rfl
  · have failed := body_failFrame_quiet (cause := .truncated) (n := s.cue.fields.length) (body_carrierAway (s := s) rfl) quiet
    have effect := cueEdge_late power late (dropCarrier_fails progress) (by rw [body_cue failed]; rfl)
      (by rw [body_now failed]; rfl)
    exact quietly rfl ((congrArg State.body effect).trans ((body_startRun failed).trans rfl))
      ⟨rfl, rfl, rfl, rfl, rfl, rfl⟩ rfl rfl
  · have effect := cueEdge_tracks power kept
    exact quietly rfl ((congrArg State.body effect).trans (body_trackEdge_invalid pos long)) same rfl rfl
  · have effect := cueEdge_tracks power kept
    exact quietly rfl ((congrArg State.body effect).trans ((body_trackEdge_chip (e := e) (time := time) pos near
      decoding fun t h => body_takeChip_locks h unlocked window pattern).trans rfl)) same rfl rfl
  · obtain ⟨near, pos, locked, six, clean, decoding⟩ := grouped
    have effect := cueEdge_tracks power kept
    refine quietly rfl ((congrArg State.body effect).trans ((body_trackEdge_chip (e := e) (time := time) pos near decoding
      (v := { s with cue := hunt (s.cue.reached time) }) fun t h => ?_).trans rfl)) same rfl rfl
    obtain ⟨u, takes, body⟩ := takeChip_group h (tone := e.tone) (time := time) locked six clean
    have hunts := takes.trans (takeGroup_hunts body between fill start)
    rw [hunts]
    exact (body_toHunt body).trans rfl
  · obtain ⟨near, pos, locked, six, clean, decoding⟩ := grouped
    have effect := cueEdge_tracks power kept
    refine quietly rfl ((congrArg State.body effect).trans ((body_trackEdge_chip (e := e) (time := time) pos near decoding
      (v := State.latched .cueFault { s with cue := hunt (s.cue.reached time).failed }) fun t h => ?_).trans rfl))
      ⟨rfl, rfl, rfl, rfl, rfl, rfl⟩ rfl rfl
    obtain ⟨u, takes, body⟩ := takeChip_group h (tone := e.tone) (time := time) locked six clean
    have read : classifyGroup (s.cue.group ++ [e.tone]) = .invalid := invalid
    change takeChip e.tone time t = takeGroup (classifyGroup (s.cue.group ++ [e.tone])) time u at takes
    rw [takes, read, takeGroup_invalid body collecting]
    exact (body_toHunt (body_failFrame_quiet body quiet)).trans rfl

end Sys2Proof.Machine
end
section
/-! STOP at its trigger (R20, R21, R45, R182, R205). -/

namespace Sys2Proof.Machine

/-! ## A header write of which something comes at once -/

/-- **A header write of a ready part**: granted, with what comes about at once with what its word means. -/
theorem granted_headerCourses {c : Instr} {i : Nat} {w : LaneWrite} {s u : State} (ready : HostReady s)
    (hc : exec c s = .next (headerWrite i w s)) (hi : i < 64)
    (effect : ∀ port dirty inFlight, port.hostHas →
      let t := courses (headerMeans i w (writtenWord i w s) ((written i w s).traffic port dirty inFlight))
      t.body = u.body ∧ t.port.hostHas) : Granted c s u := by
  have header := classify_headerAddr hi s
  obtain ⟨x, port, dirty, inFlight, has, ha, hcls, granted⟩ := write_granted (w := w) (a := headerAddr i) ready
    (by rw [header]; decide)
  obtain ⟨port', has', evaluated⟩ := evaluateHeader_traffic (i := i) (w := w) (s := s) (dirty := dirty)
    (inFlight := inFlight) has
  have handed : handOn x w (({ s with mem := memStore s.mem (headerAddr i) w } : State).traffic port dirty inFlight)
      = headerMeans i w (writtenWord i w s) ((written i w s).traffic port' dirty inFlight) := by
    rw [← evaluated]
    unfold handOn
    rw [hcls, header, ha, toNat_headerAddr hi]
    simp [ready.1]
  obtain ⟨body, has⟩ := effect port' dirty inFlight has'
  rw [← handed] at body has
  have asked := onlyAsked_present (courses (handOn x w
    (({ s with mem := memStore s.mem (headerAddr i) w } : State).traffic port dirty inFlight)))
  refine ⟨_, hc, ?_, ?_, ?_⟩ <;> rw [headerWrite, granted]
  · exact asked.body.trans body
  · exact (congrArg (Option.map (·.who)) asked.ram).trans has.ram
  · exact (congrArg (Option.map (·.inRam)) asked.access).trans has.access

theorem headerMeans_stop (st : CmdStore) (s t : State) : headerMeans 0 (CmdStore.write st codeStop)
    (writtenWord 0 (CmdStore.write st codeStop) s) t = stopCommand t := by
  unfold headerMeans triggerCommand
  rw [if_pos rfl, if_pos (storesLow_command st _), loByte_command]
  rfl

/-- STOP of a ready part, from what comes about with it. -/
theorem granted_stop {st : CmdStore} {s u : State} (ready : HostReady s)
    (stops : ∀ z : State, z.body = (written 0 (CmdStore.write st codeStop) s).body →
      (courses (stopCommand z)).body = u.body ∧ (courses (stopCommand z)).port = z.port) : Granted (.stop st) s u := by
  refine granted_headerCourses (i := 0) (w := CmdStore.write st codeStop) ready rfl (by decide)
    fun port dirty inFlight has => ?_
  obtain ⟨body, same⟩ := stops _ (body_traffic port dirty inFlight _)
  rw [headerMeans_stop]
  exact ⟨body, by rw [same]; exact has⟩

/-- One with which nothing further comes about. -/
theorem granted_stop_rests {st : CmdStore} {s u : State} (ready : HostReady s) (rest : executorStep u = none)
    (quiet : logQuiet u) (stops : ∀ z : State, z.body = (written 0 (CmdStore.write st codeStop) s).body →
      (stopCommand z).body = u.body) : Granted (.stop st) s u := by
  refine granted_stop ready fun z body => ?_
  have same := stops z body
  rw [courses_of_rest ((executorStep_none_of_body same).2 rest) ((logQuiet_of_body same).2 quiet)]
  exact ⟨same, by simp⟩

/-! ## What STOP does (R205) -/

section
variable {s : State}

theorem stopFocusCommand_other (other : ∀ f, s.remote.focus = some f → f.owner ≠ .command) : stopFocusCommand s = s := by
  unfold stopFocusCommand
  cases focus : s.remote.focus with
  | none => rfl
  | some f => exact if_neg (other f focus)

/-- The record of no command that a STOP would mark. -/
abbrev unmarked (s : State) : Prop :=
  s.hdr.record.state = .accepted → s.hdr.record.code ∉ executorCodes ∧ s.hdr.record.code ≠ codeFocus

theorem stopCommand_unmarked (plain : unmarked s) : stopCommand s = stopFocusCommand (stopExecutor s) := by
  unfold stopCommand
  dsimp only
  rw [if_neg]
  rintro ⟨accepted, codes⟩
  obtain ⟨executor, focus⟩ := plain accepted
  rcases codes with listed | same
  · exact executor (List.contains_iff_mem.1 listed)
  · exact focus same

theorem stopCommand_marks (accepted : s.hdr.record.state = .accepted)
    (codes : s.hdr.record.code ∈ executorCodes ∨ s.hdr.record.code = codeFocus) : stopCommand s
      = stopFocusCommand (stopExecutor (putRecord { s.hdr.record with abortMark := true } s)) := by
  unfold stopCommand
  dsimp only
  rw [if_pos ⟨accepted, codes.imp_left List.contains_iff_mem.2⟩]

end

section
variable {x : Action} {s : State} (plain : unmarked s) (focus : s.remote.focus = none)
include plain focus

/-- A STOP that finds no focus run ends with the executor's part. -/
theorem stopCommand_executor : stopCommand s = stopExecutor s := by
  rw [stopCommand_unmarked plain, stopFocusCommand_none (by simpa using focus)]

/-- One that finds an action in a phase of a ramp, and no command pending, ends it. -/
theorem stopCommand_fades (action : s.cx.action = some x) (moving : x.phase ≠ .moving) (warming : x.phase ≠ .warming)
    (pending : s.cx.pendingCmd = false) :
    stopCommand s = endAction .aborted (freezeRamp (setAction x s)) := by
  rw [stopCommand_executor plain focus, stopExecutor, stopAction_fades action moving warming, unsilenced,
    stopPending_none (by rw [pendingCmd_endAction]; simp [setAction, pending])]

/-- One that finds an action that waits for the lamp, or holds its request. -/
theorem stopCommand_held (action : s.cx.action = some x)
    (held : x.phase = .warming ∨ (x.phase = .moving ∧ x.issued = false)) (pending : s.cx.pendingCmd = false) :
    stopCommand s = endAction .aborted (setAction x s) := by
  rw [stopCommand_executor plain focus, stopExecutor, stopAction_held action held, unsilenced,
    stopPending_none (by rw [pendingCmd_endAction]; simp [setAction, pending])]

end

theorem unmarked_of_body {s t : State} (h : t.body = s.body) (plain : unmarked s) : unmarked t := by
  rw [unmarked, body_hdr h]
  exact plain

/-- A stop of an action that has been stopped. -/
theorem stopAction_again {x : Action} {silent : Bool} {s : State} (action : s.cx.action = some x) (phase : x.phase = .moving)
    (issued : x.issued = true) (stopped : x.stopped = true) :
    stopAction silent s = setAction { x with silent := x.silent || silent } s := by
  unfold stopAction
  rw [action]
  simp only [phase, issued, stopped]
  rfl

/-! ## An answer of the transport at once (R45) -/

theorem body_actionEnded {x : Action} {code : ResultCode} {values : Nat × Nat} {s t : State} (h : t.body = s.body) :
    (t.actionEnded x code values).body = (s.actionEnded x code values).body := by
  rw [eq_traffic h, actionEnded_eq, actionEnded_eq, State.posted, State.posted]
  cases x.source with
  | command => cases x.silent <;> rfl
  | remote => rfl
  | tape | injected =>
    dsimp only
    split
    · rfl
    · rw [logged_given, logged_given]
      rfl

theorem body_moveEnded {x : Action} {code : ResultCode} {s t : State} (h : t.body = s.body) :
    (t.moveEnded x code).body = (s.moveEnded x code).body := by
  unfold State.moveEnded
  rw [body_tray h]
  exact body_actionEnded h

/-- **The transport answers**, and the action that waits for it ends with what comes about (R10, R22). -/
theorem courses_moveEnded {v t : State} {x : Action} {o : TrayOutcome} {code : ResultCode}
    (body : t.body = ({ v with tray := v.tray.completed o } : State).body) (action : v.cx.action = some x)
    (phase : x.phase = .moving) (issued : x.issued = true) (alone : endsAlone v x)
    (completion : v.tray.completion = none) (result : x.resultOf o = some code) (quiet : logQuiet v) :
    (courses t).body = (v.moveEnded x code).body ∧ (courses t).port = t.port := by
  obtain ⟨sources, room, active⟩ := alone
  obtain ⟨w, wBody, wPort, step⟩ := courses_answered body completion
  rw [transportCompleted_ends (by rw [body_cx wBody]; exact action) phase issued result] at step
  have answered := body_trayAnswered (x := x)
    (c := { outcome := o, remaining := v.tray.remaining, lastSlot := v.tray.lastSlot }) wBody
  have same : (v.trayAnswered x (v.tray.remaining, v.tray.lastSlot)).actionEnded
      (x.answeredWith (v.tray.remaining, v.tray.lastSlot)) code
      ((x.answeredWith (v.tray.remaining, v.tray.lastSlot)).answer
        (v.trayAnswered x (v.tray.remaining, v.tray.lastSlot))) = v.moveEnded x code :=
    actionEnded_trayAnswered x code _ v
  have course := courses_step step (executorStep_endAction (code := code) answered rfl completion sources)
  refine ⟨?_, ?_⟩
  · rw [course, ← same]
    exact body_logPump_endAction answered rfl quiet room active
  · rw [course, port_logPump]
    simp [wPort, trayAnswered, setAction, apply_ite State.port]

/-- A request whose plan waits for a record is answered at the stop. -/
theorem body_stopTransport_answers {q : TrayRequest} {s t : State} (h : t.body = s.body) (request : s.tray.request = some q)
    (going : q.stopRequested = false) (state : s.tray.state = .ready) :
    (stopTransport t).body = ({ s with
      tray := Tray.completed .stopped (Tray.answered { s.tray with destPin := none })
      shadow := (releaseDest s).shadow } : State).body := by
  have marked := body_putTray_of (s.tray.stopped q) h
  have released := body_releaseDest marked
  have same : (releaseDest ({ s with tray := s.tray.stopped q } : State)).shadow = (releaseDest s).shadow :=
    shadow_releaseDest_congr ⟨rfl, rfl, rfl, rfl, rfl, rfl⟩
  rw [same] at released
  have ready : (putTray (s.tray.stopped q) t).tray.state = .ready := by
    rw [body_tray marked]
    exact state
  have passes : stopTransport t = endRequest .stopped (releaseDest (putTray (s.tray.stopped q) t)) := by
    unfold stopTransport
    rw [body_tray h, request]
    dsimp only
    rw [if_neg (ne_true_of_eq_false going)]
    split
    · rfl
    · next waits => exact absurd ready waits
  rw [passes]
  have answer : Tray.answered { s.tray.stopped q with destPin := none } = Tray.answered { s.tray with destPin := none } :=
    (answered_some (t := { s.tray.stopped q with destPin := none }) rfl).trans
      (answered_some (t := { s.tray with destPin := none }) request).symm
  exact (body_endRequest (r := { q with stopRequested := true }) released rfl).trans
    (congrArg (fun a => ({ s with tray := Tray.completed .stopped a, shadow := (releaseDest s).shadow } : State).body)
      answer)

/-- A course that ends with the record, if there is one, staged. -/
theorem body_courses_noted {o : Option LogRecord} {v t : State} (h : t.body = (v.noted o).body)
    (executor : executorStep v = none) (quiet : logQuiet v) (room : o ≠ none → logRoom v) :
    (courses t).body = (v.filed o).body ∧ (courses t).port = t.port := by
  have still : executorStep t = none := (executorStep_none_of_body h).2 (executor_rest executor ⟨rfl, rfl, rfl, rfl, rfl, rfl⟩)
  have course : courses t = logPump 5 t := by rw [courses, settle_of_none 40 still]
  rw [course]
  refine ⟨?_, port_logPump _ _⟩
  cases o with
  | none =>
    rw [logPump_of_quiet _ ((logQuiet_of_body h).2 quiet)]
    exact h
  | some r =>
    refine (body_logPump_staged (r := r) h (room (Option.some_ne_none r))).trans ?_
    rw [logged_given]
    rfl

/-- STOP ends the action. -/
theorem granted_stop_ends {st : CmdStore} {y : Action} {s v : State} (ready : HostReady s)
    (stops : ∀ z : State, z.body = (written 0 (CmdStore.write st codeStop) s).body →
      ∃ t, stopCommand z = endAction .aborted t ∧ t.body = v.body)
    (action : v.cx.action = some y) (alone : endsAlone v y) (completion : v.tray.completion = none) (quiet : logQuiet v) :
    Granted (.stop st) s (v.actionEnded y .aborted (y.answer v)) := by
  obtain ⟨sources, room, active⟩ := alone
  refine granted_stop ready fun z body => ?_
  obtain ⟨t, ends, same⟩ := stops z body
  have course : courses (stopCommand z) = logPump 5 (stopCommand z) := by
    rw [courses, ends, settle_of_none 40 (executorStep_endAction same action completion sources)]
  rw [course, port_logPump]
  exact ⟨by rw [ends]; exact body_logPump_endAction same action quiet room active, by simp⟩

/-- Settles O12, by what the STOP finds. -/
theorem stopActsAtTheTrigger : Obligations.StopActsAtTheTrigger := by
  intro st s y q ready w r
  have rest := ready.2.1
  have quiet := ready.2.2.1
  have completion := completion_of_rest rest
  have unaccepted (other : r.state ≠ .accepted) : unmarked s := fun accepted => absurd accepted other
  refine ⟨fun ⟨pending, _⟩ idle focus codes => ?_, fun ⟨pending, _⟩ idle focus accepted codes => ?_,
    fun f focus ⟨pending, _⟩ idle owner active code => ?_, fun action moving warming alone other focus power => ?_,
    fun ⟨action, warming, alone⟩ other focus => ?_, fun action moving held alone other focus => ?_,
    fun action moving issued going request free focus => ?_, fun action moving issued stopped pending other focus => ?_,
    fun awaits going free state other focus => ?_,
    fun action moving warming unposted pending queue net oneShot room active focus power => ?_⟩
  · refine granted_stop_rests ready (executor_rest rest ⟨rfl, rfl, rfl, rfl, rfl, rfl⟩) quiet fun z body => ?_
    rw [stopCommand_unmarked (unmarked_of_body body codes), stopExecutor,
      stopAction_none (by rw [body_cx body]; exact idle), stopPending_none (by rw [body_cx body]; exact pending),
      stopFocusCommand_other (by rw [body_remote body]; exact focus)]
    exact body
  · refine granted_stop_rests ready (executor_rest_record rest pending rfl rfl rfl rfl rfl) quiet fun z body => ?_
    have marked := body_putRecord_of { r with abortMark := true } body
    have code : z.hdr.record = r := by rw [body_hdr body]; rfl
    rw [stopCommand_marks (by rw [code]; exact accepted) (by rw [code]; exact codes), code, stopExecutor,
      stopAction_none (by rw [body_cx marked]; exact idle), stopPending_none (by rw [body_cx marked]; exact pending),
      stopFocusCommand_none (by rw [body_remote marked]; exact focus)]
    exact marked
  · have run : commandRun (written 0 w s) := ⟨f, focus, owner, active, code⟩
    refine granted_stop_rests ready (executor_rest_ended (s := s) rest ⟨rfl, rfl, rfl, rfl, rfl, rfl⟩) quiet fun z body => ?_
    have plain : unmarked s := fun accepted => absurd (active.symm.trans accepted) (by decide)
    rw [stopCommand_unmarked (unmarked_of_body body plain), stopExecutor,
      stopAction_none (by rw [body_cx body]; exact idle), stopPending_none (by rw [body_cx body]; exact pending)]
    have ends : stopFocusCommand z = endFocus .aborted z := by
      have held : z.remote.focus = some f := by rw [body_remote body]; exact focus
      unfold stopFocusCommand
      rw [held]
      exact if_pos owner
    rw [ends]
    exact body_endFocus_command body run
  · refine granted_stop_ends (v := { written 0 w s with lamp := { s.lamp with ramp := none } }) ready (fun z body => ?_)
      action alone completion quiet
    refine ⟨_, stopCommand_fades (unmarked_of_body body (unaccepted other)) (by rw [body_remote body]; exact focus)
      (by rw [body_cx body]; exact action) moving warming (by rw [body_cx body]; exact alone.1.1), ?_⟩
    exact body_freezeRamp (body_setAction_again body action) (by simp [written, power])
  · refine granted_stop_ends (v := written 0 w s) ready (fun z body => ?_) action alone completion quiet
    exact ⟨_, stopCommand_held (unmarked_of_body body (unaccepted other)) (by rw [body_remote body]; exact focus)
      (by rw [body_cx body]; exact action) (.inl warming) (by rw [body_cx body]; exact alone.1.1),
      body_setAction_again body action⟩
  · refine granted_stop_ends (v := written 0 w s) ready (fun z body => ?_) action alone completion quiet
    exact ⟨_, stopCommand_held (unmarked_of_body body (unaccepted other)) (by rw [body_remote body]; exact focus)
      (by rw [body_cx body]; exact action) (.inr ⟨moving, held⟩) (by rw [body_cx body]; exact alone.1.1),
      body_setAction_again body action⟩
  · intro marked state
    let y' : Action := { y with stopped := true }
    have busy {v : State} (action : v.cx.action = some y') (tray : v.tray = s.tray.stopped q) : executorStep v = none :=
      executorStep_busy (x := y') (by rw [tray]; exact completion) action (by simp [y', moving])
    have ready_ : s.tray.state ≠ .ready := by
      rcases state with state | state | state | state | state | state <;> rw [state] <;> decide
    have halts (z : State) (body : z.body = (written 0 w s).body) :
        (stopAction false z).body = ({ (written 0 w s).doing y' with tray := s.tray.stopped q } : State).body := by
      rw [stopAction_moves (by rw [body_cx body]; exact action) moving issued going, Bool.or_false]
      exact body_stopTransport_marks (s := (written 0 w s).doing y') (body_setAction body) request free ready_
    refine ⟨fun pending other => ?_, fun pending active => ?_⟩
    · refine granted_stop_rests ready (busy rfl rfl) quiet fun z body => ?_
      rw [stopCommand_executor (unmarked_of_body body (unaccepted other)) (by rw [body_remote body]; exact focus),
        stopExecutor, stopPending_none (by rw [body_cx (halts z body)]; exact pending), halts z body]
      exact congrArg (fun p => ({ marked with cx := { marked.cx with pendingCmd := p } } : State).body) pending
    · refine granted_stop_rests ready (executor_rest_code (s := marked) (busy rfl rfl) rfl rfl rfl rfl rfl rfl rfl) quiet
        fun z body => ?_
      have plain : unmarked s := fun accepted => absurd (active.symm.trans accepted) (by decide)
      have stopped := halts z body
      have dropped : (putCx marked.cx (stopAction false z)).body = marked.body :=
        (body_putCx_of (c := marked.cx) stopped rfl).trans rfl
      have effect : stopCommand z = endPlain .aborted (putCx { (stopAction false z).cx with pendingCmd := false }
          (stopAction false z)) := by
        rw [stopCommand_executor (unmarked_of_body body plain) (by rw [body_remote body]; exact focus), stopExecutor]
        exact if_pos (by rw [body_cx stopped]; exact pending)
      rw [body_cx stopped] at effect
      exact (congrArg State.body effect).trans (body_endPlain dropped active)
  · refine granted_stop_rests ready (executor_rest rest ⟨rfl, rfl, rfl, rfl, rfl, rfl⟩) quiet fun z body => ?_
    have kept : stopAction false z = setAction y z := by
      rw [stopAction_again (by rw [body_cx body]; exact action) moving issued stopped, unsilenced]
    have same := body_setAction_again body action
    rw [stopCommand_executor (unmarked_of_body body (unaccepted other)) (by rw [body_remote body]; exact focus),
      stopExecutor, kept, stopPending_none (by rw [body_cx same]; exact pending)]
    exact same
  · obtain ⟨action, moving, issued, request, alone⟩ := awaits
    intro u
    have released := body_releaseDest (s := written 0 w s) rfl
    let v : State := { written 0 w s with
      tray := Tray.answered { s.tray with destPin := none }, shadow := u.shadow }
    have same : v.body = ({ u with tray := Tray.answered u.tray } : State).body := by
      have tray : u.tray = { s.tray with destPin := none } := body_tray released
      rw [tray]
      exact (congrArg (fun b => ({ b with tray := Tray.answered { s.tray with destPin := none } } : State)) released).symm
    refine granted_stop ready fun z body => ?_
    have halts : (stopAction false z).body = ({ v.doing { y with stopped := true } with
        tray := v.tray.completed .stopped } : State).body := by
      rw [stopAction_moves (by rw [body_cx body]; exact action) moving issued going, Bool.or_false]
      have shadow : (releaseDest ((written 0 w s).doing { y with stopped := true })).shadow = u.shadow :=
        shadow_releaseDest_congr ⟨rfl, rfl, rfl, rfl, rfl, rfl⟩
      have answers := body_stopTransport_answers (s := (written 0 w s).doing { y with stopped := true })
        (body_setAction body) request free state
      rw [shadow] at answers
      exact answers
    have answered : v.tray.completion = none := by
      rw [show v.tray = _ from answered_some (t := { s.tray with destPin := none }) request]
      exact completion
    rw [stopCommand_executor (unmarked_of_body body (unaccepted other)) (by rw [body_remote body]; exact focus),
      stopExecutor, stopPending_none (by rw [body_cx halts]; exact alone.1.1)]
    obtain ⟨ends, port⟩ := courses_moveEnded (v := v.doing { y with stopped := true }) halts rfl moving issued alone
      answered rfl quiet
    have plain : (v.doing { y with stopped := true }).moveEnded { y with stopped := true } .aborted = v.moveEnded y .aborted :=
      rfl
    rw [plain] at ends
    exact ⟨ends.trans (body_moveEnded same), by rw [port]; simp⟩
  · let F : State := { written 0 w s with lamp := { s.lamp with ramp := none } }
    have silent : y.unposted := fun command => absurd (unposted.symm.trans command) (by decide)
    rw [actionEnded_filed _ (by decide) silent]
    refine granted_stop ready fun z body => ?_
    have plain : unmarked s := fun accepted => absurd (active.symm.trans accepted) (by decide)
    have frozen : (freezeRamp (setAction y z)).body = F.body :=
      body_freezeRamp (body_setAction_again body action) (by simp [written, power])
    have ended := body_endAction_noted (code := .aborted) frozen action (by decide) silent room
    have dropped := body_putCx_of (c := { (F.unheld y).cx with pendingCmd := false }) ended rfl
    have effect : stopCommand z = endPlain .aborted (putCx { (endAction .aborted (freezeRamp (setAction y z))).cx with
        pendingCmd := false } (endAction .aborted (freezeRamp (setAction y z)))) := by
      rw [stopCommand_executor (unmarked_of_body body plain) (by rw [body_remote body]; exact focus), stopExecutor,
        stopAction_fades (by rw [body_cx body]; exact action) moving warming, unsilenced]
      exact if_pos (by rw [body_cx ended]; exact pending)
    rw [body_cx ended] at effect
    have last := body_endPlain (code := .aborted) dropped active
    have idle : executorStep (State.ended .aborted 0 (plainLastSlot s)
        (({ F with cx := { s.cx with pendingCmd := false } } : State).unheld y)) = none :=
      executorStep_idle completion rfl ⟨rfl, queue, net, oneShot⟩
    obtain ⟨ends, port⟩ := body_courses_noted (o := y.failure .aborted) (v := State.ended .aborted 0 (plainLastSlot s)
      (({ F with cx := { s.cx with pendingCmd := false } } : State).unheld y)) ((congrArg State.body effect).trans last)
      idle quiet fun _ => room
    exact ⟨ends, by rw [port]; simp⟩

end Sys2Proof.Machine
end
section
/-! RESET at its trigger (R25, R70, R71, R103, R150, R169, R183, R205, R211). -/

namespace Sys2Proof.Machine

/-! ## All words owed (R206) -/

/-- The Status Writer has the word to write. -/
def State.askedFor (s : State) (i : Nat) : Prop := i ∈ s.sw.dirty ∨ s.port.reqs.statusWriter = some i

theorem owes_of_askedFor {s : State} {i : Nat} (asked : s.askedFor i) : s.owes i = true := by
  unfold State.owes
  rcases asked with dirty | request
  · rw [List.contains_iff_mem.2 dirty]
    rfl
  · rw [decide_eq_true request, Bool.or_true]
    rfl

theorem askedFor_presentClip {s : State} {i : Nat} (asked : s.askedFor i) : (presentClip s).askedFor i := by
  unfold presentClip
  split
  · have marks := marks_putClip { s.clip with inFlight := true } s
    exact asked.imp (marks.dirty i) id
  · exact asked

theorem askedFor_presentStatus {s : State} {i : Nat} (asked : s.askedFor i) : (presentStatus s).askedFor i := by
  unfold presentStatus
  split
  · next free =>
    split
    · next j rest dirty =>
      rcases asked with listed | request
      · rw [dirty, List.mem_cons] at listed
        exact listed.elim (fun same => .inr (congrArg some same.symm)) .inl
      · exact absurd (request.symm.trans free.1) (Option.some_ne_none i)
    · exact asked
  · exact asked

/-- The other requesters leave the Status Writer's part alone (R191). -/
theorem askedFor_present {s : State} {i : Nat} (asked : s.askedFor i) : (present s).askedFor i := by
  have status := askedFor_presentStatus (askedFor_presentClip asked)
  have header : (presentHeader (presentStatus (presentClip s))).askedFor i := by
    unfold presentHeader
    split
    · split <;> exact status
    · exact status
  have log : (presentLog (presentHeader (presentStatus (presentClip s)))).askedFor i := by
    unfold presentLog
    split <;> exact header
  have shadow : (presentShadow (presentLog (presentHeader (presentStatus (presentClip s))))).askedFor i := by
    unfold presentShadow
    split <;> exact log
  unfold present presentCurve
  split <;> exact shadow

/-! ## What is marked by the way (R206) -/

theorem marks_handLog (r : LogRecord) (s : State) : Marks s (handLog r s) := by
  unfold handLog
  split
  · exact .refl s
  · split
    · exact marks_putLog _ s
    · exact (marks_putLog _ s).trans (marks_latch _ _)

theorem marks_logPump : ∀ (n : Nat) (s : State), Marks s (logPump n s)
  | 0, s => .refl s
  | n + 1, s => by
    unfold logPump
    split
    · exact .refl s
    · split
      · exact .refl s
      · split
        · exact ((marks_putLog _ s).trans (marks_latch _ _)).trans (marks_logPump n _)
        · exact marks_putLog _ s

theorem marks_shut (x : Action) (s : State) : Marks s (if x.window then closeWindow s else s) := by
  unfold closeWindow
  split
  · split
    · exact marks_putLamp _ s
    · exact .refl s
  · exact .refl s

theorem marks_takeOff (x : Action) (s : State) : Marks s (takeOff x s) :=
  ((marks_shut x s).trans (marks_putCx _ _)).trans (marks_putLamp _ _)

theorem marks_endAction {x : Action} {code : ResultCode} {s : State} (action : s.cx.action = some x)
    (unposted : x.unposted) : Marks s (endAction code s) := by
  rw [endAction_eq action]
  refine (marks_takeOff x s).trans ?_
  unfold postResult
  cases source : x.source with
  | command tag =>
    dsimp only
    rw [if_pos (unposted (by rw [source]; rfl))]
    exact .refl _
  | remote => exact .refl _
  | tape | injected =>
    dsimp only
    split
    · exact .refl _
    · exact marks_handLog _ _

/-! ## RESET of a ready part -/

theorem headerMeans_reset (st : CmdStore) (s t : State) : headerMeans 0 (CmdStore.write st codeReset)
    (writtenWord 0 (CmdStore.write st codeReset) s) t = resetCommand t := by
  unfold headerMeans triggerCommand
  rw [if_pos rfl, if_pos (storesLow_command st _), loByte_command]
  rfl

theorem dirty_resetCommand (s : State) : (resetCommand s).sw.dirty = List.range 64 := rfl

/-- RESET of a ready part, from what comes about with it. -/
theorem resets_of {st : CmdStore} {s u : State} (ready : HostReady s)
    (resets : ∀ z : State, z.body = (written 0 (CmdStore.write st codeReset) s).body →
      (courses (resetCommand z)).body = u.body ∧ Marks (resetCommand z) (courses (resetCommand z))) :
    ∃ t, exec (.reset st) s = .next t ∧ (∀ i < 64, t.owes i = true) ∧ t.body = u.body := by
  have header := classify_headerAddr (i := 0) (by decide) s
  obtain ⟨x, port, dirty, inFlight, has, ha, hcls, granted⟩ := write_granted (w := CmdStore.write st codeReset)
    (a := headerAddr 0) ready (by rw [header]; decide)
  obtain ⟨port', has', evaluated⟩ := evaluateHeader_traffic (i := 0) (w := CmdStore.write st codeReset) (s := s)
    (dirty := dirty) (inFlight := inFlight) has
  have handed : handOn x (CmdStore.write st codeReset)
      (({ s with mem := memStore s.mem (headerAddr 0) (CmdStore.write st codeReset) } : State).traffic port dirty inFlight)
      = resetCommand ((written 0 (CmdStore.write st codeReset) s).traffic port' dirty inFlight) := by
    rw [← headerMeans_reset st s, ← evaluated]
    unfold handOn
    rw [hcls, header, ha, toNat_headerAddr (by decide)]
    simp [ready.1]
  obtain ⟨body, marks⟩ := resets _ (body_traffic port' dirty inFlight _)
  have all := dirty_resetCommand ((written 0 (CmdStore.write st codeReset) s).traffic port' dirty inFlight)
  rw [handed] at granted
  generalize resetCommand ((written 0 (CmdStore.write st codeReset) s).traffic port' dirty inFlight) = r
    at granted body marks all
  have hc : exec (.reset st) s = .next (headerWrite 0 (CmdStore.write st codeReset) s) := rfl
  refine ⟨_, hc, fun i hi => ?_, ?_⟩ <;> rw [headerWrite, granted]
  · have listed := marks.dirty i (by rw [all]; exact List.mem_range.2 hi)
    exact owes_of_askedFor (askedFor_present (.inl listed))
  · exact (onlyAsked_present _).body.trans body

/-! ## The blocks under a RESET (R25, R71, R103, R150, R169, R183, R205) -/

/-- The latches are cleared, and the command discarded. -/
def State.cleared (s : State) : State := { s with
  sw := { s.sw with latches := 0, irqPending := false }, hdr := { s.hdr with record := s.hdr.record.discarded } }

theorem body_cleared {s t : State} (h : t.body = s.body) : (discardRecord (clearEvents t)).body = s.cleared.body := by
  have cleared : (clearEvents t).body
      = ({ s with sw := { s.sw with latches := 0, irqPending := false } } : State).body := by
    rw [eq_traffic h]
    rfl
  have record : (clearEvents t).hdr.record = s.hdr.record := by rw [body_hdr cleared]
  unfold discardRecord State.cleared CommandRecord.discarded
  dsimp only
  rw [record]
  cases state : s.hdr.record.state with
  | accepted => exact (body_putRecord_of _ cleared).trans rfl
  | active => exact (body_putRecord_of _ cleared).trans rfl
  | free => exact cleared
  | closing => exact cleared

theorem discarded_again (r : CommandRecord) : r.discarded.discarded = r.discarded := by
  unfold CommandRecord.discarded
  cases state : r.state <;> simp [state]

theorem discarded_inactive (r : CommandRecord) : r.discarded.state ≠ .active := by
  unfold CommandRecord.discarded
  cases state : r.state <;> simp [state]

/-- A new ramp of the lamp would keep the off mark of the old (R119). -/
def State.keepsOff (s : State) : Bool :=
  decide (s.thermal.power = .standbyPending) && decide (s.lamp.state = .on) && s.lamp.offMarked

theorem keepsOff_iff {s : State} : s.keepsOff = true ↔ s.thermal.power = .standbyPending ∧ s.lamp.state = .on
    ∧ s.lamp.offMarked = true := by
  simp [State.keepsOff, and_assoc]

/-- The ramp frozen, or renewed with its off mark (R79, R119). -/
def State.frozen (s : State) : State := { s with lamp := { s.lamp with
  ramp := if s.keepsOff then some (s.lamp.rampTo s.lamp.f s.hdr.settings.blankRate false true) else none } }

theorem offMarked_frozen (s : State) : s.frozen.lamp.offMarked = s.keepsOff := by
  unfold State.frozen Lamp.offMarked
  cases s.keepsOff <;> rfl

theorem keepsOff_frozen (s : State) : s.frozen.keepsOff = s.keepsOff := by
  cases keeps : s.keepsOff with
  | true =>
    obtain ⟨pending, on_, -⟩ := keepsOff_iff.1 keeps
    exact keepsOff_iff.2 ⟨pending, on_, (offMarked_frozen s).trans keeps⟩
  | false => rw [State.keepsOff, offMarked_frozen, keeps, Bool.and_false]

theorem body_freezeRamp_frozen {s t : State} (h : t.body = s.body) : (freezeRamp t).body = s.frozen.body := by
  unfold freezeRamp
  rw [body_lamp h]
  cases ramp : s.lamp.ramp with
  | none =>
    have keeps : s.keepsOff = false := by simp [State.keepsOff, Lamp.offMarked, ramp]
    refine h.trans ?_
    unfold State.frozen
    rw [keeps]
    exact congrArg (fun r => ({ s with lamp := { s.lamp with ramp := r } } : State).body) ramp
  | some r =>
    have frozen := body_putLamp_of { s.lamp with ramp := none } h
    have mark : s.lamp.offMarked = r.offMark := by rw [Lamp.offMarked, ramp]
    dsimp only
    unfold State.frozen renewOffRamp
    rw [body_thermal frozen, body_lamp frozen, body_hdr frozen]
    by_cases keeps : s.keepsOff = true
    · obtain ⟨pending, on_, marked⟩ := keepsOff_iff.1 keeps
      rw [if_pos (mark.symm.trans marked), if_pos ⟨pending, on_⟩, if_pos keeps]
      exact (body_takeRamp frozen).trans rfl
    · rw [if_neg keeps]
      by_cases marked : r.offMark = true
      · rw [if_pos marked, if_neg fun k => keeps (keepsOff_iff.2 ⟨k.1, k.2, mark.trans marked⟩)]
        exact frozen
      · rw [if_neg marked]
        exact frozen

/-- The sources emptied, the ramp frozen, and a ramp to F asked for (R25). -/
def resetRamps (s : State) : State :=
  let t := freezeRamp (emptySources s)
  requestRamp t.lamp.f t.hdr.settings.blankRate false false t

theorem body_resetRamps {s t : State} (h : t.body = s.body) : (resetRamps t).body
    = (s.emptied.ramping s.lamp.f s.hdr.settings.blankRate false s.keepsOff).body := by
  have frozen := body_freezeRamp_frozen (body_emptySources h)
  have taken := body_takeRamp (level := s.emptied.frozen.lamp.f) (tenths := s.emptied.frozen.hdr.settings.blankRate)
    (byAction := false) (offMark := false) frozen
  unfold resetRamps requestRamp
  dsimp only
  rw [body_lamp frozen, body_hdr frozen, offMarked_frozen, Bool.not_false, Bool.and_true]
  by_cases keeps : s.keepsOff = true
  · obtain ⟨pending, on_, -⟩ := keepsOff_iff.1 keeps
    rw [if_pos (show s.emptied.keepsOff = true from keeps), keeps]
    unfold renewOffRamp
    rw [body_thermal taken, body_lamp taken, body_hdr taken, if_pos ⟨pending, on_⟩]
    exact (body_takeRamp taken).trans rfl
  · rw [if_neg (show ¬ s.emptied.keepsOff = true from keeps), Bool.eq_false_iff.2 keeps]
    exact taken

/-- The record that a start request of a cue posts when it ends aborted (R148). -/
def StartRecord.failure (sr : StartRecord) : Option LogRecord :=
  match sr.request.source with
  | .tape time => some (.execFail false kindClip .aborted time)
  | .injected => some (.execFail true kindClip .aborted 0)
  | _ => none

/-- The player stopped by a RESET (R163). -/
def ClipPlayer.wasReset (now : Nat) (c : ClipPlayer) : ClipPlayer := ClipPlayer.retarget now { c with
  state := .idle, playing := none, queue := [], start := none, fifo := [], inFlight := false, priming := false
  fadeCount := 0, lastOutput := 0 }

/-- A start record answered aborted, with no command ACTIVE to answer to. -/
theorem body_answerStart_aborted {sr : StartRecord} {s t : State} (h : t.body = s.body)
    (inactive : s.hdr.record.state ≠ .active) (room : sr.failure ≠ none → logRoom s) :
    (answerStart sr.request.source .aborted t).body = (s.noted sr.failure).body := by
  unfold answerStart StartRecord.failure
  unfold StartRecord.failure at room
  cases source : sr.request.source with
  | command tag =>
    have none_ : ¬ activeWith codeClip t = true := by
      rw [activeWith_of_body h, activeWith_iff]
      exact fun k => inactive k.1
    exact (congrArg State.body (if_neg none_)).trans h
  | remote => exact h
  | linked => exact h
  | tape time =>
    rw [source] at room
    exact (congrArg State.body (if_neg (by decide))).trans (body_handLog h (room (Option.some_ne_none _)))
  | injected =>
    rw [source] at room
    exact (congrArg State.body (if_neg (by decide))).trans (body_handLog h (room (Option.some_ne_none _)))

/-- The start record under way ends with its record, if it posts one. -/
def ClipPlayer.startFailure (c : ClipPlayer) : Option LogRecord := c.start.bind StartRecord.failure

theorem body_clipReset {s t : State} (h : t.body = s.body) (requests : s.clip.requests = [])
    (inactive : s.hdr.record.state ≠ .active) (room : s.clip.startFailure ≠ none → logRoom s) :
    (clipReset t).body = (({ s with clip := s.clip.wasReset s.now } : State).noted s.clip.startFailure).body := by
  have withdrawn : (withdrawClip t).body = s.body := (body_voidAccess _ _).trans h
  have dropped : (putClip { (withdrawClip t).clip with queue := [], start := none } (withdrawClip t)).body
      = ({ s with clip := { s.clip with queue := [], start := none } } : State).body :=
    body_clipWith (F := fun c => { c with queue := [], start := none }) withdrawn (fun _ _ => rfl)
  have aborted := body_abortRequests dropped requests
  have start : (withdrawClip t).clip.start = s.clip.start := by rw [clip_of_body withdrawn]
  have answered : ∀ u : State, (u = match s.clip.start with
        | some st => answerStart st.request.source .aborted (abortRequests
            (putClip { (withdrawClip t).clip with queue := [], start := none } (withdrawClip t)))
        | none => abortRequests (putClip { (withdrawClip t).clip with queue := [], start := none } (withdrawClip t))) →
      u.body = (({ s with clip := { s.clip with queue := [], start := none } } : State).noted s.clip.startFailure).body := by
    intro u same
    subst same
    unfold ClipPlayer.startFailure
    unfold ClipPlayer.startFailure at room
    cases found : s.clip.start with
    | none => exact aborted
    | some sr =>
      rw [found] at room
      exact body_answerStart_aborted aborted inactive room
  unfold clipReset
  dsimp only
  rw [start]
  have stopped := body_clipWith (F := fun c => { c with
    playing := none, fifo := [], inFlight := false, priming := false, fadeCount := 0 }) (answered _ rfl) (fun _ _ => rfl)
  exact (body_setPlayer (st := .idle) stopped).trans rfl

/-! ## The Watch Table emptied, and the slide shown fetched afresh (R71) -/

/-- The tray and the Watch Table after a RESET (R70, R71). -/
def State.unshadowed (s : State) : State := { s with
  shadow := { s.shadow with table := Vector.replicate 16 .free, fetchList := [] }
  tray := { s.tray with destPin := none, shownPin := none, repin := s.tray.request.isSome } }

theorem find_emptied (sh : Shadow) (kind : RecKind) (key : Nat) :
    ({ sh with table := Vector.replicate 16 .free, fetchList := [] } : Shadow).find kind key = none := rfl

theorem victim_emptied (sh : Shadow) :
    ({ sh with table := Vector.replicate 16 .free, fetchList := [] } : Shadow).victim = some 0 := rfl

/-- A search or a plan that waits for a record is looked up afresh: here there is none (R71). -/
theorem lookAfresh_of_none {s : State} (waits : s.tray.request = none ∨ s.tray.wait = .none) : lookAfresh s = s := by
  unfold lookAfresh
  cases request : s.tray.request with
  | none => rfl
  | some r =>
    rw [waits.resolve_left (by rw [request]; exact Option.some_ne_none r)]

theorem body_trayAfterReset {s t : State} (h : t.body = s.body) (waits : s.tray.request = none ∨ s.tray.wait = .none) :
    (trayAfterReset (shadowReset t)).body = s.unshadowed.reshown.body := by
  have emptied : (shadowReset t).body = ({ s with
      shadow := { s.shadow with table := Vector.replicate 16 .free, fetchList := [] } } : State).body := by
    unfold shadowReset
    rw [body_withdrawShadow, body_shadow h]
    exact body_putShadow_of _ h
  have dropped := body_putTray_of { s.tray with destPin := none, shownPin := none, repin := s.tray.request.isSome } emptied
  unfold trayAfterReset State.reshown
  rw [body_tray emptied]
  dsimp only
  rw [body_tray dropped]
  by_cases shown : s.tray.gate = .loaded ∧ s.tray.known = true ∧ s.tray.request = none
  · rw [if_pos shown]
    obtain ⟨loaded, known, idle⟩ := shown
    unfold pinShown
    by_cases base : s.hdr.settings.slotBase = 0
    · rw [lookup_noTable (by rw [recordBase, body_hdr dropped]; exact base), if_neg fun k => k.2.2.2 base]
      exact dropped
    · obtain ⟨u, looked, body⟩ := lookup_misses (kind := .slot) (key := s.tray.slot) (pin := true) dropped base
        (find_emptied s.shadow _ _) (victim_emptied s.shadow)
      rw [looked, if_pos ⟨loaded, known, idle, base⟩]
      dsimp only
      rw [body_tray body]
      exact (body_putTray_of _ body).trans rfl
  · rw [if_neg shown, if_neg fun k => shown ⟨k.1, k.2.1, k.2.2.1⟩, lookAfresh_of_none (by rw [body_tray dropped]; exact waits)]
    exact dropped

/-! ## The whole command but for the action (R211) -/

/-- What a RESET does after the action's stop. -/
def resetOthers (s : State) : State :=
  markAll (trayAfterReset (shadowReset (clipReset (cueTrackReset (resetFocus (resetRamps s))))))

theorem resetCommand_eq (s : State) :
    resetCommand s = resetOthers (stopAction true (discardRecord (clearEvents s))) := rfl

theorem body_resetFocus {s t : State} (h : t.body = s.body) :
    (resetFocus t).body = ({ s with remote := { s.remote with focus := none } } : State).body := by
  unfold resetFocus
  rw [body_remote h]
  exact body_putRemote_of _ h

theorem body_cueTrackReset {s t : State} (h : t.body = s.body) : (cueTrackReset t).body = ({ s with
    cue := s.cue.unframed
    deck := { s.deck with auto := false, cue := false, host := false, remote := false, holdUntil := none } } : State).body := by
  have discarded := body_discardFrame h
  unfold cueTrackReset
  dsimp only
  rw [body_deck discarded]
  exact body_putDeck_of _ discarded

/-- The record of a slide shown is fetched afresh (R71). -/
abbrev reshows (s : State) : Prop :=
  s.tray.gate = .loaded ∧ s.tray.known = true ∧ s.tray.request = none ∧ s.hdr.settings.slotBase ≠ 0

theorem reshown_pos {s : State} (shows : reshows s) : s.reshown
    = { s with tray := { s.tray with shownPin := some s.tray.slot } }.fetchingSlot s.tray.slot 0 1 := if_pos shows

theorem reshown_neg {s : State} (hides : ¬ reshows s) : s.reshown = s := if_neg hides

theorem reshown_noted (o : Option LogRecord) (s : State) : (s.noted o).reshown = s.reshown.noted o := by
  by_cases shows : reshows s
  · rw [reshown_pos shows, reshown_pos (s := s.noted o) shows]
    rfl
  · rw [reshown_neg shows, reshown_neg (s := s.noted o) shows]

theorem body_resetOthers {v t : State} (h : t.body = v.cleared.body) (requests : v.clip.requests = [])
    (room : v.clip.startFailure ≠ none → logRoom v) (waits : v.tray.request = none ∨ v.tray.wait = .none) :
    (resetOthers t).body = (v.wasReset.reshown.noted v.clip.startFailure).body := by
  have ramps := body_resetRamps h
  have focus := body_resetFocus ramps
  have track := body_cueTrackReset focus
  have clip := body_clipReset track requests (discarded_inactive v.hdr.record) room
  have tray := body_trayAfterReset clip waits
  unfold resetOthers
  rw [body_markAll, tray, ← reshown_noted]
  rfl

theorem reshown_filed (o : Option LogRecord) (s : State) : (s.filed o).reshown = s.reshown.filed o := by
  by_cases shows : reshows s
  · rw [reshown_pos shows, reshown_pos (s := s.filed o) shows]
    rfl
  · rw [reshown_neg shows, reshown_neg (s := s.filed o) shows]

theorem reset_filed (o : Option LogRecord) (s : State) : (s.filed o).wasReset.reshown = s.wasReset.reshown.filed o :=
  reshown_filed o s.wasReset

theorem reset_logged (r : LogRecord) (s : State) : (s.logged r).wasReset.reshown = s.wasReset.reshown.filed (some r) := by
  rw [← reshown_filed, logged_given]
  rfl

theorem reshown_frame (s : State) : s.reshown.cx = s.cx ∧ s.reshown.tray.completion = s.tray.completion
    ∧ s.reshown.remote = s.remote ∧ s.reshown.log = s.log ∧ s.reshown.hdr = s.hdr := by
  by_cases shows : reshows s
  · rw [reshown_pos shows]
    exact ⟨rfl, rfl, rfl, rfl, rfl⟩
  · rw [reshown_neg shows]
    exact ⟨rfl, rfl, rfl, rfl, rfl⟩

section
variable {v : State}

/-- After a RESET the executor with no action is at rest. -/
theorem executorStep_reset (completion : v.tray.completion = none) (idle : v.cx.action = none) :
    executorStep v.wasReset.reshown = none := by
  obtain ⟨cx, tray, remote, -, -⟩ := reshown_frame v.wasReset
  exact executorStep_idle (tray.trans completion) ((congrArg (·.action) cx).trans idle)
    ⟨congrArg (·.pendingCmd) cx, congrArg (·.queue) cx, congrArg (·.netCount) remote, congrArg (·.oneShot) remote⟩

theorem logQuiet_reset (quiet : logQuiet v) : logQuiet v.wasReset.reshown := by
  obtain ⟨-, -, -, log, hdr⟩ := reshown_frame v.wasReset
  unfold logQuiet
  rw [log, hdr]
  exact quiet

theorem logRoom_reset (room : logRoom v) : logRoom v.wasReset.reshown := by
  obtain ⟨-, -, -, log, hdr⟩ := reshown_frame v.wasReset
  unfold logRoom
  rw [log, hdr]
  exact room

end

/-! ## A RESET, with the record that it posts -/

theorem marks_courses_rest {t : State} (rest : executorStep t = none) : Marks t (courses t) := by
  rw [courses, settle_of_none 40 rest]
  exact marks_logPump 5 t

/-- A RESET after which the executor is at rest. -/
theorem resets_noted {st : CmdStore} {o : Option LogRecord} {s u : State} (ready : HostReady s)
    (shape : ∀ z : State, z.body = (written 0 (CmdStore.write st codeReset) s).body →
      (resetCommand z).body = (u.noted o).body)
    (executor : executorStep u = none) (quiet : logQuiet u) (room : o ≠ none → logRoom u) :
    ∃ t, exec (.reset st) s = .next t ∧ (∀ i < 64, t.owes i = true) ∧ t.body = (u.filed o).body := by
  refine resets_of ready fun z body => ?_
  have same := shape z body
  have still : executorStep (resetCommand z) = none :=
    (executorStep_none_of_body same).2 (executor_rest executor ⟨rfl, rfl, rfl, rfl, rfl, rfl⟩)
  exact ⟨(body_courses_noted same executor quiet room).1, marks_courses_rest still⟩

theorem body_resetCommand {v z : State}
    (stops : (stopAction true (discardRecord (clearEvents z))).body = v.cleared.body) (requests : v.clip.requests = [])
    (start : v.clip.start = none) (waits : v.tray.request = none ∨ v.tray.wait = .none) :
    (resetCommand z).body = v.wasReset.reshown.body := by
  have none_ : v.clip.startFailure = none := by rw [ClipPlayer.startFailure, start, Option.bind_none]
  have whole := body_resetOthers stops requests (fun k => absurd none_ k) waits
  rw [none_] at whole
  rw [resetCommand_eq]
  exact whole

/-! ## The action under a RESET (R20, R25) -/

theorem keepsOff_unheld {x : Action} (s : State) : (s.unheld x).keepsOff = s.keepsOff := by
  unfold State.keepsOff State.unheld Lamp.windowShut
  split <;> rfl

/-- The old ramp leaves nothing but its off mark. -/
theorem wasReset_ramp {ramp : Option Ramp} {s : State}
    (same : ({ s with lamp := { s.lamp with ramp := ramp } } : State).keepsOff = s.keepsOff) :
    ({ s with lamp := { s.lamp with ramp := ramp } } : State).wasReset = s.wasReset := by
  have off (s : State) : s.wasReset = { s.wasReset with
      lamp := { s.lamp with ramp := some (s.lamp.rampTo s.lamp.f s.hdr.settings.blankRate false s.keepsOff) } } := rfl
  rw [off, off s, same]
  rfl

theorem reset_frozen {x : Action} (s : State) : (s.frozen.unheld x).wasReset = (s.unheld x).wasReset := by
  have same : (s.frozen.unheld x).keepsOff = (s.unheld x).keepsOff := by
    rw [keepsOff_unheld, keepsOff_frozen, keepsOff_unheld]
  unfold State.frozen at same ⊢
  rw [unheld_ramp] at same ⊢
  exact wasReset_ramp same

theorem reset_unheld {x : Action} (s : State) : s.wasReset.reshown.unheld x = (s.unheld x).wasReset.reshown := by
  have reset : s.wasReset.unheld x = (s.unheld x).wasReset := by
    unfold State.unheld
    by_cases shut : x.window = true ∧ s.lamp.window = true
    · have here : s.lamp.windowShut x = { s.lamp with window := false, darkOwed := false, darkSent := false } := if_pos shut
      have there : s.wasReset.lamp.windowShut x
          = { s.wasReset.lamp with window := false, darkOwed := false, darkSent := false } := if_pos shut
      rw [here, there]
      rfl
    · have here : s.lamp.windowShut x = s.lamp := if_neg shut
      have there : s.wasReset.lamp.windowShut x = s.wasReset.lamp := if_neg shut
      rw [here, there]
      rfl
  rw [← reset]
  by_cases shows : reshows s.wasReset
  · rw [reshown_pos shows, reshown_pos (s := s.wasReset.unheld x) shows]
    rfl
  · rw [reshown_neg shows, reshown_neg (s := s.wasReset.unheld x) shows]

theorem reset_completed {o : TrayOutcome} (s : State) :
    ({ s with tray := s.tray.completed o } : State).wasReset.reshown
      = { s.wasReset.reshown with tray := s.wasReset.reshown.tray.completed o } := by
  by_cases shows : reshows s.wasReset
  · rw [reshown_pos shows, reshown_pos (s := ({ s with tray := s.tray.completed o } : State).wasReset) shows]
    rfl
  · rw [reshown_neg shows, reshown_neg (s := ({ s with tray := s.tray.completed o } : State).wasReset) shows]
    rfl

/-- **The transport answers** an action that posts nothing in the command record. -/
theorem courses_moveEnded_unposted {v t : State} {x : Action} {o : TrayOutcome} {code : ResultCode}
    (body : t.body = ({ v with tray := v.tray.completed o } : State).body) (action : v.cx.action = some x)
    (phase : x.phase = .moving) (issued : x.issued = true) (sources : noSource v) (room : logRoom v)
    (unposted : x.unposted) (failed : code ≠ .ok) (completion : v.tray.completion = none)
    (result : x.resultOf o = some code) (quiet : logQuiet v) :
    (courses t).body = ((v.unheld x).filed (x.failure code)).body ∧ Marks t (courses t) := by
  let values : TrayCompletion := { outcome := o, remaining := v.tray.remaining, lastSlot := v.tray.lastSlot }
  have held : t.tray.completion = some values := by rw [body_tray body]; rfl
  have taken : (putTray { t.tray with completion := none } t).body = v.body := by
    rw [body_tray body]
    refine (body_putTray_of _ body).trans ?_
    exact congrArg (fun c => ({ v with tray := { v.tray with completion := c } } : State).body) completion.symm
  have answered := body_trayAnswered (x := x) (c := values) taken
  have step : executorStep t = some (endAction code (trayAnswered x values (putTray { t.tray with completion := none } t))) := by
    rw [executorStep_answered held,
      transportCompleted_ends (by rw [body_cx taken]; exact action) phase issued result]
  have marks : Marks t (trayAnswered x values (putTray { t.tray with completion := none } t)) :=
    ((marks_putTray _ t).trans (marks_shut x _)).trans (marks_putCx _ _)
  generalize trayAnswered x values (putTray { t.tray with completion := none } t) = w at answered step marks
  have rest := executorStep_endAction (code := code) answered rfl completion sources
  have ended := body_endAction_noted (x := x.answeredWith (v.tray.remaining, v.tray.lastSlot)) answered rfl failed unposted room
  have unheld : (v.trayAnswered x (v.tray.remaining, v.tray.lastSlot)).unheld
      (x.answeredWith (v.tray.remaining, v.tray.lastSlot)) = v.unheld x := by
    have shut : (v.lamp.windowShut x).windowShut (x.answeredWith (v.tray.remaining, v.tray.lastSlot)) = v.lamp.windowShut x :=
      if_neg (by simp [Action.answeredWith])
    unfold State.unheld State.trayAnswered
    rw [shut]
  rw [unheld] at ended
  have course : courses t = courses (endAction code w) := by
    rw [courses_step step rest, courses, settle_of_none 40 rest]
  rw [course]
  refine ⟨(body_courses_noted (o := x.failure code) ended (executorStep_idle completion rfl sources) quiet fun _ => room).1, ?_⟩
  exact (marks.trans (marks_endAction
    (x := x.answeredWith (v.tray.remaining, v.tray.lastSlot)) (by rw [body_cx answered]; rfl) unposted)).trans (marks_courses_rest rest)

/-! ## The order of use, as the destination's pin is released (R58, R62) -/

/-- No VALID entry holds the record. -/
def Shadow.lacks (sh : Shadow) (kind : RecKind) (key : Nat) : Prop :=
  ∀ i d stale used, sh.entry i = .valid d stale used → ¬ (d.kind = kind ∧ d.key = key)

theorem lacks_of_find {sh : Shadow} {kind : RecKind} {key : Nat} (missing : sh.find kind key = none) :
    sh.lacks kind key := by
  rintro i d stale used entry ⟨rfl, rfl⟩
  have inside : i < 16 := by
    by_contra out
    simp [Shadow.entry, Vector.getElem?_eq_none (Nat.le_of_not_lt out)] at entry
  have listed : sh.entry i ∈ sh.table.toList := by
    simp [Shadow.entry, inside]
  have absent := List.findIdx?_eq_none_iff.1 missing _ listed
  simp [entry, WatchEntry.holds, WatchEntry.fields] at absent

theorem lacks_setFilling {sh : Shadow} {kind : RecKind} {key i : Nat} {e : EntryData} (lacks : sh.lacks kind key) :
    (sh.setEntry i (.filling e)).lacks kind key := by
  intro j d stale used entry
  refine lacks j d stale used ?_
  unfold Shadow.setEntry Shadow.entry at entry
  unfold Shadow.entry
  by_cases same : i = j
  · subst same
    by_cases inside : i < 16 <;> simp [inside] at entry
  · simpa [Vector.getElem?_setIfInBounds, same] using entry

/-- A lookup of a record that no VALID entry holds leaves the order of use alone. -/
theorem lookup_lacking {kind : RecKind} {key : Nat} {pin : Bool} {s : State} (lacks : s.shadow.lacks kind key) :
    (lookup kind key pin s).1.shadow.useStamp = s.shadow.useStamp ∧ ∀ kind' key', s.shadow.lacks kind' key' →
      (lookup kind key pin s).1.shadow.lacks kind' key' := by
  unfold lookup
  split
  · exact ⟨rfl, fun _ _ h => h⟩
  · dsimp only
    split
    · next i found =>
      obtain ⟨d, fields, kinds, keys⟩ := entry_of_find found
      split
      · next stored stale used entry =>
        rw [entry] at fields
        cases fields
        exact absurd ⟨kinds, keys⟩ (lacks i d stale used entry)
      · refine ⟨by simp [Shadow.setEntry], fun _ _ absent => ?_⟩
        rw [putShadow_shadow]
        exact lacks_setFilling absent
      · exact ⟨rfl, fun _ _ h => h⟩
    · split
      · refine ⟨by simp [Shadow.setEntry], fun _ _ absent => ?_⟩
        rw [putShadow_shadow]
        exact lacks_setFilling absent
      · exact ⟨rfl, fun _ _ h => h⟩

theorem useStamp_lookups : ∀ (l : List RecordLookup) (s : State), (∀ r ∈ l, s.shadow.lacks r.kind r.key) →
    (l.foldl (fun s r => (lookup r.kind r.key r.pin s).1) s).shadow.useStamp = s.shadow.useStamp
  | [], _, _ => rfl
  | r :: l, s, absent => by
    obtain ⟨same, keeps⟩ := lookup_lacking (pin := r.pin) (absent r (.head l))
    rw [List.foldl_cons, useStamp_lookups l _ fun r' listed => keeps _ _ (absent r' (.tail r listed)), same]

theorem useStamp_serveWaiting (s : State) : (serveWaiting s).shadow.useStamp = s.shadow.useStamp := by
  refine useStamp_lookups _ s fun r waits => lacks_of_find ?_
  simpa using (List.mem_filter.1 waits).2

theorem useStamp_lowerPin (kind : RecKind) (key : Nat) (s : State) :
    (lowerPin kind key s).shadow.useStamp = s.shadow.useStamp := by
  unfold lowerPin
  dsimp only
  split
  · split
    · split <;> simp [Shadow.setEntry]
    · simp [Shadow.setEntry]
    · simp [Shadow.setEntry]
    · rfl
  · rfl

theorem useStamp_releasePin (kind : RecKind) (key : Nat) (s : State) :
    (releasePin kind key s).shadow.useStamp = s.shadow.useStamp := by
  unfold releasePin
  split
  · rw [useStamp_serveWaiting, useStamp_lowerPin]
  · exact useStamp_lowerPin kind key s

theorem useStamp_releaseDest (s : State) : (releaseDest s).shadow.useStamp = s.shadow.useStamp := by
  unfold releaseDest
  split
  · rw [useStamp_releasePin, putTray_shadow]
  · rfl

/-- The pins released before a RESET leave nothing behind. -/
theorem wasReset_released {sh : Shadow} {pin : Option Nat} {s : State} (same : sh.useStamp = s.shadow.useStamp) :
    ({ s with tray := { s.tray with destPin := pin }, shadow := sh } : State).wasReset = s.wasReset := by
  obtain ⟨table, fetchList, useStamp⟩ := sh
  cases same
  rfl

/-! ## RESET settled (R211) -/

/-- Settles O13, by what the RESET finds in hand. -/
theorem resetActsAtTheTrigger : Obligations.ResetActsAtTheTrigger := by
  intro st s x q sr ready requests v t resets silent moving
  have quiet : logQuiet v := ready.2.2.1
  have completion : v.tray.completion = none := completion_of_rest (s := s) ready.2.1
  have unposted : silent.unposted := fun _ => rfl
  have starts (idle : s.cx.action = none) (request : t.request = none) (start : s.clip.start = some sr)
      (o : Option LogRecord) (posts : sr.failure = o) (room : o ≠ none → logRoom s) :
      resets (v.wasReset.reshown.filed o) := by
    have failure : v.clip.startFailure = o := by
      rw [← posts]
      exact congrArg (Option.bind · StartRecord.failure) start
    refine resets_noted ready (fun z body => ?_) (executorStep_reset completion idle) (logQuiet_reset quiet)
      fun k => logRoom_reset (room k)
    have cleared := body_cleared body
    rw [resetCommand_eq, stopAction_none (by rw [body_cx cleared]; exact idle), ← failure]
    exact body_resetOthers cleared requests (fun k => room (failure ▸ k)) (.inl request)
  refine ⟨fun idle request start => ?_, fun idle request start => ⟨fun time source room => ?_, fun source room => ?_,
    fun source => ?_⟩, fun action place request start room => ?_, fun action phase issued request wait start moves =>
      ⟨fun going free => ?_, fun stopped marked => ?_⟩, fun awaits going free state start => ?_⟩
  · refine resets_noted (o := none) ready (fun z body => ?_) (executorStep_reset completion idle) (logQuiet_reset quiet)
      fun k => absurd rfl k
    refine body_resetCommand (v := v) ?_ requests start (.inl request)
    rw [stopAction_none (by rw [body_cx (body_cleared body)]; exact idle)]
    exact body_cleared body
  · have ends := starts idle request start (some (.execFail false kindClip .aborted time))
      (by rw [StartRecord.failure, source]) fun _ => room
    rw [← reset_logged] at ends
    exact ends
  · have ends := starts idle request start (some (.execFail true kindClip .aborted 0))
      (by rw [StartRecord.failure, source]) fun _ => room
    rw [← reset_logged] at ends
    exact ends
  · refine starts idle request start none ?_ fun k => absurd rfl k
    unfold StartRecord.failure
    rcases source with source | source | ⟨tag, source⟩ <;> rw [source]
  · have ends (w : State) (same : w.wasReset = (v.unheld silent).wasReset) (frame : w.tray = v.tray ∧ w.clip = v.clip)
        (stops : ∀ z : State, z.body = v.body → (stopAction true (discardRecord (clearEvents z))).body
          = ((w.noted (silent.failure .aborted)).cleared).body) :
        resets ((v.actionEnded silent .aborted (x.answer s)).wasReset.reshown) := by
      rw [actionEnded_filed _ (by decide) unposted, reset_filed]
      refine resets_noted ready (fun z body => ?_) (executorStep_reset completion rfl) (logQuiet_reset quiet)
        fun _ => logRoom_reset room
      obtain ⟨tray, clip⟩ := frame
      rw [body_resetCommand (v := w.noted (silent.failure .aborted)) (stops z body)
        ((congrArg (·.requests) clip).trans requests) ((congrArg (·.start) clip).trans start)
        (.inl ((congrArg (·.request) tray).trans request)), ← same, ← reshown_noted]
      rfl
    have here (z : State) (body : z.body = v.body) : (discardRecord (clearEvents z)).cx.action = some x := by
      rw [body_cx (body_cleared body)]
      exact action
    by_cases fading : x.phase ≠ .moving ∧ x.phase ≠ .warming
    · refine ends (v.frozen.unheld silent) (reset_frozen v) ⟨rfl, rfl⟩ fun z body => ?_
      rw [stopAction_fades (here z body) fading.1 fading.2, Bool.or_true]
      exact body_endAction_noted (body_freezeRamp_frozen (body_setAction (body_cleared body))) rfl (by decide) unposted room
    · refine ends (v.unheld silent) rfl ⟨rfl, rfl⟩ fun z body => ?_
      have held : x.phase = .warming ∨ (x.phase = .moving ∧ x.issued = false) := by
        cases phase : x.phase <;> simp_all
      rw [stopAction_held (here z body) held, Bool.or_true]
      exact body_endAction_noted (body_setAction (body_cleared body)) rfl (by decide) unposted room
  · let y : Action := { silent with stopped := true }
    let w : State := { v.doing y with tray := t.stopped q }
    refine resets_noted (o := none) (u := w.wasReset) ready (fun z body => ?_)
      (executorStep_busy (x := y) completion rfl (by rw [show y.phase = _ from phase]; decide)) quiet fun k => absurd rfl k
    have cleared := body_cleared body
    have stays : t.state ≠ .ready := by
      rcases moves with state | state | state | state | state | state <;> rw [state] <;> decide
    rw [body_resetCommand (v := w) ?_ requests start (.inr wait), reshown_neg fun k => Option.some_ne_none _ k.2.2.1]
    · rfl
    · rw [stopAction_moves (by rw [body_cx cleared]; exact action) phase issued going, Bool.or_true]
      exact body_stopTransport_marks (s := v.cleared.doing y) (body_setAction cleared) request free stays
  · refine resets_noted (o := none) (u := (v.doing silent).wasReset) ready (fun z body => ?_)
      (executorStep_busy (x := silent) completion rfl (by rw [show silent.phase = _ from phase]; decide)) quiet
      fun k => absurd rfl k
    have cleared := body_cleared body
    rw [body_resetCommand (v := v.doing silent) ?_ requests start (.inr wait),
      reshown_neg (s := (v.doing silent).wasReset) fun k => Option.some_ne_none _ (request.symm.trans k.2.2.1)]
    · rfl
    · rw [stopAction_again (by rw [body_cx cleared]; exact action) phase issued stopped, Bool.or_true]
      exact body_setAction cleared
  · obtain ⟨action, phase, issued, request, alone⟩ := awaits
    let y : Action := { silent with stopped := true }
    let w : State := { v.doing y with
      tray := Tray.answered { t with destPin := none }, shadow := (releaseDest (v.cleared.doing y)).shadow }
    have answer : Tray.answered { t with destPin := none } = { t.answered with destPin := none } := by
      rw [answered_some (t := { t with destPin := none }) request, answered_some request]
      rfl
    have used : (releaseDest (v.cleared.doing y)).shadow.useStamp = v.shadow.useStamp := useStamp_releaseDest _
    have inHandNone : w.tray.request = none := (congrArg (·.request) answer).trans (congrArg (·.request) (answered_some request))
    have completionNone : w.tray.completion = none :=
      (congrArg (·.completion) answer).trans ((congrArg (·.completion) (answered_some request)).trans completion)
    have expected : (({ v with tray := t.answered } : State).moveEnded silent .aborted).wasReset.reshown
        = (w.wasReset.reshown.unheld y).filed (y.failure .aborted) := by
      unfold State.moveEnded
      have whole : w.wasReset = (({ v with tray := t.answered } : State).doing y).wasReset := by
        rw [← wasReset_released (s := (({ v with tray := t.answered } : State).doing y)) (pin := none) used]
        exact congrArg (fun a => ({ v.doing y with
          tray := a, shadow := (releaseDest (v.cleared.doing y)).shadow } : State).wasReset) answer
      rw [actionEnded_filed _ (by decide) unposted, reset_filed, whole, reset_unheld]
      rfl
    rw [expected]
    obtain ⟨cx, tray, remote, log, hdr⟩ := reshown_frame w.wasReset
    refine resets_of ready fun z body => ?_
    have cleared := body_cleared body
    refine courses_moveEnded_unposted (v := w.wasReset.reshown) (x := y) (o := .stopped) ?_
      (congrArg (·.action) cx) phase issued ⟨congrArg (·.pendingCmd) cx, congrArg (·.queue) cx, congrArg (·.netCount) remote,
        congrArg (·.oneShot) remote⟩ (logRoom_reset alone.2.1) unposted (by decide) (tray.trans completionNone) rfl (logQuiet_reset quiet)
    rw [← reset_completed]
    refine body_resetCommand ?_ requests start (.inl inHandNone)
    rw [stopAction_moves (by rw [body_cx cleared]; exact action) phase issued going, Bool.or_true]
    exact body_stopTransport_answers (s := v.cleared.doing y) (body_setAction cleared) request free state

end Sys2Proof.Machine
end
section
/-! The end of a change (R10 to R12), and of settling (R35, R40, R41). -/

namespace Sys2Proof.Machine

/-! ## The linked clip of the slide shown (R11, R63) -/

theorem shownCopy_of_body {s t : State} (h : t.body = s.body) : shownCopy t = shownCopy s := by
  unfold shownCopy
  rw [body_hdr h, body_tray h, body_shadow h]

theorem startLinked_none {s t : State} (h : t.body = s.body) (unlinked : s.linkedClip = none) : startLinked t = t := by
  unfold State.linkedClip at unlinked
  unfold startLinked
  rw [shownCopy_of_body h]
  cases copy : shownCopy s with
  | none => rfl
  | some words =>
    rw [copy, Option.bind_some] at unlinked
    simp only [unlinked]

theorem body_startLinked {clip entry : Nat} {s t : State} (h : t.body = s.body) (linked : s.linkedClip = some clip)
    (misses : clipMisses clip entry s) : (startLinked t).body = (s.fetchingClip clip entry .linked).body := by
  unfold State.linkedClip at linked
  unfold startLinked
  rw [shownCopy_of_body h]
  cases copy : shownCopy s with
  | none => rw [copy] at linked; cases linked
  | some words =>
    rw [copy, Option.bind_some] at linked
    simp only [linked]
    exact body_startRequest_misses h misses

/-! ## A change that has come to its end (R10, R12) -/

/-- A slide seated has its linked clip handed on (R11). -/
def linkedAfter (o : TrayOutcome) (s : State) : State := if o = .seated then startLinked s else s

theorem transportCompleted_change {x : Action} {c : TrayCompletion} {t : State} (action : t.cx.action = some x)
    (phase : x.phase = .moving) (issued : x.issued = true) (going : x.stopped = false)
    (dropped : c.outcome = .seated ∨ c.outcome = .empty) :
    transportCompleted c t = restoreOrEnd (linkedAfter c.outcome (trayAnswered x c t)) := by
  unfold transportCompleted
  rw [action]
  dsimp only
  rw [if_pos ⟨phase, issued⟩]
  unfold linkedAfter trayAnswered
  rcases dropped with outcome | outcome
  · simp only [outcome, going, Bool.false_eq_true, if_false, if_true]
  · simp only [outcome, going, Bool.false_eq_true, if_false, reduceCtorEq]

/-- The action that has its answer goes on to bring the lamp back, or ends (R10, R12). -/
theorem ends_restoreOrEnd {c : Instr} {f : State → State} {s v w : State} {x : Action} (settled : Settled s)
    (hc : exec c s = .next (live f s)) (step : executorStep (f s) = some (restoreOrEnd w))
    (body : w.body = (v.trayAnswered x (v.tray.remaining, v.tray.lastSlot)).body) (alone : endsAlone v x)
    (completion : v.tray.completion = none) (quiet : logQuiet v) (access : w.port.access = s.port.access) :
    (x.restore = none → Ends c s (v.moveEnded x .ok))
      ∧ ∀ level, x.restore = some level → v.thermal.power ≠ .standbyPending → Ends c s (v.restoring x level) := by
  let y : Action := x.answeredWith (v.tray.remaining, v.tray.lastSlot)
  have action : w.cx.action = some y := by rw [body_cx body]; rfl
  refine ⟨fun none_ => ?_, fun level some_ power => ?_⟩
  · obtain ⟨sources, room, active⟩ := alone
    have ends : restoreOrEnd w = endAction .ok w := by
      unfold restoreOrEnd
      rw [action]
      simp only [show y.restore = none from none_]
    rw [ends] at step
    have course := courses_step step (executorStep_endAction body rfl completion sources)
    have same : (v.trayAnswered x (v.tray.remaining, v.tray.lastSlot)).actionEnded y .ok
        (y.answer (v.trayAnswered x (v.tray.remaining, v.tray.lastSlot))) = v.moveEnded x .ok :=
      actionEnded_trayAnswered x .ok _ v
    refine ends_courses hc settled.1 ?_ (executorStep_actionEnded completion sources) ?_ ?_
    · rw [course, ← same]
      exact body_logPump_endAction body rfl quiet room active
    · unfold State.moveEnded
      rw [actionEnded_eq]
      exact logQuiet_posted quiet
    · rw [course, port_logPump, hostWaits_congr (q := s.port)]
      · exact settled.2.2.2
      · rw [← access]
        simp
  · have brings : restoreOrEnd w = requestRamp level w.hdr.settings.blankRate true false
        (setAction { y with phase := .restoring } w) := by
      unfold restoreOrEnd enterPhase
      rw [action]
      simp only [show y.restore = some level from some_]
    have held := body_setAction (x := { y with phase := .restoring }) body
    refine ends_step settled hc step (w := v.restoring x level) ?_ (executorStep_busy completion rfl fun k => nomatch k) quiet ?_
    · rw [brings, body_hdr body]
      exact (body_requestRamp held power).trans rfl
    · rw [brings, ← access]
      simp [setAction]

section
variable {c : Instr} {f : State → State} {s v : State} {x : Action} {o : TrayOutcome} (settled : Settled s)
  (hc : exec c s = .next (live f s)) (body : (f s).body = ({ v with tray := v.tray.completed o } : State).body)
  (action : v.cx.action = some x) (phase : x.phase = .moving) (issued : x.issued = true) (alone : endsAlone v x)
  (completion : v.tray.completion = none) (quiet : logQuiet v) (access : (f s).port.access = s.port.access)
include settled hc body action phase issued alone completion quiet access

/-- **A command ends a change** that the action waits for (R10 to R12). -/
theorem endsChange {linked : Option Nat} (same : v.thermal = s.thermal)
    (dropped : o = .seated ∧ linked = v.linkedClip ∨ o = .empty ∧ linked = none) : EndsChange c s x linked v := by
  have outcome : o = .seated ∨ o = .empty := dropped.imp And.left And.left
  obtain ⟨w, wBody, wPort, step⟩ := courses_answered body completion
  let values : TrayCompletion := { outcome := o, remaining := v.tray.remaining, lastSlot := v.tray.lastSlot }
  have answered := body_trayAnswered (x := x) (c := values) wBody
  have reached : (trayAnswered x values w).port.access = s.port.access := by
    rw [← access, ← wPort]
    simp [trayAnswered, setAction, apply_ite State.port]
  have goes (going : x.stopped = false) : executorStep (f s)
      = some (restoreOrEnd (linkedAfter o (trayAnswered x values w))) := by
    rw [step, transportCompleted_change (by rw [body_cx wBody]; exact action) phase issued going outcome]
  refine ⟨fun stopped => ?_, fun going none_ => ?_, fun clip entry going some_ misses => ?_⟩
  · refine ends_moveEnded settled hc body action phase issued alone completion ?_ quiet access
    rcases outcome with rfl | rfl <;> simp [Action.resultOf, stopped]
  · have plain : linkedAfter o (trayAnswered x values w) = trayAnswered x values w := by
      unfold linkedAfter
      split
      · next seated =>
        refine startLinked_none answered ?_
        rcases dropped with ⟨-, link⟩ | ⟨empty, -⟩
        · exact link.symm.trans none_
        · exact absurd (seated.symm.trans empty) (by decide)
      · rfl
    have step := goes going
    rw [plain] at step
    obtain ⟨ended, restoring⟩ := ends_restoreOrEnd settled hc step answered alone completion quiet reached
    exact ⟨ended, fun level some_ power => restoring level some_ (by rw [same, power]; decide)⟩
  · obtain ⟨seated, link⟩ : o = .seated ∧ linked = v.linkedClip :=
      dropped.resolve_right fun k => Option.some_ne_none clip (some_.symm.trans k.2)
    have handed : linkedAfter o (trayAnswered x values w) = startLinked (trayAnswered x values w) := if_pos seated
    have step := goes going
    rw [handed] at step
    have fetched := body_startLinked (s := v.trayAnswered x (v.tray.remaining, v.tray.lastSlot)) answered
      (link.symm.trans some_) misses
    obtain ⟨ended, restoring⟩ := ends_restoreOrEnd (v := v.fetchingClip clip entry .linked) settled hc step fetched alone
      completion quiet (by rw [← reached]; simp)
    exact ⟨ended, fun level some_ => restoring level some_ fun pending => absurd (misses.1.symm.trans pending) (by decide)⟩

end

theorem awaitsTray.request {s : State} {x : Action} {r : TrayRequest} (awaits : awaitsTray s x r) :
    s.tray.request = some r := awaits.2.2.2.1

/-- What the executor and the Log Writer go by is as it was. -/
structure SameCourse (s u : State) : Prop where
  cx : u.cx = s.cx
  remote : u.remote = s.remote
  log : u.log = s.log
  hdr : u.hdr = s.hdr
  lamp : u.lamp = s.lamp
  thermal : u.thermal = s.thermal
  completion : u.tray.completion = s.tray.completion

/-- **The request in hand is answered with what the drop found**, and the change is over (R40). -/
theorem endsChange_answers {c : Instr} {f : State → State} {s u w : State} {x : Action} {r q : TrayRequest}
    {o : TrayOutcome} {linked : Option Nat} (settled : Settled s) (hc : exec c s = .next (live f s))
    (awaits : awaitsTray s x r) (answers : f s = endRequest o w) (body : w.body = u.body) (same : SameCourse s u)
    (request : u.tray.request = some q) (access : (f s).port.access = s.port.access)
    (dropped : o = .seated ∧ linked = ({ u with tray := u.tray.answered } : State).linkedClip
      ∨ o = .empty ∧ linked = none) : EndsChange c s x linked { u with tray := u.tray.answered } := by
  obtain ⟨action, phase, issued, -, alone⟩ := awaits
  obtain ⟨cx, remote, log, hdr, lamp, thermal, completion⟩ := same
  refine endsChange settled hc (by rw [answers]; exact body_endRequest body request) (by rw [← action]; exact congrArg _ cx)
    phase issued ?_ ?_ ?_ access thermal dropped
  · rw [endsAlone, noSource, logRoom]
    dsimp only
    rw [cx, remote, log, hdr]
    exact alone
  · rw [answered_completion, completion]
    exact completion_of_rest settled.2.1
  · rw [logQuiet]
    dsimp only
    rw [hdr, log]
    exact settled.2.2.1

/-- A command with which the executor's course goes on as it was. -/
theorem ends_same {c : Instr} {f : State → State} {s u : State} (settled : Settled s)
    (hc : exec c s = .next (live f s)) (body : (f s).body = u.body) (same : SameCourse s u)
    (access : (f s).port.access = s.port.access) : Ends c s u :=
  ends_still settled hc body same.completion same.cx (congrArg Lamp.state same.lamp) same.remote same.hdr same.log access

theorem SameCourse.lifts {c : Instr} {f : State → State} {s u : State} (same : SameCourse s u) (settled : Settled s)
    (hc : exec c s = .next (live f s)) (lifts : LiftsTo (f s) u) (access : (f s).port.access = s.port.access) :
    Lifts c s u := by
  refine ends_lifts settled hc lifts ?_ ?_ access
  · exact executor_rest settled.2.1 ⟨same.completion, same.cx, congrArg Lamp.state same.lamp, by rw [same.remote],
      by rw [same.remote], by rw [same.hdr]⟩
  · rw [logQuiet, same.hdr, same.log]
    exact settled.2.2.1

/-! ## The pins at the end of a drop (R40, R63) -/

theorem sameCourse_releaseDest (s : State) : SameCourse s (releaseDest s) := by
  have h := body_releaseDest (s := s) rfl
  exact ⟨(body_cx h).trans rfl, (body_remote h).trans rfl, (body_log h).trans rfl, (body_hdr h).trans rfl,
    (body_lamp h).trans rfl, (body_thermal h).trans rfl, (congrArg Tray.completion (body_tray h)).trans rfl⟩

theorem linkedClip_noTable {s : State} (base : s.hdr.settings.slotBase = 0) : s.linkedClip = none := by
  unfold State.linkedClip shownCopy
  rw [if_pos base]
  rfl

/-- A record that is being fetched gives no linked clip. -/
theorem linkedClip_lacking {k : Nat} {s : State} (shown : s.tray.shownPin = some k) (lacks : s.shadow.lacks .slot k) :
    s.linkedClip = none := by
  have copy : shownCopy s = none := by
    unfold shownCopy
    split
    · rfl
    · rw [shown]
      dsimp only
      split
      · next i found =>
        obtain ⟨d, fields, kind, key⟩ := entry_of_find found
        split
        · next stored stale used entry =>
          rw [entry] at fields
          cases fields
          exact absurd ⟨kind, key⟩ (lacks i d stale used entry)
        · rfl
      · rfl
  unfold State.linkedClip
  rw [copy]
  rfl

section
variable {slot i : Nat} {s t : State} (h : t.body = s.body)
include h

theorem pinShown_noTable (base : s.hdr.settings.slotBase = 0) : pinShown slot t = t := by
  unfold pinShown
  rw [lookup_noTable (by rw [recordBase, body_hdr h]; exact base)]

theorem body_pinShown_misses (misses : slotMisses slot i s) : (pinShown slot t).body
    = (State.fetchingSlot slot i 1 { s with tray := { s.tray with shownPin := some slot } }).body := by
  obtain ⟨base, missing, victim⟩ := misses
  obtain ⟨u, looked, body⟩ := lookup_misses (kind := .slot) (pin := true) h base missing victim
  unfold pinShown
  rw [looked]
  dsimp only
  rw [body_tray body]
  exact (body_putTray_of _ body).trans rfl

theorem body_pinShown_found (found : slotFound slot i s) : (pinShown slot t).body
    = ({ s with shadow := s.shadow.pinned i, tray := { s.tray with shownPin := some slot } } : State).body := by
  obtain ⟨base, found⟩ := found
  have pins (u : State) (body : u.body = ({ s with shadow := s.shadow.pinned i } : State).body) :
      (putTray { u.tray with shownPin := some slot } u).body
        = ({ s with shadow := s.shadow.pinned i, tray := { s.tray with shownPin := some slot } } : State).body := by
    rw [body_tray body]
    exact body_putTray_of _ body
  unfold pinShown
  cases valid : (s.shadow.entry i).isValid with
  | true =>
    obtain ⟨d, stale, used, u, -, looked, body⟩ := lookup_valid (kind := .slot) h base found valid
    rw [looked]
    exact pins u body
  | false =>
    obtain ⟨u, looked, body⟩ := lookup_filling (kind := .slot) h base found valid
    rw [looked]
    exact pins u body

end

theorem releaseDest_unpinned {s : State} (none_ : s.tray.destPin = none) : releaseDest s = s := by
  rw [releaseDest, none_]

theorem body_releaseDest_found {d m : Nat} {s t : State} (h : t.body = s.body) (some_ : s.tray.destPin = some d)
    (found : s.shadow.find .slot d = some m) (waits : noLookupWaits (s.undestined m)) :
    (releaseDest t).body = (s.undestined m).body := by
  have released : (releaseDest s).shadow = s.shadow.released m := by
    rw [releaseDest, some_]
    have found' : (putTray { s.tray with destPin := none } s).shadow.find .slot d = some m := by simpa using found
    refine (shadow_releasePin found' ?_).trans (by simp)
    rw [← waits]
    exact waitingLookups_congr ⟨by simp [State.undestined], by simp [State.undestined],
      userLookups_congr (by simp [State.undestined]) (by simp [State.undestined])⟩
  have whole := body_releaseDest h
  rw [released] at whole
  exact whole

/-! ## Settling (R35, R40, R41) -/

theorem settleExpiry_early {s : State} (early : s.now - s.tray.timerStart < 150000) : settleExpiry s = s := by
  unfold settleExpiry settleDue
  rw [if_neg]
  intro due
  rw [Bool.and_eq_true, limitPassed_iff] at due
  exact absurd due.2 (Nat.not_le_of_lt early)

theorem settleExpiry_change {s : State} (state : s.tray.state = .settle) (due : 150000 ≤ s.now - s.tray.timerStart) :
    settleExpiry s = settleChange s := by
  have passed : settleDue s = true := by
    rw [settleDue, Bool.and_eq_true, limitPassed_iff, Tray.settling, state]
    exact ⟨rfl, due⟩
  unfold settleExpiry
  rw [if_pos passed, if_neg (by rw [state]; decide)]

theorem settleExpiry_homing {s : State} (state : s.tray.state = .homing) (step : s.tray.homingStep = .settle)
    (due : 150000 ≤ s.now - s.tray.timerStart) : settleExpiry s = settleHoming s := by
  have passed : settleDue s = true := by
    rw [settleDue, Bool.and_eq_true, limitPassed_iff, Tray.settling, state, step]
    exact ⟨rfl, due⟩
  unfold settleExpiry
  rw [if_pos passed, if_pos state]

theorem access_settleExpiry (s : State) : (settleExpiry s).port.access = s.port.access := by simp

/-- The state at rest after a drop (R40). -/
def Tray.atRest (t : Tray) : Tray := { t with state := if t.known then .ready else .unhomed }

/-- An end of settling with nothing to continue answers the request, once the pins are as they are to be. -/
theorem settleChange_answers {s u w : State} (pins : (if s.tray.gate = .loaded then seatPin s else releaseDest s) = w)
    (body : w.body = u.body) (ends : continues u = false) :
    ∃ v, settleChange s = endRequest (dropOutcome u.tray) v ∧ v.body = ({ u with tray := u.tray.atRest } : State).body := by
  have same : continues w = false := by
    rw [← ends]
    unfold continues
    rw [body_tray body]
  have rests := body_putTray_of u.tray.atRest body
  refine ⟨_, ?_, rests⟩
  unfold settleChange
  rw [pins]
  dsimp only
  rw [if_neg (ne_true_of_eq_false same), body_tray body, putTray_tray]
  rfl

theorem continues_loaded {s : State} (loaded : s.tray.gate = .loaded) : continues s = false := by
  unfold continues
  split
  · rw [loaded]
    rfl
  · rfl

/-- A drop has nothing to continue without skipping, at position 0, with the position lost or a stop requested (R40). -/
theorem continues_over {r : TrayRequest} {s : State} (request : s.tray.request = some r)
    (ends : r.skipping = false ∨ s.tray.slot = 0 ∨ s.tray.known = false ∨ r.stopRequested = true) :
    continues s = false := by
  unfold continues
  rw [request]
  rcases ends with ends | ends | ends | ends <;> simp [ends]

theorem body_seatPin_here {s : State} (here : s.tray.destPin = some s.tray.slot) : (seatPin s).body
    = ({ s with tray := { s.tray with shownPin := s.tray.destPin, destPin := none } } : State).body := by
  unfold seatPin
  rw [if_pos here]
  exact body_putTray_of _ rfl

/-- The record of a slide seated off the destination is looked up (R34, R71). -/
abbrev looksUp (s : State) (p : Plan) : Prop := s.tray.destPin ≠ none ∨ s.tray.repin = true ∨ p.dest ≠ s.tray.slot

theorem seatPin_there {p : Plan} {r : TrayRequest} {s : State} (there : s.tray.destPin ≠ some s.tray.slot)
    (request : s.tray.request = some r) (plan : r.plan = some p) : seatPin s
      = if looksUp s p then pinShown s.tray.slot (releaseDest s) else releaseDest s := by
  have tray := body_tray (body_releaseDest (s := s) rfl)
  unfold seatPin
  rw [if_neg there]
  dsimp only
  rw [tray]
  dsimp only
  rw [request]
  dsimp only
  rw [plan]
  dsimp only
  refine if_congr ?_ rfl rfl
  rw [Bool.or_eq_true, Bool.or_eq_true, decide_eq_true_iff, Option.isSome_iff_ne_none, or_assoc]

theorem atRest_shown (k : Option Nat) (t : Tray) :
    ({ t with shownPin := k } : Tray).atRest.answered = { t.atRest.answered with shownPin := k } := by
  unfold Tray.answered
  cases request : t.request with
  | none => simp only [Tray.atRest, request]
  | some r =>
    simp only [Tray.atRest, request]
    rfl

theorem answered_shownPin (t : Tray) : t.answered.shownPin = t.shownPin := by
  unfold Tray.answered
  split <;> rfl

theorem dropOutcome_loaded {t : Tray} (loaded : t.gate = .loaded) : dropOutcome t = .seated := if_pos loaded

theorem dropOutcome_empty {t : Tray} (loaded : t.gate ≠ .loaded) : dropOutcome t = .empty := if_neg loaded

section
variable {s : State} {x : Action} {r : TrayRequest} (settled : Settled s) (state : s.tray.state = .settle)
  (due : 150000 ≤ s.now - s.tray.timerStart) (awaits : awaitsTray s x r)
include settled state due awaits

/-- A change ends once its pins are as they are to be. -/
theorem endsChange_settled {u w : State} {linked : Option Nat}
    (pins : (if s.tray.gate = .loaded then seatPin s else releaseDest s) = w) (body : w.body = u.body)
    (ends : continues u = false) (same : SameCourse s u) (request : u.tray.request = s.tray.request)
    (dropped : u.tray.gate = .loaded ∧ linked = ({ u with tray := u.tray.atRest.answered } : State).linkedClip
      ∨ u.tray.gate ≠ .loaded ∧ linked = none) :
    EndsChange .settleEnd s x linked { u with tray := u.tray.atRest.answered } := by
  obtain ⟨v, answers, rests⟩ := settleChange_answers pins body ends
  rw [← settleExpiry_change state due] at answers
  refine endsChange_answers (u := { u with tray := u.tray.atRest }) settled rfl awaits answers rests ?_
    (request.trans awaits.request) (access_settleExpiry s) ?_
  · exact ⟨same.cx, same.remote, same.log, same.hdr, same.lamp, same.thermal, same.completion⟩
  · exact dropped.imp (And.imp_left dropOutcome_loaded) (And.imp_left dropOutcome_empty)

end

/-! ## Going on after an empty drop (R41) -/

theorem mod_ne_zero {k n : Nat} (pos : 0 < k) (below : k < 2 * n) (other : k ≠ n) : k % n ≠ 0 := by
  rcases Nat.lt_or_ge k n with small | large
  · rw [Nat.mod_eq_of_lt small]
    exact Nat.ne_of_gt pos
  · rw [Nat.mod_eq_sub_mod large, Nat.mod_eq_of_lt (by omega)]
    omega

/-- Two positions apart are some positions apart (R33). -/
theorem posDistance_ne_zero {n a b : Nat} (dir : Dir) (ha : a < n) (hb : b < n) (apart : a ≠ b) :
    posDistance n dir a b ≠ 0 := by
  cases dir with
  | forward => exact mod_ne_zero (by omega) (by omega) (by omega)
  | reverse => exact mod_ne_zero (by omega) (by omega) (by omega)

theorem nextPos_lt {n : Nat} (dir : Dir) (p : Nat) (pos : 0 < n) : nextPos n dir p < n := by
  cases dir <;> exact Nat.mod_lt _ pos

theorem nextPos_ne {n p : Nat} (dir : Dir) (off : p ≠ 0) (inside : p < n) : nextPos n dir p ≠ p := by
  cases dir with
  | forward =>
    show (p + 1) % n ≠ p
    rcases Nat.lt_or_ge (p + 1) n with small | large
    · rw [Nat.mod_eq_of_lt small]
      omega
    · rw [show p + 1 = n by omega, Nat.mod_self]
      exact off.symm
  | reverse =>
    show (p + (n - 1)) % n ≠ p
    rw [show p + (n - 1) = p - 1 + n by omega, Nat.add_mod_right, Nat.mod_eq_of_lt (by omega)]
    omega

theorem settleChange_continues {s w : State} (pins : (if s.tray.gate = .loaded then seatPin s else releaseDest s) = w)
    (more : continues w = true) : settleChange s = startSearch 1 (putTray { w.tray with state := .ready } w) := by
  unfold settleChange
  rw [pins]
  exact if_pos more

theorem continues_skipping {s : State} {r : TrayRequest} {k : Nat} (request : s.tray.request = some r)
    (empty : s.tray.gate = .empty) (kind : r.kind = .advance k ∨ r.kind = .reverse k) (skip : r.skipping = true)
    (off : s.tray.slot ≠ 0) (known : s.tray.known = true) (going : r.stopRequested = false) : continues s = true := by
  unfold continues
  rw [request]
  rcases kind with kind | kind <;> simp [empty, skip, off, known, going, kind]

/-- A search that is over in READY fixes its destination (R33, R34). -/
theorem searchDone_fixes {dir : Dir} {dest find : Nat} {found : List Nat} {r : TrayRequest} {s t : State}
    (h : t.body = s.body) (request : s.tray.request = some r) (state : s.tray.state ≠ .rotate) :
    let p : Plan := { dir := dir, dest := dest, toGo := posDistance s.tray.n dir s.tray.slot dest }
    ∃ u, searchDone dir dest found find t = fixDestination p u ∧ u.body = ({ s with tray := { s.tray with
          wait := .none, request := some { r with found := found, toFind := find } } } : State).body := by
  intro p
  have set := body_putTray_of { s.tray with wait := .none, request := some { r with found := found, toFind := find } } h
  refine ⟨_, ?_, set⟩
  unfold searchDone
  rw [body_tray h, request]
  dsimp only
  rw [body_tray set]
  exact if_neg state

/-- With no table, a search for one looks at the next position, and takes it when it is not EMPTY (R33). -/
theorem searchRun_takes {n : Nat} {dir : Dir} {pos : Nat} {r : TrayRequest} {s t : State} (h : t.body = s.body)
    (request : s.tray.request = some r) (kind : r.kind.dir = dir) (base : s.hdr.settings.slotBase = 0) (off : pos ≠ 0)
    (there : (s.tray.presence[pos]?).getD .unknown ≠ .empty) :
    ∃ u, searchRun (n + 1) { pos := pos, find := 1, found := [] } t = searchDone dir pos [pos] 0 u
      ∧ u.body = ({ s with tray := { s.tray with
          request := some { r with examined := r.examined + 1 } } } : State).body := by
  have looked := body_putTray_of { s.tray with request := some { r with examined := r.examined + 1 } } h
  refine ⟨_, ?_, looked⟩
  have absent : lookup .slot pos false t = (t, .absent) := lookup_noTable (by rw [recordBase, body_hdr h]; exact base)
  have hit : eligible { s.tray with request := some { r with examined := r.examined + 1 } } pos false = true := by
    simp [eligible, off, there]
  unfold searchRun
  simp only [absent]
  unfold searchLook
  simp only [body_tray h, request, putTray_tray, hit, kind]
  rfl

/-- The lift of a search that has found its destination, with no table (R36). -/
theorem liftsTo_searchDone {dir : Dir} {dest find : Nat} {found : List Nat} {r : TrayRequest} {s t : State}
    (h : t.body = s.body) (request : s.tray.request = some r) (state : s.tray.state = .ready)
    (base : s.hdr.settings.slotBase = 0) (goes : posDistance s.tray.n dir s.tray.slot dest ≠ 0)
    (low : s.tray.topOn = false) :
    let p : Plan := { dir := dir, dest := dest, toGo := posDistance s.tray.n dir s.tray.slot dest }
    let q : TrayRequest := { r with found := found, toFind := find, plan := some p }
    LiftsTo (searchDone dir dest found find t)
      { s with tray := { s.tray.lifted q s.now with repin := s.tray.repin } } := by
  intro p q
  obtain ⟨u, fixes, body⟩ := searchDone_fixes (dir := dir) (dest := dest) (find := find) (found := found) h request
    (by rw [state]; decide)
  obtain ⟨v, ready, set⟩ := fixDestination_noTable (p := p) body base
  rw [fixes, ready]
  have lifts := liftsTo_destinationReady set (by rw [planSet_some rfl]; dsimp only; rw [state]; decide) ?_
    (by rw [planSet_some rfl]; exact low)
  · rw [planSet_some rfl] at lifts
    exact lifts
  · rw [planSet_some rfl]
    show (r.homed && decide (posDistance s.tray.n dir s.tray.slot dest = 0)) = false
    rw [decide_eq_false goes, Bool.and_false]

/-! ## The settling of homing (R35) -/

/-- The tray stands at position 0, and the position is known. -/
def Tray.atHome (t : Tray) : Tray := { t with state := .ready, known := true, slot := 0 }

/-- The part with the record of a slide at 0 pinned, where there is one. -/
def seatHome (s : State) : State :=
  if s.tray.gate = .loaded then pinShown 0 (putTray s.tray.atHome s) else putTray s.tray.atHome s

section
variable {s : State} {i : Nat}

theorem body_atHome (s : State) : (putTray s.tray.atHome s).body = ({ s with tray := s.tray.atHome } : State).body :=
  body_putTray _ s

theorem body_seatHome_bare (bare : s.tray.gate ≠ .loaded ∨ s.hdr.settings.slotBase = 0) :
    (seatHome s).body = ({ s with tray := s.tray.atHome } : State).body := by
  unfold seatHome
  split
  · next loaded =>
    rw [pinShown_noTable (body_atHome s) (bare.resolve_left fun k => k loaded)]
    exact body_atHome s
  · exact body_atHome s

theorem body_seatHome_misses (loaded : s.tray.gate = .loaded) (misses : slotMisses 0 i s) : (seatHome s).body
    = (State.fetchingSlot 0 i 1 { s with tray := { s.tray.atHome with shownPin := some 0 } }).body := by
  unfold seatHome
  rw [if_pos loaded]
  exact body_pinShown_misses (body_atHome s) misses

theorem body_seatHome_found (loaded : s.tray.gate = .loaded) (found : slotFound 0 i s) : (seatHome s).body
    = ({ s with shadow := s.shadow.pinned i, tray := { s.tray.atHome with shownPin := some 0 } } : State).body := by
  unfold seatHome
  rw [if_pos loaded]
  exact body_pinShown_found (body_atHome s) found

end

theorem settleHoming_eq {s b : State} {r : TrayRequest} (body : (seatHome s).body = b.body)
    (request : b.tray.request = some r) : settleHoming s
      = if r.stopRequested then endRequest (dropOutcome b.tray) (seatHome s)
        else planRequest (putTray { b.tray with request := some { r with homed := true } } (seatHome s)) := by
  have whole : settleHoming s = match (seatHome s).tray.request with
      | some r =>
        if r.stopRequested then endRequest (dropOutcome (seatHome s).tray) (seatHome s)
        else planRequest (putTray { (seatHome s).tray with request := some { r with homed := true } } (seatHome s))
      | none => seatHome s := by
    unfold settleHoming seatHome
    simp only [putTray_tray]
    rfl
  rw [whole, body_tray body, request]

/-- A GOTO is planned from position 0 once the tray is at home (R31, R35). -/
theorem settleHoming_plans {s b : State} {r : TrayRequest} {target : Nat} (body : (seatHome s).body = b.body)
    (request : b.tray.request = some r) (going : r.stopRequested = false) (kind : r.kind = .goto target)
    (slot : b.tray.slot = 0) : ∃ v, settleHoming s = fixDestination (Plan.goto b.tray.n 0 target) v
      ∧ v.body = ({ b with tray := { b.tray with request := some { r with homed := true } } } : State).body := by
  have set := body_putTray_of { b.tray with request := some { r with homed := true } } body
  refine ⟨_, ?_, set⟩
  rw [settleHoming_eq body request, if_neg (ne_true_of_eq_false going),
    planRequest_plain (r := { r with homed := true }) (by rw [body_tray set])
      (by rw [show ({ r with homed := true } : TrayRequest).kind = _ from kind]; exact fun k => nomatch k)
      (.inr ⟨target, kind⟩) (by rw [body_tray set]; exact slot.trans_le (Nat.zero_le _)), body_tray set]
  dsimp only
  rw [slot, kind]
  rfl

theorem goto_home (n : Nat) : Plan.goto n 0 0 = { dir := .forward, dest := 0, toGo := 0 } := by
  unfold Plan.goto
  simp

theorem dest_goto (n slot target : Nat) : (Plan.goto n slot target).dest = target := by
  unfold Plan.goto
  dsimp only
  split <;> rfl

theorem toGo_goto {n target : Nat} (off : 0 < target) (inside : target < n) : (Plan.goto n 0 target).toGo ≠ 0 := by
  have d : (target + n - 0) % n = target := by rw [Nat.sub_zero, Nat.add_mod_right, Nat.mod_eq_of_lt inside]
  unfold Plan.goto
  rw [d]
  dsimp only
  split <;> simp only <;> omega

/-- A plan of no positions after homing is answered with the homing drop's outcome (R35). -/
theorem destinationReady_answers {s t : State} (h : t.body = s.body) (state : s.tray.state ≠ .rotate)
    (here : s.tray.homedHere = true) : ∃ v, destinationReady t = endRequest (dropOutcome s.tray) (releaseDest v)
      ∧ v.body = ({ s with tray := { s.tray with wait := .none } } : State).body := by
  have set := body_putTray_of { s.tray with wait := .none } h
  refine ⟨putTray { t.tray with wait := .none } t, ?_, by rw [body_tray h]; exact set⟩
  unfold destinationReady
  rw [body_tray h]
  dsimp only
  rw [body_tray set, if_neg state]
  exact if_pos here

/-! ## Entries pinned and filled (R56 to R58) -/

theorem entry_setEntry (sh : Shadow) (i j : Nat) (e : WatchEntry) :
    (sh.setEntry i e).entry j = if i = j ∧ i < 16 then e else sh.entry j := by
  unfold Shadow.setEntry Shadow.entry
  rw [Vector.getElem?_setIfInBounds]
  by_cases same : i = j
  · subst same
    by_cases inside : i < 16 <;> simp [inside]
  · simp [same]

theorem isValid_set {sh : Shadow} {i : Nat} {e : WatchEntry} (same : e.isValid = (sh.entry i).isValid) (j : Nat) :
    ((sh.setEntry i e).entry j).isValid = (sh.entry j).isValid := by
  rw [entry_setEntry]
  split
  · next here => rw [same, here.1]
  · rfl

theorem isValid_pinned (sh : Shadow) (i j : Nat) : ((sh.pinned i).entry j).isValid = (sh.entry j).isValid := by
  unfold Shadow.pinned
  cases entry : sh.entry i with
  | free => rfl
  | filling d => exact isValid_set (by rw [entry]; rfl) j
  | valid d stale used => exact isValid_set (e := .valid _ _ _) (by rw [entry]; rfl) j

theorem leastRecent_lt : ∀ (l : List WatchEntry) (k : Nat) (b : Nat × Nat), leastRecent l k = some b → b.1 < k + l.length
  | [], _, _, h => nomatch h
  | e :: rest, k, b, h => by
    have later (c : Nat × Nat) (best : leastRecent rest (k + 1) = some c) : c.1 < k + (e :: rest).length := by
      have := leastRecent_lt rest (k + 1) c best
      rw [List.length_cons]
      omega
    have here : k < k + (e :: rest).length := by
      rw [List.length_cons]
      omega
    unfold leastRecent at h
    split at h
    · next best =>
      split at h
      · cases h; exact here
      · cases h; exact later _ best
    · split at h
      · cases h; exact here
      · cases h
    · exact later b h

theorem victim_lt {sh : Shadow} {i : Nat} (victim : sh.victim = some i) : i < 16 := by
  unfold Shadow.victim at victim
  split at victim
  · next j free =>
    cases victim
    obtain ⟨inside, -⟩ := List.findIdx?_eq_some_iff_getElem.1 free
    simpa using inside
  · obtain ⟨b, best, rfl⟩ := Option.map_eq_some_iff.1 victim
    simpa using leastRecent_lt _ 0 b best

theorem find_filled {sh : Shadow} {i : Nat} {e : EntryData} (inside : i < 16)
    (missing : sh.find e.kind e.key = none) : (sh.setEntry i (.filling e)).find e.kind e.key = some i := by
  unfold Shadow.find Shadow.setEntry
  rw [Vector.toList_setIfInBounds]
  have absent := List.findIdx?_eq_none_iff.1 missing
  refine List.findIdx?_eq_some_iff_getElem.2 ⟨by simpa using inside, ?_, fun j before => ?_⟩
  · simp [WatchEntry.holds, WatchEntry.fields]
  · rw [List.getElem_set_ne (Nat.ne_of_gt before)]
    exact ne_true_of_eq_false (absent _ (List.getElem_mem _))

/-- The fetch of a miss joined. -/
theorem pinned_filled {sh : Shadow} {i : Nat} {e : EntryData} (inside : i < 16) :
    (sh.setEntry i (.filling e)).pinned i = sh.setEntry i (.filling { e with pins := e.pins + 1 }) := by
  have entry : (sh.setEntry i (.filling e)).entry i = .filling e := by
    rw [entry_setEntry, if_pos ⟨rfl, inside⟩]
  unfold Shadow.pinned
  rw [entry]
  simp [Shadow.setEntry]

section
variable {s b : State} {x : Action} {r : TrayRequest} (settled : Settled s) (state : s.tray.state = .homing)
  (step : s.tray.homingStep = .settle) (due : 150000 ≤ s.now - s.tray.timerStart) (body : (seatHome s).body = b.body)
  (same : SameCourse s b) (request : b.tray.request = some r)
include settled state step due body same request

/-- A stop ends the request with the settling of homing (R45). -/
theorem endsChange_homed {linked : Option Nat} (awaits : awaitsTray s x r) (stop : r.stopRequested = true)
    (dropped : b.tray.gate = .loaded ∧ linked = ({ b with tray := b.tray.answered } : State).linkedClip
      ∨ b.tray.gate ≠ .loaded ∧ linked = none) :
    EndsChange .settleEnd s x linked { b with tray := b.tray.answered } := by
  refine endsChange_answers settled rfl awaits ?_ body same request (access_settleExpiry s)
    (dropped.imp (And.imp_left dropOutcome_loaded) (And.imp_left dropOutcome_empty))
  rw [settleExpiry_homing state step due, settleHoming_eq body request]
  exact if_pos stop

end

section
variable {s b : State} {x : Action} {r : TrayRequest} {target : Nat} (state : s.tray.state = .homing)
  (step : s.tray.homingStep = .settle) (due : 150000 ≤ s.now - s.tray.timerStart) (body : (seatHome s).body = b.body)
  (request : b.tray.request = some r) (going : r.stopRequested = false) (slot : b.tray.slot = 0)
include state step due body request going slot

/-- A GOTO goes on from position 0. -/
theorem settleExpiry_plans (kind : r.kind = .goto target) :
    ∃ v, settleExpiry s = fixDestination (Plan.goto b.tray.n 0 target) v
      ∧ v.body = ({ b with tray := { b.tray with request := some { r with homed := true } } } : State).body := by
  rw [settleExpiry_homing state step due]
  exact settleHoming_plans body request going kind slot

/-- A GOTO to position 0 goes nowhere. -/
theorem settleExpiry_stays (kind : r.kind = .goto 0) :
    ∃ v, settleExpiry s = fixDestination { dir := .forward, dest := 0, toGo := 0 } v
      ∧ v.body = ({ b with tray := { b.tray with request := some { r with homed := true } } } : State).body := by
  rw [← goto_home b.tray.n]
  exact settleExpiry_plans state step due body request going slot kind

end

/-- The request planned to stay at position 0 (R35). -/
def TrayRequest.homedHere (r : TrayRequest) : TrayRequest :=
  { r with homed := true, plan := some { dir := .forward, dest := 0, toGo := 0 } }

theorem homedHere_planned {t : Tray} {r : TrayRequest} (request : t.request = some r.homedHere) : t.homedHere = true := by
  simp [Tray.homedHere, Tray.toGo, TrayRequest.homedHere, request]

theorem homedHere_goes {t : Tray} {r : TrayRequest} {p : Plan} (goes : p.toGo ≠ 0)
    (request : t.request = some { r with plan := some p }) : t.homedHere = false := by
  simp [Tray.homedHere, Tray.toGo, request, goes]

/-- Its answer (R42). -/
theorem answered_homedHere {t : Tray} {r : TrayRequest} (request : t.request = some r.homedHere) (slot : t.slot = 0) :
    t.answered = { t with request := none, wait := .none, repin := false, remaining := 0, lastSlot := 0 } := by
  rw [answered_some request]
  simp [Tray.endValues, TrayRequest.homedHere, slot]

section
variable {slot i pins : Nat} {s : State} (misses : slotMisses slot i s)
include misses

theorem slotFound_fetching : slotFound slot i (s.fetchingSlot slot i pins) :=
  ⟨misses.1, find_filled (victim_lt misses.2.2) misses.2.1
    (e := { kind := .slot, key := slot, addr := s.hdr.settings.slotBase + 4 * slot, copy := [], pins := pins })⟩

theorem entry_fetching : (s.fetchingSlot slot i pins).shadow.entry i = .filling
    { kind := .slot, key := slot, addr := s.hdr.settings.slotBase + 4 * slot, copy := [], pins := pins } :=
  (entry_setEntry s.shadow i i _).trans (if_pos ⟨rfl, victim_lt misses.2.2⟩)

theorem pinned_fetching : (s.fetchingSlot slot i pins).shadow.pinned i = (s.fetchingSlot slot i (pins + 1)).shadow := by
  unfold Shadow.pinned
  rw [entry_fetching misses]
  simp [State.fetchingSlot, Shadow.setEntry]

end

section
variable {s b : State} {x : Action} {r : TrayRequest} {i : Nat} (settled : Settled s) (state : s.tray.state = .homing)
  (step : s.tray.homingStep = .settle) (due : 150000 ≤ s.now - s.tray.timerStart) (body : (seatHome s).body = b.body)
  (same : SameCourse s b) (request : b.tray.request = some r) (going : r.stopRequested = false)
  (slot : b.tray.slot = 0) (kind : r.kind = .goto 0) (found : slotFound 0 i b)
include settled state step due body same request going slot kind found

/-- Staying at position 0 waits for a record that is being fetched. -/
theorem ends_homeWaits (filling : (b.shadow.entry i).isValid = false) : Ends .settleEnd s { b with
    shadow := b.shadow.pinned i
    tray := { b.tray with request := some r.homedHere, destPin := some 0, wait := .destination } } := by
  obtain ⟨v, plans, held⟩ := settleExpiry_stays state step due body request going slot kind
  have joined := body_fixDestination_filling (p := { dir := .forward, dest := 0, toGo := 0 }) held found filling
  rw [planSet_some rfl] at joined
  exact ends_same settled rfl ((congrArg State.body plans).trans joined)
    ⟨same.cx, same.remote, same.log, same.hdr, same.lamp, same.thermal, same.completion⟩ (access_settleExpiry s)

/-- With the record VALID the request ends there (R35). -/
theorem endsChange_homeFound {linked : Option Nat} (awaits : awaitsTray s x r) (valid : (b.shadow.entry i).isValid = true)
    (ready : b.tray.state = .ready) (pin : b.tray.destPin = none) :
    let v : State := { b with
      shadow := (b.shadow.pinned i).released i
      tray := { b.tray with
        request := none, wait := .none, repin := false, remaining := 0, lastSlot := 0 } }
    noLookupWaits v → (b.tray.gate = .loaded ∧ linked = v.linkedClip ∨ b.tray.gate ≠ .loaded ∧ linked = none) →
      EndsChange .settleEnd s x linked v := by
  intro v waits dropped
  let c : State := { b with
    shadow := b.shadow.pinned i
    tray := { b.tray with request := some r.homedHere, destPin := some 0, wait := .none } }
  have final : (c.undestined i).tray.answered = v.tray := by
    rw [answered_homedHere (t := (c.undestined i).tray) (r := r) rfl slot]
    exact congrArg (fun p => ({ v.tray with destPin := p } : Tray)) pin.symm
  obtain ⟨w, plans, held⟩ := settleExpiry_stays state step due body request going slot kind
  obtain ⟨y, goes, set⟩ := fixDestination_valid (p := { dir := .forward, dest := 0, toGo := 0 }) held found valid
  rw [planSet_some rfl] at set
  obtain ⟨z, answers, last⟩ := destinationReady_answers set (by rw [show _ = TrayState.ready from ready]; decide)
    (homedHere_planned (r := r) rfl)
  have released : (releaseDest z).body = (c.undestined i).body := by
    refine body_releaseDest_found (s := c) last rfl ((find_pinned _ _).trans found.2) ?_
    rw [noLookupWaits, ← waits]
    refine waitingLookups_congr ⟨rfl, rfl, ?_⟩
    simp only [userLookups, State.undestined, v, c, pin]
  have change := endsChange_answers (c := .settleEnd) (u := c.undestined i) (linked := linked) settled rfl awaits
    ((plans.trans goes).trans answers) released
    ⟨same.cx, same.remote, same.log, same.hdr, same.lamp, same.thermal, same.completion⟩ rfl (access_settleExpiry s) ?_
  · exact (congrArg (fun a => EndsChange .settleEnd s x linked { c.undestined i with tray := a }) final).mp change
  · refine dropped.imp (fun ⟨loaded, same⟩ => ⟨dropOutcome_loaded loaded, same.trans ?_⟩) (And.imp_left dropOutcome_empty)
    exact congrArg (fun a => ({ c.undestined i with tray := a } : State).linkedClip) final.symm

end

/-! ## The slide after the drop (R40) -/

/-- Where a settling ends: the pin of the destination released, and the request answered. -/
def State.restUnpinned (s : State) : State := { releaseDest s with tray := Tray.answered { (releaseDest s).tray with
  state := if s.tray.known then .ready else .unhomed } }

/-- The same, with the pin of the slide shown to be that of its slot. -/
def State.restAfresh (s : State) : State :=
  { s.restUnpinned with tray := { s.restUnpinned.tray with shownPin := some s.tray.slot } }

theorem tray_releaseDest (s : State) : (releaseDest s).tray = { s.tray with destPin := none } :=
  body_tray (body_releaseDest (s := s) rfl)

theorem request_releaseDest (s : State) : (releaseDest s).tray.request = s.tray.request := by rw [tray_releaseDest]

theorem gate_releaseDest (s : State) : (releaseDest s).tray.gate = s.tray.gate := by rw [tray_releaseDest]

theorem slotBase_releaseDest (s : State) : (releaseDest s).hdr.settings.slotBase = s.hdr.settings.slotBase := by
  rw [(sameCourse_releaseDest s).hdr]

theorem now_releaseDest (s : State) : (releaseDest s).now = s.now := (body_now (body_releaseDest (s := s) rfl)).trans rfl

theorem restUnpinned_eq (s : State) :
    { releaseDest s with tray := (releaseDest s).tray.atRest.answered } = s.restUnpinned := by
  unfold State.restUnpinned Tray.atRest
  rw [tray_releaseDest]

theorem restAfresh_tray (s : State) :
    ({ (releaseDest s).tray with shownPin := some s.tray.slot } : Tray).atRest.answered = s.restAfresh.tray :=
  (atRest_shown (some s.tray.slot) (releaseDest s).tray).trans
    (congrArg (fun t : Tray => { t with shownPin := some s.tray.slot }) (congrArg State.tray (restUnpinned_eq s)))

section
variable {s : State} {x : Action} {r : TrayRequest} (settled : Settled s) (state : s.tray.state = .settle)
  (due : 150000 ≤ s.now - s.tray.timerStart) (awaits : awaitsTray s x r)
include settled state due awaits

section
variable {p : Plan} {j : Nat} (plan : r.plan = some p) (loaded : s.tray.gate = .loaded)
  (there : s.tray.destPin ≠ some s.tray.slot)
include plan loaded there

theorem endsChange_elsewhere_noTable (base : s.hdr.settings.slotBase = 0) :
    EndsChange .settleEnd s x none s.restUnpinned := by
  have base' := (slotBase_releaseDest s).trans base
  have bare : seatPin s = releaseDest s := by
    rw [seatPin_there there awaits.request plan, pinShown_noTable (s := releaseDest s) rfl base', ite_self]
  have gate := (gate_releaseDest s).trans loaded
  rw [← restUnpinned_eq]
  exact endsChange_settled settled state due awaits ((if_pos loaded).trans bare) rfl (continues_loaded gate)
    (sameCourse_releaseDest s) (request_releaseDest s) (.inl ⟨gate, (linkedClip_noTable (by exact base')).symm⟩)

theorem endsChange_elsewhere_plain (plain : ¬ looksUp s p) :
    EndsChange .settleEnd s x s.restUnpinned.linkedClip s.restUnpinned := by
  have bare : seatPin s = releaseDest s := by
    rw [seatPin_there there awaits.request plan, if_neg plain]
  have gate := (gate_releaseDest s).trans loaded
  rw [← restUnpinned_eq]
  exact endsChange_settled settled state due awaits ((if_pos loaded).trans bare) rfl (continues_loaded gate)
    (sameCourse_releaseDest s) (request_releaseDest s) (.inl ⟨gate, rfl⟩)

theorem endsChange_elsewhere_misses (looks : looksUp s p) (misses : slotMisses s.tray.slot j (releaseDest s)) :
    EndsChange .settleEnd s x none (s.restAfresh.fetchingSlot s.tray.slot j 1) := by
  have pins : seatPin s = pinShown s.tray.slot (releaseDest s) := by
    rw [seatPin_there there awaits.request plan, if_pos looks]
  have same := sameCourse_releaseDest s
  have gate := (gate_releaseDest s).trans loaded
  have change := endsChange_settled (linked := none) settled state due awaits ((if_pos loaded).trans pins)
    (body_pinShown_misses rfl misses) (continues_loaded gate)
    ⟨same.cx, same.remote, same.log, same.hdr, same.lamp, same.thermal, same.completion⟩ (request_releaseDest s)
    (.inl ⟨gate, (linkedClip_lacking (k := s.tray.slot) ?_ (lacks_setFilling (lacks_of_find misses.2.1))).symm⟩)
  · exact (congrArg (fun a => EndsChange .settleEnd s x none
      (State.fetchingSlot s.tray.slot j 1 { releaseDest s with tray := a })) (restAfresh_tray s)).mp change
  · exact congrArg Tray.shownPin (restAfresh_tray s)

theorem endsChange_elsewhere_found (looks : looksUp s p) (finds : slotFound s.tray.slot j (releaseDest s)) :
    let v : State := { s.restAfresh with shadow := (releaseDest s).shadow.pinned j }
    EndsChange .settleEnd s x v.linkedClip v := by
  intro v
  have pins : seatPin s = pinShown s.tray.slot (releaseDest s) := by
    rw [seatPin_there there awaits.request plan, if_pos looks]
  have same := sameCourse_releaseDest s
  have gate := (gate_releaseDest s).trans loaded
  have change := endsChange_settled (linked := v.linkedClip) settled state due awaits ((if_pos loaded).trans pins)
    (body_pinShown_found rfl finds) (continues_loaded gate)
    ⟨same.cx, same.remote, same.log, same.hdr, same.lamp, same.thermal, same.completion⟩ (request_releaseDest s)
    (.inl ⟨gate, ?_⟩)
  · exact (congrArg (fun a => EndsChange .settleEnd s x v.linkedClip ({ releaseDest s with
      shadow := (releaseDest s).shadow.pinned j, tray := a } : State)) (restAfresh_tray s)).mp change
  · exact congrArg (fun a => ({ releaseDest s with
      shadow := (releaseDest s).shadow.pinned j, tray := a } : State).linkedClip) (restAfresh_tray s).symm

end

theorem endsChange_empty (empty : s.tray.gate = .empty)
    (ends : r.skipping = false ∨ s.tray.slot = 0 ∨ s.tray.known = false ∨ r.stopRequested = true) :
    EndsChange .settleEnd s x none s.restUnpinned := by
  have unloaded : s.tray.gate ≠ .loaded := by rw [empty]; decide
  rw [← restUnpinned_eq]
  exact endsChange_settled settled state due awaits (if_neg unloaded) rfl
    (continues_over ((request_releaseDest s).trans awaits.request) (by rw [tray_releaseDest]; exact ends))
    (sameCourse_releaseDest s) (request_releaseDest s) (.inr ⟨by rw [gate_releaseDest]; exact unloaded, rfl⟩)

end

/-! ## A request that goes on (R41) -/

/-- The lift to a position that the request goes on to, with no table. -/
theorem lifts_goesOn {s : State} {r : TrayRequest} {dest find : Nat} {found : List Nat} {q : TrayRequest} {u : State}
    (settled : Settled s) (base : s.hdr.settings.slotBase = 0) (low : s.tray.topOn = false)
    (inside : s.tray.slot < s.tray.n) (there : dest < s.tray.n) (apart : s.tray.slot ≠ dest)
    (done : settleExpiry s = searchDone r.kind.dir dest found find u)
    (body : u.body = ({ releaseDest s with tray := { (releaseDest s).tray with
      state := .ready, request := some q } } : State).body) :
    Lifts .settleEnd s { releaseDest s with tray := { Tray.lifted { q with
      found := found, toFind := find, plan := some {
        dir := r.kind.dir, dest := dest, toGo := posDistance s.tray.n r.kind.dir s.tray.slot dest } }
          s.now (releaseDest s).tray with repin := s.tray.repin } } := by
  have same := sameCourse_releaseDest s
  have lifts := liftsTo_searchDone (dir := r.kind.dir) (dest := dest) (find := find) (found := found) body rfl rfl
    ((slotBase_releaseDest s).trans base)
    (by rw [tray_releaseDest]; exact posDistance_ne_zero _ inside there apart) (by rw [tray_releaseDest]; exact low)
  rw [← done] at lifts
  dsimp only at lifts
  rw [now_releaseDest, tray_releaseDest] at lifts
  dsimp only
  rw [now_releaseDest, tray_releaseDest]
  exact SameCourse.lifts ⟨same.cx, same.remote, same.log, same.hdr, same.lamp, same.thermal, rfl⟩ settled rfl lifts
    (access_settleExpiry s)

section
variable {s : State} {r : TrayRequest} {k : Nat} (state : s.tray.state = .settle)
  (due : 150000 ≤ s.now - s.tray.timerStart) (empty : s.tray.gate = .empty) (request : s.tray.request = some r)
  (kind : r.kind = .advance k ∨ r.kind = .reverse k) (skip : r.skipping = true) (off : s.tray.slot ≠ 0)
  (known : s.tray.known = true) (going : r.stopRequested = false)
include state due empty request kind skip off known going

theorem settleExpiry_goesOn : ∃ w, settleExpiry s = startSearch 1 w
    ∧ w.body = ({ releaseDest s with tray := { (releaseDest s).tray with state := .ready } } : State).body
    ∧ w.tray = { s.tray with destPin := none, state := .ready } := by
  have more : continues (releaseDest s) = true := by
    refine continues_skipping ((request_releaseDest s).trans request) ?_ kind skip ?_ ?_ going <;> rw [tray_releaseDest]
    · exact empty
    · exact off
    · exact known
  have held := body_putTray_of { (releaseDest s).tray with state := .ready } (rfl : (releaseDest s).body = _)
  refine ⟨_, ?_, held, ?_⟩
  · rw [settleExpiry_change state due, settleChange_continues (if_neg (by rw [empty]; decide)) more]
  · rw [body_tray held, tray_releaseDest]

theorem settleExpiry_looksAt (more : r.examined < s.tray.n - 1) :
    ∃ w, settleExpiry s = searchRun 96 { pos := nextPos s.tray.n r.kind.dir s.tray.slot, find := 1, found := [] } w
      ∧ w.body = ({ releaseDest s with tray := { (releaseDest s).tray with state := .ready } } : State).body := by
  obtain ⟨w, goes, held, kept⟩ := settleExpiry_goesOn state due empty request kind skip off known going
  refine ⟨w, ?_, held⟩
  rw [goes, startSearch_runs (r := r) (by rw [kept]; exact request) (by rw [kept]; exact more), kept]

theorem ends_looksAtNext {j : Nat} (settled : Settled s) (more : r.examined < s.tray.n - 1)
    (misses : slotMisses (nextPos s.tray.n r.kind.dir s.tray.slot) j (releaseDest s)) :
    let next := nextPos s.tray.n r.kind.dir s.tray.slot
    Ends .settleEnd s (({ releaseDest s with tray := { (releaseDest s).tray with
      state := .ready, wait := .search { pos := next, find := 1, found := [] } } } : State).fetchingSlot next j 0) := by
  intro next
  obtain ⟨w, goes, held⟩ := settleExpiry_looksAt state due empty request kind skip off known going more
  have same := sameCourse_releaseDest s
  exact ends_same settled rfl ((congrArg State.body goes).trans (searchRun_waits held misses))
    ⟨same.cx, same.remote, same.log, same.hdr, same.lamp, same.thermal, same.completion⟩ (access_settleExpiry s)

end

/-! ## The slide after homing (R35) -/

section
variable {s : State} {x : Action} {r : TrayRequest} {i j target : Nat} (settled : Settled s) (state : s.tray.state = .homing)
  (step : s.tray.homingStep = .settle) (due : 150000 ≤ s.now - s.tray.timerStart) (awaits : awaitsTray s x r)
include settled state step due awaits

theorem endsChange_homeStopped (bare : s.tray.gate ≠ .loaded ∨ s.hdr.settings.slotBase = 0)
    (stop : r.stopRequested = true) :
    EndsChange .settleEnd s x none { s with tray := s.tray.atHome.answered } := by
  refine endsChange_homed settled state step due (body_seatHome_bare bare) ⟨rfl, rfl, rfl, rfl, rfl, rfl, rfl⟩
    awaits.request awaits stop ?_
  by_cases loaded : s.tray.gate = .loaded
  · have base := bare.resolve_left fun k => k loaded
    exact .inl ⟨loaded, (linkedClip_noTable (s := { s with tray := s.tray.atHome.answered }) base).symm⟩
  · exact .inr ⟨loaded, rfl⟩

section
variable (going : r.stopRequested = false) (kind : r.kind = .goto 0)
include going kind

/-- With no table a request to slot 0 ends there. -/
theorem endsChange_homeBare (base : s.hdr.settings.slotBase = 0) (pin : s.tray.destPin = none) :
    EndsChange .settleEnd s x none { s with tray := { s.tray.atHome with
      request := none, wait := .none, repin := false, remaining := 0, lastSlot := 0 } } := by
  let c : State := { s with tray := { s.tray.atHome with request := some r.homedHere, wait := .none } }
  obtain ⟨v, plans, held⟩ :=
    settleExpiry_stays state step due (body_seatHome_bare (.inr base)) awaits.request going rfl kind
  obtain ⟨w, ready, set⟩ := fixDestination_noTable held base
  rw [planSet_some rfl] at set
  obtain ⟨y, answers, last⟩ := destinationReady_answers set (fun k => nomatch k) (homedHere_planned (r := r) rfl)
  have bare : releaseDest y = y := releaseDest_unpinned (by rw [body_tray last]; exact pin)
  rw [bare] at answers
  have change := endsChange_answers (c := .settleEnd) (u := c) (linked := none) settled rfl awaits
    ((plans.trans ready).trans answers) last ⟨rfl, rfl, rfl, rfl, rfl, rfl, rfl⟩ rfl (access_settleExpiry s) ?_
  · rw [answered_homedHere (t := c.tray) (r := r) rfl rfl] at change
    exact change
  · by_cases loaded : s.tray.gate = .loaded
    · exact .inl ⟨dropOutcome_loaded loaded, (linkedClip_noTable (s := { c with tray := c.tray.answered }) base).symm⟩
    · exact .inr ⟨dropOutcome_empty loaded, rfl⟩

end

section
variable (going : r.stopRequested = false) (kind : r.kind = .goto target) (pos : 0 < target) (inside : target < s.tray.n)
include going kind pos inside

/-- With no table a request to another slot lifts. -/
theorem lifts_homed (base : s.hdr.settings.slotBase = 0) (low : s.tray.topOn = false) :
    Lifts .settleEnd s { s with tray := { s.tray.atHome with
      state := .lift, retry := false, lowering := false, timerStart := s.now, wait := .none
      request := some { r with homed := true, plan := some (Plan.goto s.tray.n 0 target) } } } := by
  obtain ⟨v, plans, held⟩ :=
    settleExpiry_plans state step due (body_seatHome_bare (.inr base)) awaits.request going rfl kind
  obtain ⟨w, ready, set⟩ := fixDestination_noTable held base
  rw [planSet_some rfl] at set
  have lifts := liftsTo_destinationReady set (fun k => nomatch k) (homedHere_goes (toGo_goto pos inside) rfl) low
  rw [← show settleExpiry s = destinationReady w from plans.trans ready] at lifts
  exact SameCourse.lifts ⟨rfl, rfl, rfl, rfl, rfl, rfl, rfl⟩ settled rfl lifts (access_settleExpiry s)

section
variable (loaded : s.tray.gate = .loaded) (finds : slotFound 0 i s) (dest : s.shadow.find .slot target = some j)
include loaded finds dest

/-- The slide at 0 and the destination pinned, a VALID record lets the request lift, which releases the pin again. -/
theorem ends_homedLifts (low : s.tray.topOn = false) (valid : (s.shadow.entry j).isValid = true) :
    let v : State := { s with
      shadow := (s.shadow.pinned i).pinned j
      tray := { s.tray.atHome with
        state := .lift, retry := false, lowering := false, timerStart := s.now, wait := .none
        request := some { r with homed := true, plan := some (Plan.goto s.tray.n 0 target) }
        shownPin := some 0, destPin := some target } }
    noLookupWaits (v.unshown i) → Ends .settleEnd s (v.unshown i) := by
  intro v waits
  obtain ⟨w, plans, held⟩ :=
    settleExpiry_plans state step due (body_seatHome_found loaded finds) awaits.request going rfl kind
  have destFound : s.shadow.find .slot (Plan.goto s.tray.n 0 target).dest = some j := by rw [dest_goto]; exact dest
  obtain ⟨y, ready, set⟩ := fixDestination_valid (p := Plan.goto s.tray.n 0 target) held
    ⟨finds.1, (find_pinned _ _).trans destFound⟩ ((isValid_pinned _ _ _).trans valid)
  rw [planSet_some rfl, dest_goto] at set
  have lifts := liftsTo_destinationReady set (fun k => nomatch k) (homedHere_goes (toGo_goto pos inside) rfl) low
  rw [← show settleExpiry s = destinationReady y from plans.trans ready] at lifts
  have same : SameCourse s v := ⟨rfl, rfl, rfl, rfl, rfl, rfl, rfl⟩
  exact (same.lifts settled rfl lifts (access_settleExpiry s)).2 0 i rfl
    ((find_pinned _ _).trans ((find_pinned _ _).trans finds.2)) waits

omit pos inside in
/-- One being fetched is waited for. -/
theorem ends_homedWaits (filling : (s.shadow.entry j).isValid = false) : Ends .settleEnd s { s with
    shadow := (s.shadow.pinned i).pinned j
    tray := { s.tray.atHome with
      shownPin := some 0, destPin := some target, wait := .destination
      request := some { r with homed := true, plan := some (Plan.goto s.tray.n 0 target) } } } := by
  obtain ⟨v, plans, held⟩ :=
    settleExpiry_plans state step due (body_seatHome_found loaded finds) awaits.request going rfl kind
  have destFound : s.shadow.find .slot (Plan.goto s.tray.n 0 target).dest = some j := by rw [dest_goto]; exact dest
  have joined := body_fixDestination_filling (p := Plan.goto s.tray.n 0 target) held
    ⟨finds.1, (find_pinned _ _).trans destFound⟩ ((isValid_pinned _ _ _).trans filling)
  rw [planSet_some rfl, dest_goto] at joined
  exact ends_same settled rfl ((congrArg State.body plans).trans joined) ⟨rfl, rfl, rfl, rfl, rfl, rfl, rfl⟩
    (access_settleExpiry s)

end

end

end

/-- Settles O37: each clause is one of the lemmas above, or falls into its two cases, a slide seen in the gate or none. -/
theorem settlingEndsTheChange : Obligations.SettlingEndsTheChange := by
  intro s r x i j target settled t e rest seated u unpinned afresh found home
  refine ⟨fun none_ => releaseDest_unpinned none_,
    fun d m some_ holds waits => body_releaseDest_found rfl some_ holds waits,
    fun _ early => ends_nothing settled rfl (settleExpiry_early early), fun state due awaits loaded here => ?_,
    fun p plan state due awaits loaded there =>
      ⟨endsChange_elsewhere_noTable settled state due awaits plan loaded there,
        endsChange_elsewhere_plain settled state due awaits plan loaded there,
        endsChange_elsewhere_misses settled state due awaits plan loaded there,
        endsChange_elsewhere_found settled state due awaits plan loaded there⟩,
    fun state due awaits empty ends => endsChange_empty settled state due awaits empty ends,
    fun state due empty request kind skip off inside known going =>
      ⟨ends_looksAtNext state due empty request kind skip off known going settled,
        fun more base next there low => ?_, fun many base low => ?_⟩,
    fun state step due awaits =>
      ⟨fun stop => ⟨fun bare => endsChange_homeStopped settled state step due awaits bare stop,
          fun loaded misses => ?_, fun loaded finds => ?_⟩,
        fun going kind size pin => ⟨fun base => endsChange_homeBare settled state step due awaits going kind base pin,
          fun misses => ?_, fun finds => ⟨fun valid waits => ?_, fun filling => ?_⟩⟩,
        fun going kind pos inside => ⟨lifts_homed settled state step due awaits going kind pos inside,
          fun loaded finds dest =>
            ⟨fun valid low => ends_homedLifts settled state step due awaits going kind pos inside loaded finds dest low valid,
              ends_homedWaits settled state step due awaits going kind loaded finds dest⟩⟩⟩⟩
  · exact endsChange_settled (linked := seated.linkedClip) settled state due awaits (if_pos loaded)
      (body_seatPin_here here) (continues_loaded loaded) ⟨rfl, rfl, rfl, rfl, rfl, rfl, rfl⟩ rfl (.inl ⟨loaded, rfl⟩)
  · have size : 0 < t.n := Nat.lt_of_le_of_lt (Nat.zero_le _) inside
    obtain ⟨w, goes, held⟩ := settleExpiry_looksAt state due empty request kind skip off known going more
    obtain ⟨v, takes, body⟩ := searchRun_takes (n := 95) held ((request_releaseDest s).trans request) rfl
      ((slotBase_releaseDest s).trans base) next (by rw [tray_releaseDest]; exact there)
    exact lifts_goesOn settled base low inside (nextPos_lt _ _ size) (nextPos_ne _ off inside).symm (goes.trans takes) body
  · obtain ⟨w, goes, held, kept⟩ := settleExpiry_goesOn state due empty request kind skip off known going
    have done : startSearch 1 w = searchDone r.kind.dir 0 [] 1 w := by
      unfold startSearch
      rw [kept]
      dsimp only
      rw [request]
      exact if_pos many
    refine lifts_goesOn (q := r) settled base low inside (Nat.lt_of_le_of_lt (Nat.zero_le _) inside) off (goes.trans done)
      (held.trans ?_)
    rw [← request, ← request_releaseDest]
  · rw [decide_eq_true loaded]
    exact endsChange_homed settled state step due (body_seatHome_misses loaded misses)
      ⟨rfl, rfl, rfl, rfl, rfl, rfl, rfl⟩ awaits.request awaits stop (.inl ⟨loaded, (linkedClip_lacking (k := 0)
        (answered_shownPin _) (lacks_setFilling (lacks_of_find misses.2.1))).symm⟩)
  · rw [decide_eq_true loaded]
    exact endsChange_homed settled state step due (body_seatHome_found loaded finds)
      ⟨rfl, rfl, rfl, rfl, rfl, rfl, rfl⟩ awaits.request awaits stop (.inl ⟨loaded, rfl⟩)
  · by_cases loaded : t.gate = .loaded
    · rw [decide_eq_true loaded]
      have waits := ends_homeWaits settled state step due (body_seatHome_misses loaded misses)
        ⟨rfl, rfl, rfl, rfl, rfl, rfl, rfl⟩ awaits.request going rfl kind (slotFound_fetching (by exact misses))
        (by rw [entry_fetching (by exact misses)]; rfl)
      rw [pinned_fetching (by exact misses)] at waits
      exact waits
    · rw [decide_eq_false loaded]
      obtain ⟨v, plans, held⟩ :=
        settleExpiry_stays state step due (body_seatHome_bare (.inl loaded)) awaits.request going rfl kind
      have fetched := body_fixDestination_misses (p := { dir := .forward, dest := 0, toGo := 0 }) held misses
      rw [planSet_some rfl] at fetched
      exact ends_same settled rfl ((congrArg State.body plans).trans fetched) ⟨rfl, rfl, rfl, rfl, rfl, rfl, rfl⟩
        (access_settleExpiry s)
  · by_cases loaded : t.gate = .loaded
    · rw [decide_eq_true loaded] at waits ⊢
      exact endsChange_homeFound settled state step due (body_seatHome_found loaded finds)
        ⟨rfl, rfl, rfl, rfl, rfl, rfl, rfl⟩ awaits.request going rfl kind ⟨finds.1, (find_pinned _ _).trans finds.2⟩
        awaits ((isValid_pinned _ _ _).trans valid) rfl pin waits (.inl ⟨loaded, rfl⟩)
    · rw [decide_eq_false loaded] at waits ⊢
      exact endsChange_homeFound settled state step due (body_seatHome_bare (.inl loaded))
        ⟨rfl, rfl, rfl, rfl, rfl, rfl, rfl⟩ awaits.request going rfl kind finds awaits valid rfl pin waits
        (.inr ⟨loaded, rfl⟩)
  · by_cases loaded : t.gate = .loaded
    · rw [decide_eq_true loaded]
      exact ends_homeWaits settled state step due (body_seatHome_found loaded finds)
        ⟨rfl, rfl, rfl, rfl, rfl, rfl, rfl⟩ awaits.request going rfl kind ⟨finds.1, (find_pinned _ _).trans finds.2⟩
        ((isValid_pinned _ _ _).trans filling)
    · rw [decide_eq_false loaded]
      exact ends_homeWaits settled state step due (body_seatHome_bare (.inl loaded))
        ⟨rfl, rfl, rfl, rfl, rfl, rfl, rfl⟩ awaits.request going rfl kind finds filling

end Sys2Proof.Machine
end
section
/-! A record word returns (R59, R60): it fills the entry under fetch, and the last one is answered to the transport or to
the Clip Player's start record. -/

namespace Sys2Proof.Machine

/-! ## The word and the entry (R59, R60) -/

theorem entry_lt {sh : Shadow} {i : Nat} (taken : sh.entry i ≠ .free) : i < 16 := by
  by_contra outside
  refine taken ?_
  unfold Shadow.entry
  rw [Vector.getElem?_eq_none (Nat.le_of_not_lt outside)]
  rfl

/-- The entry's data with one word more. -/
abbrev EntryData.joined (w : Word) (d : EntryData) : EntryData := { d with copy := d.copy ++ [w] }

/-- The last word of a record has made its entry VALID (R60). -/
def State.recorded (i : Nat) (e : EntryData) (rest : List Nat) (s : State) : State := { s with
  shadow := { s.shadow.setEntry i (.valid e false s.shadow.useStamp) with
    fetchList := rest, useStamp := s.shadow.useStamp + 1 } }

theorem serveWaiting_nobody {s t : State} (h : t.body = s.body) (nobody : noLookupWaits s) : serveWaiting t = t := by
  refine serveWaiting_of_none ?_
  rw [← nobody]
  refine waitingLookups_congr ⟨body_shadow h, by rw [body_hdr h], userLookups_congr (body_tray h) ?_⟩
  rw [clip_of_body h]

section
variable {s t : State} {i : Nat} {d : EntryData} {rest : List Nat} {w : Word} (h : t.body = s.body)
  (list : s.shadow.fetchList = i :: rest) (entry : s.shadow.entry i = .filling d)
include h list entry

theorem recordWord_joins (more : (d.joined w).copy.length < recordLength d.kind) :
    ∃ u, recordWord w t = (u, none) ∧ u.body
      = ({ s with shadow := s.shadow.setEntry i (.filling (d.joined w)) } : State).body := by
  refine ⟨_, ?_, body_putShadow_of _ h⟩
  unfold recordWord
  rw [body_shadow h]
  dsimp only
  rw [list]
  dsimp only
  rw [entry]
  exact if_pos more

theorem recordWord_ends (last : recordLength d.kind ≤ (d.joined w).copy.length)
    (nobody : noLookupWaits (s.recorded i (d.joined w) rest)) :
    ∃ u, recordWord w t = (u, some (d.joined w))
      ∧ u.body = (s.recorded i (d.joined w) rest).body := by
  have body := body_putShadow_of (s.recorded i (d.joined w) rest).shadow h
  refine ⟨_, ?_, body⟩
  unfold recordWord
  rw [body_shadow h]
  dsimp only
  rw [list]
  dsimp only
  rw [entry]
  refine (if_neg (Nat.not_lt.2 last)).trans (Prod.ext ?_ rfl)
  refine (ite_congr rfl (fun _ => serveWaiting_nobody body nobody) fun _ => rfl).trans (ite_self _)

end

section
variable {s : State} {i : Nat} {d e : EntryData} {rest : List Nat} (entry : s.shadow.entry i = .filling d)
include entry

theorem entry_recorded : (s.recorded i e rest).shadow.entry i = .valid e false s.shadow.useStamp :=
  (entry_setEntry s.shadow i i _).trans (if_pos ⟨rfl, entry_lt (by rw [entry]; exact fun k => nomatch k)⟩)

theorem find_recorded (kind : e.kind = d.kind) (key : e.key = d.key) (k : RecKind) (n : Nat) :
    (s.recorded i e rest).shadow.find k n = s.shadow.find k n := by
  refine find_setEntry (sh := s.shadow) (e := .valid e false s.shadow.useStamp) ?_ k n
  rw [entry]
  simp [WatchEntry.fields, kind, key]

/-- With another pin count it holds the record it held. -/
theorem find_repinned {pins used : Nat} (k : RecKind) (n : Nat) :
    ((s.recorded i e rest).shadow.setEntry i (.valid { e with pins := pins } false used)).find k n
      = (s.recorded i e rest).shadow.find k n := by
  refine find_setEntry ?_ k n
  rw [entry_recorded entry]
  rfl

theorem entry_repinned {pins used : Nat} : ((s.recorded i e rest).shadow.setEntry i
    (.valid { e with pins := pins } false used)).entry i = .valid { e with pins := pins } false used :=
  (entry_setEntry _ i i _).trans (if_pos ⟨rfl, entry_lt (by rw [entry]; exact fun k => nomatch k)⟩)

theorem pinned_recorded : (s.recorded i e rest).shadow.pinned i
    = { (s.recorded i e rest).shadow.setEntry i
        (.valid { e with pins := e.pins + 1 } false (s.shadow.useStamp + 1)) with
      useStamp := s.shadow.useStamp + 1 + 1 } := by
  unfold Shadow.pinned
  rw [entry_recorded entry]
  rfl

theorem released_recorded : (s.recorded i e rest).shadow.released i
    = (s.recorded i e rest).shadow.setEntry i (.valid { e with pins := e.pins - 1 } false s.shadow.useStamp) := by
  unfold Shadow.released
  rw [entry_recorded entry]

end

/-! ## The landing of the word (R195) -/

section
variable {s : State} {a : RamAccess} (ram : s.port.ram = some a) (who : a.who = .recordShadow)
include ram who

theorem endRecordRead_void (void : a.void = true) : endRecordRead s = freeRam s := by
  unfold endRecordRead
  rw [inRamOf_eq ram who]
  exact if_pos void

variable {i : Nat} {d : EntryData} {rest : List Nat} (kept : a.void = false) (list : s.shadow.fetchList = i :: rest)
  (entry : s.shadow.entry i = .filling d)
include kept list entry

theorem body_endRecordRead_joins (more : (d.joined a.data).copy.length < recordLength d.kind) : (endRecordRead s).body
    = ({ s with shadow := s.shadow.setEntry i (.filling (d.joined a.data)) } : State).body := by
  obtain ⟨u, joins, body⟩ := recordWord_joins (t := freeRam s) (w := a.data) rfl list entry more
  unfold endRecordRead
  rw [inRamOf_eq ram who]
  dsimp only
  rw [if_neg (ne_true_of_eq_false kept), joins]
  exact body

end

/-- The last word of a record is in the RAM, and no lookup waits for the entry that it makes VALID. -/
structure LastWord (s : State) (a : RamAccess) (i : Nat) (rest : List Nat) (d : EntryData) : Prop where
  ram : s.port.ram = some a
  who : a.who = .recordShadow
  kept : a.void = false
  list : s.shadow.fetchList = i :: rest
  entry : s.shadow.entry i = .filling d
  last : recordLength d.kind ≤ (d.joined a.data).copy.length
  nobody : noLookupWaits (s.recorded i (d.joined a.data) rest)

theorem LastWord.answers {s : State} {a : RamAccess} {i : Nat} {rest : List Nat} {d : EntryData}
    (word : LastWord s a i rest d) :
    ∃ u, endRecordRead s = answerRecord (d.joined a.data) u ∧ u.body = (s.recorded i (d.joined a.data) rest).body := by
  obtain ⟨u, ends, body⟩ := recordWord_ends (t := freeRam s) (w := a.data) rfl word.list word.entry word.last word.nobody
  refine ⟨u, ?_, body⟩
  unfold endRecordRead
  rw [inRamOf_eq word.ram word.who]
  dsimp only
  rw [if_neg (ne_true_of_eq_false word.kept), ends]

/-- With nobody waiting the record is only held (R60). -/
theorem LastWord.nobodyWaits {s : State} {a : RamAccess} {i : Nat} {rest : List Nat} {d : EntryData}
    (word : LastWord s a i rest d) (wait : s.tray.wait = .none) (start : s.clip.start = none) :
    (endRecordRead s).body = (s.recorded i (d.joined a.data) rest).body := by
  obtain ⟨u, answers, body⟩ := word.answers
  have kept : answerRecord (d.joined a.data) u = u := by
    unfold answerRecord trayRecord clipRecord
    rw [body_tray body, clip_of_body body]
    dsimp only [State.recorded]
    rw [wait, start]
    cases d.kind <;> rfl
  rw [answers, kept, body]

theorem access_recordWord {w : Word} {s u : State} {o : Option EntryData} (word : recordWord w s = (u, o)) :
    u.port.access = s.port.access := by
  have port := (recordWord_frame w s).2.1
  rw [word] at port
  rw [port]

theorem access_answerRecord (d : EntryData) (s : State) : (answerRecord d s).port.access = s.port.access := by
  unfold answerRecord
  cases d.kind <;> simp

theorem access_endRecordRead (s : State) : (endRecordRead s).port.access = s.port.access := by
  unfold endRecordRead
  split
  · split
    · rfl
    · split
      · next word =>
        rw [access_answerRecord, access_recordWord word]
        rfl
      · next word =>
        rw [access_recordWord word]
        rfl
  · rfl

/-! ## Fewer lookups wait (R58) -/

theorem noLookupWaits_fewer {s v : State} (nobody : noLookupWaits s)
    (finds : ∀ k n, v.shadow.find k n = s.shadow.find k n) (fewer : ∀ l ∈ userLookups v, l ∈ userLookups s) :
    noLookupWaits v := by
  refine List.filter_eq_nil_iff.2 fun l used => ?_
  rw [finds]
  exact List.filter_eq_nil_iff.1 nobody l (fewer l used)

/-- The linked clip of the slide shown is that of its record (R53, R63). -/
theorem linkedClip_shown {k i used : Nat} {e : EntryData} {stale : Bool} {s : State} (base : s.hdr.settings.slotBase ≠ 0)
    (shown : s.tray.shownPin = some k) (found : s.shadow.find .slot k = some i)
    (entry : s.shadow.entry i = .valid e stale used) : s.linkedClip = slotLinkedClip e.copy := by
  have copy : shownCopy s = some e.copy := by
    unfold shownCopy
    rw [if_neg base, shown]
    dsimp only
    rw [found]
    dsimp only
    rw [entry]
  unfold State.linkedClip
  rw [copy]
  rfl

/-! ## The transport that waits for the record (R34 to R36) -/

theorem trayRecord_destination {slot : Nat} {copy : List Word} {r : TrayRequest} {p : Plan} {s t : State}
    (h : t.body = s.body) (wait : s.tray.wait = .destination) (request : s.tray.request = some r) (plan : r.plan = some p)
    (dest : p.dest = slot) : trayRecord slot copy t = destinationReady t := by
  unfold trayRecord
  rw [body_tray h, wait, request]
  dsimp only
  rw [plan]
  exact if_pos dest

theorem trayRecord_search {slot : Nat} {copy : List Word} {se : Search} {s t : State} (h : t.body = s.body)
    (wait : s.tray.wait = .search se) (pos : se.pos = slot) :
    ∃ u, u.body = ({ s with tray := { s.tray with wait := .none } } : State).body ∧ trayRecord slot copy t
      = match searchLook se (slotSkip copy) u with
        | (v, some next) => searchRun 96 next v
        | (v, none) => v := by
  refine ⟨putTray { s.tray with wait := .none } t, body_putTray_of _ h, ?_⟩
  unfold trayRecord
  rw [body_tray h, wait]
  exact if_pos pos

theorem eligible_iff {t : Tray} {pos : Nat} {skip : Bool} : eligible t pos skip = true
    ↔ pos ≠ 0 ∧ (t.presence[pos]?).getD .unknown ≠ .empty ∧ skip = false := by
  simp [eligible, and_assoc]

/-- The position examined is counted. -/
def State.examinedAnother (r : TrayRequest) (s : State) : State :=
  { s with tray := { s.tray with request := some { r with examined := r.examined + 1 } } }

section
variable {se : Search} {skip : Bool} {r : TrayRequest} {s t : State} (h : t.body = s.body)
  (request : s.tray.request = some r)
include h request

theorem searchLook_eq : ∃ u, u.body = (s.examinedAnother r).body ∧ searchLook se skip t =
    let found := if eligible s.tray se.pos skip then se.found ++ [se.pos] else se.found
    let find := if eligible s.tray se.pos skip then se.find - 1 else se.find
    if find = 0 then (searchDone r.kind.dir se.pos found 0 u, none)
    else if s.tray.n - 1 ≤ r.examined + 1 then (searchDone r.kind.dir (lastOrGap found) found find u, none)
    else (u, some { pos := nextPos s.tray.n r.kind.dir se.pos, find := find, found := found }) := by
  refine ⟨_, body_putTray_of (s.examinedAnother r).tray h, ?_⟩
  unfold searchLook
  rw [body_tray h]
  simp only [request, putTray_tray]
  rfl

/-- A position that is not eligible, with others still to look at, leaves the search to go on (R33). -/
theorem searchLook_passes (misfit : ¬ eligible s.tray se.pos skip = true) (left : se.find ≠ 0)
    (more : r.examined + 1 < s.tray.n - 1) : ∃ u, u.body = (s.examinedAnother r).body ∧ searchLook se skip t
      = (u, some { se with pos := nextPos s.tray.n r.kind.dir se.pos }) := by
  obtain ⟨u, body, looked⟩ := searchLook_eq (se := se) (skip := skip) h request
  refine ⟨u, body, looked.trans ?_⟩
  simp only [if_neg misfit, if_neg left, if_neg (Nat.not_le.2 more)]

/-- So does one that is, with more still to find. -/
theorem searchLook_counts (fits : eligible s.tray se.pos skip = true) (left : 1 < se.find)
    (more : r.examined + 1 < s.tray.n - 1) : ∃ u, u.body = (s.examinedAnother r).body ∧ searchLook se skip t
      = (u, some { pos := nextPos s.tray.n r.kind.dir se.pos, find := se.find - 1, found := se.found ++ [se.pos] }) := by
  obtain ⟨u, body, looked⟩ := searchLook_eq (se := se) (skip := skip) h request
  refine ⟨u, body, looked.trans ?_⟩
  simp only [if_pos fits, if_neg (Nat.sub_ne_zero_of_lt left), if_neg (Nat.not_le.2 more)]

/-- The last to find is the destination. -/
theorem searchLook_finds (fits : eligible s.tray se.pos skip = true) (last : se.find = 1) :
    ∃ u, u.body = (s.examinedAnother r).body ∧ searchLook se skip t
      = (searchDone r.kind.dir se.pos (se.found ++ [se.pos]) 0 u, none) := by
  obtain ⟨u, body, looked⟩ := searchLook_eq (se := se) (skip := skip) h request
  refine ⟨u, body, looked.trans ?_⟩
  simp only [if_pos fits, last, Nat.sub_self, if_true]

/-- With N − 1 positions examined and none found, position 0 is. -/
theorem searchLook_gap (misfit : ¬ eligible s.tray se.pos skip = true) (left : se.find ≠ 0)
    (none_ : se.found = []) (all : s.tray.n - 1 ≤ r.examined + 1) : ∃ u, u.body = (s.examinedAnother r).body
      ∧ searchLook se skip t = (searchDone r.kind.dir 0 [] se.find u, none) := by
  obtain ⟨u, body, looked⟩ := searchLook_eq (se := se) (skip := skip) h request
  refine ⟨u, body, looked.trans ?_⟩
  simp only [if_neg misfit, if_neg left, if_pos all, none_, lastOrGap]

end

section
variable {s : State} {a : RamAccess} {i j : Nat} {rest : List Nat} {d : EntryData} {r : TrayRequest}
  (settled : Settled s) (word : LastWord s a i rest d) (kind : d.kind = .slot)
  (request : s.tray.request = some r) (state : s.tray.state = .ready)

section
include word kind

theorem endRecordRead_tray : ∃ u, endRecordRead s = trayRecord d.key (d.joined a.data).copy u
    ∧ u.body = (s.recorded i (d.joined a.data) rest).body := by
  obtain ⟨u, answers, body⟩ := word.answers
  refine ⟨u, answers.trans ?_, body⟩
  unfold answerRecord
  dsimp only
  rw [kind]

include request in
theorem endRecordRead_destination {p : Plan} (wait : s.tray.wait = .destination) (plan : r.plan = some p)
    (dest : p.dest = d.key) : ∃ u, endRecordRead s = destinationReady u
      ∧ u.body = (s.recorded i (d.joined a.data) rest).body := by
  obtain ⟨u, answers, body⟩ := endRecordRead_tray word kind
  exact ⟨u, answers.trans (trayRecord_destination body wait request plan dest), body⟩

theorem endRecordRead_search {se : Search} (wait : s.tray.wait = .search se) (pos : se.pos = d.key) :
    ∃ u, u.body = ({ s.recorded i (d.joined a.data) rest with tray := { s.tray with wait := .none } } : State).body
      ∧ endRecordRead s = match searchLook se (slotSkip (d.joined a.data).copy) u with
        | (v, some next) => searchRun 96 next v
        | (v, none) => v := by
  obtain ⟨u, answers, body⟩ := endRecordRead_tray word kind
  obtain ⟨v, left, looks⟩ := trayRecord_search (copy := (d.joined a.data).copy) body wait pos
  exact ⟨v, left, answers.trans looks⟩

end

section
include settled word kind request state

/-- The transport that waits for the record of its destination begins the lift (R36). -/
theorem lifts_destinationRecorded {p : Plan} (wait : s.tray.wait = .destination) (plan : r.plan = some p)
    (dest : p.dest = d.key) (low : s.tray.topOn = false) (goes : r.homed = false ∨ p.toGo ≠ 0) :
    Lifts .recordWordReturned s (s.recorded i (d.joined a.data) rest).liftBegun := by
  obtain ⟨u, ready, body⟩ := endRecordRead_destination word kind request wait plan dest
  have going : s.tray.homedHere = false := by
    rcases goes with homed | more
    · simp [Tray.homedHere, request, homed]
    · simp [Tray.homedHere, Tray.toGo, request, plan, more]
  have lifts := liftsTo_destinationReady body (s := s.recorded i (d.joined a.data) rest)
    (fun k => nomatch state.symm.trans k) going low
  rw [← ready] at lifts
  exact SameCourse.lifts ⟨rfl, rfl, rfl, rfl, rfl, rfl, rfl⟩ settled rfl lifts (access_endRecordRead s)

/-- One that homing has left nothing to rotate answers with the homing drop's outcome (R35). -/
theorem endsChange_destinationRecorded {x : Action} {p : Plan} {linked : Option Nat} (wait : s.tray.wait = .destination)
    (plan : r.plan = some p) (dest : p.dest = d.key) (awaits : awaitsTray s x r) (homed : r.homed = true)
    (none_ : p.toGo = 0) (pin : s.tray.destPin = some d.key) (found : s.shadow.find .slot d.key = some i) :
    let u : State := { s.recorded i (d.joined a.data) rest with
      shadow := (s.recorded i (d.joined a.data) rest).shadow.setEntry i
        (.valid { d.joined a.data with pins := d.pins - 1 } false s.shadow.useStamp)
      tray := Tray.answered { s.tray with destPin := none } }
    (s.tray.gate = .loaded ∧ linked = u.linkedClip ∨ s.tray.gate ≠ .loaded ∧ linked = none) →
      EndsChange .recordWordReturned s x linked u := by
  intro u dropped
  obtain ⟨v, ready, body⟩ := endRecordRead_destination word kind request wait plan dest
  have here : s.tray.homedHere = true := by simp [Tray.homedHere, Tray.toGo, request, plan, homed, none_]
  obtain ⟨w, answers, waits⟩ := destinationReady_answers body (s := s.recorded i (d.joined a.data) rest)
    (fun k => nomatch state.symm.trans k) here
  let c : State := { s.recorded i (d.joined a.data) rest with tray := { s.tray with wait := .none } }
  have finds := find_recorded (e := d.joined a.data) (rest := rest) word.entry rfl rfl
  have lowered : (c.undestined i).shadow = u.shadow := released_recorded word.entry
  have same (k : RecKind) (n : Nat) : (c.undestined i).shadow.find k n = c.shadow.find k n := by
    rw [lowered]
    exact find_repinned word.entry k n
  have released : (releaseDest w).body = (c.undestined i).body := by
    refine body_releaseDest_found (s := c) waits pin ((finds .slot d.key).trans found) ?_
    refine noLookupWaits_fewer word.nobody same fun l used => ?_
    simp only [userLookups, State.undestined, c, State.recorded, wait] at used ⊢
    exact List.mem_append_right _ used
  have final : (c.undestined i).tray.answered = u.tray :=
    (answered_some (t := (c.undestined i).tray) request).trans
      (answered_some (t := { s.tray with destPin := none }) request).symm
  have change := endsChange_answers (c := .recordWordReturned) (u := c.undestined i) (linked := linked) settled rfl awaits
    (ready.trans answers) released ⟨rfl, rfl, rfl, rfl, rfl, rfl, rfl⟩ request (access_endRecordRead s) ?_
  · rw [final] at change
    exact (congrArg (fun sh => EndsChange .recordWordReturned s x linked { u with shadow := sh }) lowered).mp change
  · refine dropped.imp (fun ⟨loaded, same⟩ => ⟨dropOutcome_loaded loaded, same.trans ?_⟩) (And.imp_left dropOutcome_empty)
    rw [final]
    exact (congrArg (fun sh => State.linkedClip { u with shadow := sh }) lowered).symm

omit request state in
/-- The search goes on to a position whose record is to be fetched (R33, R34). -/
theorem ends_searchGoesOn {se next : Search} (wait : s.tray.wait = .search se) (pos : se.pos = d.key)
    (looks : ∀ t : State, t.body = ({ s.recorded i (d.joined a.data) rest with
        tray := { s.tray with wait := .none } } : State).body →
      ∃ v, v.body = (({ s.recorded i (d.joined a.data) rest with
          tray := { s.tray with wait := .none } } : State).examinedAnother r).body
        ∧ searchLook se (slotSkip (d.joined a.data).copy) t = (v, some next))
    (misses : slotMisses next.pos j (s.recorded i (d.joined a.data) rest)) :
    Ends .recordWordReturned s (({ s.recorded i (d.joined a.data) rest with tray := { s.tray with
      request := some { r with examined := r.examined + 1 }, wait := .search next } } : State).fetchingSlot
        next.pos j 0) := by
  obtain ⟨u, body, runs⟩ := endRecordRead_search word kind wait pos
  obtain ⟨v, looked, goes⟩ := looks u body
  rw [goes] at runs
  exact ends_same settled rfl ((congrArg State.body runs).trans (searchRun_waits looked misses))
    ⟨rfl, rfl, rfl, rfl, rfl, rfl, rfl⟩ (access_endRecordRead s)

omit settled request in
/-- The search is over: the position found is planned for (R33). -/
theorem searchOver_fixes {se : Search} {dest find : Nat} {found : List Nat} (wait : s.tray.wait = .search se)
    (pos : se.pos = d.key) (looks : ∀ t : State, t.body = ({ s.recorded i (d.joined a.data) rest with
        tray := { s.tray with wait := .none } } : State).body →
      ∃ v, v.body = (({ s.recorded i (d.joined a.data) rest with
          tray := { s.tray with wait := .none } } : State).examinedAnother r).body
        ∧ searchLook se (slotSkip (d.joined a.data).copy) t = (searchDone r.kind.dir dest found find v, none)) :
    ∃ u, endRecordRead s = fixDestination
        { dir := r.kind.dir, dest := dest, toGo := posDistance s.tray.n r.kind.dir s.tray.slot dest } u
      ∧ u.body = ({ s.recorded i (d.joined a.data) rest with tray := { s.tray with
          wait := .none
          request := some { r with examined := r.examined + 1, found := found, toFind := find } } } : State).body := by
  obtain ⟨u, body, runs⟩ := endRecordRead_search word kind wait pos
  obtain ⟨v, looked, goes⟩ := looks u body
  obtain ⟨w, fixes, set⟩ := searchDone_fixes (dir := r.kind.dir) (dest := dest) (found := found) (find := find) looked rfl
    (fun k => nomatch state.symm.trans k)
  rw [goes] at runs
  exact ⟨w, runs.trans fixes, set⟩

omit request in
/-- The last to find is the destination, pinned, and the lift begins (R33, R36). -/
theorem lifts_searchFinds {se : Search} (wait : s.tray.wait = .search se) (pos : se.pos = d.key) (homed : r.homed = false)
    (base : s.hdr.settings.slotBase ≠ 0) (found : s.shadow.find .slot d.key = some i) (low : s.tray.topOn = false)
    (looks : ∀ t : State, t.body = ({ s.recorded i (d.joined a.data) rest with
        tray := { s.tray with wait := .none } } : State).body →
      ∃ v, v.body = (({ s.recorded i (d.joined a.data) rest with
          tray := { s.tray with wait := .none } } : State).examinedAnother r).body
        ∧ searchLook se (slotSkip (d.joined a.data).copy) t
          = (searchDone r.kind.dir se.pos (se.found ++ [se.pos]) 0 v, none)) :
    Lifts .recordWordReturned s { s.recorded i (d.joined a.data) rest with
      shadow := (s.recorded i (d.joined a.data) rest).shadow.pinned i
      tray := { s.tray with
        state := .lift, retry := false, lowering := false, timerStart := s.now, wait := .none
        destPin := some d.key
        request := some { r with
          examined := r.examined + 1
          plan := some { dir := r.kind.dir, dest := d.key, toGo := posDistance s.tray.n r.kind.dir s.tray.slot d.key }
          found := se.found ++ [d.key], toFind := 0 } } } := by
  obtain ⟨u, fixes, body⟩ := searchOver_fixes (r := r) word kind state wait pos looks
  rw [pos] at fixes body
  obtain ⟨v, ready, set⟩ := fixDestination_valid
    (p := { dir := r.kind.dir, dest := d.key, toGo := posDistance s.tray.n r.kind.dir s.tray.slot d.key }) body
    ⟨base, (find_recorded (e := d.joined a.data) (rest := rest) word.entry rfl rfl .slot d.key).trans found⟩
    (congrArg WatchEntry.isValid (entry_recorded word.entry) :)
  rw [planSet_some rfl] at set
  have lifts := liftsTo_destinationReady set (fun k => nomatch state.symm.trans k) (by simp [Tray.homedHere, homed]) low
  rw [← ready, ← fixes] at lifts
  exact SameCourse.lifts ⟨rfl, rfl, rfl, rfl, rfl, rfl, rfl⟩ settled rfl lifts (access_endRecordRead s)

end

end

/-! ## A start request refused (R155) -/

/-- The record that a refused start request of a cue leaves. -/
def ClipSource.refusal : ClipSource → Option LogRecord
  | .tape time => some (.execFail false kindClip .clipInvalid time)
  | .injected => some (.execFail true kindClip .clipInvalid 0)
  | _ => none

/-- A CLIP of the host has been refused in the command record. -/
def State.refusedHost (source : ClipSource) (s : State) : State :=
  match source with
  | .command _ => s.ended .clipInvalid 0 (plainLastSlot s)
  | _ => s

theorem startAnswered_refused (source : ClipSource) (s : State) :
    s.startAnswered source .clipInvalid = (s.refusedHost source).filed source.refusal := by
  cases source with
  | command tag => rfl
  | tape time => exact logged_given _ s
  | injected => exact logged_given _ s
  | remote => rfl
  | linked => rfl

theorem body_answerStart_refused {source : ClipSource} {s t : State} (h : t.body = s.body) (posts : startPosts source s) :
    (answerStart source .clipInvalid t).body = ((s.refusedHost source).noted source.refusal).body := by
  unfold answerStart
  cases source with
  | command tag =>
    have with_ : activeWith codeClip t = true := by
      rw [activeWith_of_body h]
      exact activeWith_iff.2 posts.2
    exact (congrArg State.body (if_pos with_)).trans ((body_endPlain h posts.2.1).trans rfl)
  | tape time => exact (congrArg State.body (if_neg (by decide))).trans (body_handLog h posts.1)
  | injected => exact (congrArg State.body (if_neg (by decide))).trans (body_handLog h posts.1)
  | remote => exact h
  | linked => exact h

/-- A change of the player may come before the refusal, or after it. -/
theorem refusedHost_clip (source : ClipSource) (F : Nat → ClipPlayer → ClipPlayer) (s : State) :
    let v := (s.refusedHost source).noted source.refusal
    { v with clip := F v.now v.clip }
      = (({ s with clip := F s.now s.clip } : State).refusedHost source).noted source.refusal := by
  cases source <;> rfl

theorem noted_refusedHost_player (source : ClipSource) (s : State) :
    ((s.refusedHost source).noted source.refusal).clip = s.clip := by
  cases source <;> rfl

/-- A command that ends with the refusal of a start request. -/
theorem ends_startRefused {c : Instr} {f : State → State} {s v : State} {source : ClipSource} (settled : Settled s)
    (hc : exec c s = .next (live f s)) (body : (f s).body = ((v.refusedHost source).noted source.refusal).body)
    (same : SameCourse s v) (room : logRoom s) (access : (f s).port.access = s.port.access) :
    Ends c s (v.startAnswered source .clipInvalid) := by
  have rest : executorStep v = none := executor_rest settled.2.1 ⟨same.completion, same.cx, congrArg Lamp.state same.lamp,
    by rw [same.remote], by rw [same.remote], by rw [same.hdr]⟩
  have log : (v.refusedHost source).log = s.log := (by cases source <;> rfl : _ = v.log).trans same.log
  have settings : (v.refusedHost source).hdr.settings = s.hdr.settings :=
    (by cases source <;> rfl : _ = v.hdr.settings).trans (by rw [same.hdr])
  rw [startAnswered_refused]
  refine ends_noted settled hc body ?_ ?_ (fun _ => ?_) access
  · cases source with
    | command tag => exact executor_rest_ended rest ⟨rfl, rfl, rfl, rfl, rfl, rfl⟩
    | tape time => exact rest
    | injected => exact rest
    | remote => exact rest
    | linked => exact rest
  · rw [logQuiet, settings, log]
    exact settled.2.2.1
  · rw [logRoom, settings, log]
    exact room

/-- A command that ends with a start request answered ok. -/
theorem ends_startAccepted {c : Instr} {f : State → State} {s v : State} {source : ClipSource} (settled : Settled s)
    (hc : exec c s = .next (live f s)) (body : (f s).body = (v.startAnswered source .ok).body) (same : SameCourse s v)
    (access : (f s).port.access = s.port.access) : Ends c s (v.startAnswered source .ok) := by
  refine ends_live settled hc body (executor_rest_startAnswered (executor_rest settled.2.1 ⟨same.completion, same.cx,
    congrArg Lamp.state same.lamp, by rw [same.remote], by rw [same.remote], by rw [same.hdr]⟩)) ?_ access
  rw [logQuiet, startAnswered_ok_settings, startAnswered_ok_log, same.hdr, same.log]
  exact settled.2.2.1

/-! ## The start record that waits for its descriptor (R153 to R156) -/

theorem passes_of_descriptorValid {d : Descriptor} (valid : descriptorValid d = true) : d.passes := by
  unfold descriptorValid ramBytes at valid
  simp only [Bool.and_eq_true, bne_iff_ne, decide_eq_true_iff] at valid
  obtain ⟨⟨⟨length, rate⟩, start⟩, inside⟩ := valid
  exact ⟨length, rate, start, by omega⟩

section
variable {st : StartRecord} {copy : List Word} {t : State} (start : t.clip.start = some st)
include start

theorem resolveStart_invalid (cut : st.request.queueMode = false)
    (invalid : ¬ descriptorValid (descriptorOf copy) = true) :
    resolveStart (some copy) t =
      let u := answerStart st.request.source .clipInvalid (dropStart st t)
      if u.clip.state = .fetching then setPlayer .idle u else u := by
  unfold resolveStart
  rw [start]
  dsimp only
  rw [if_neg (ne_true_of_eq_false cut)]
  unfold resolveCut copyValid
  dsimp only
  rw [if_neg invalid]

theorem resolveStart_appends (queued : st.request.queueMode = true) (valid : descriptorValid (descriptorOf copy) = true)
    (room : t.clip.queue.length < 4) : resolveStart (some copy) t =
      let u := answerStart st.request.source .ok (putClip { t.clip with
        queue := t.clip.queue ++ [{ clip := st.request.clip, source := st.request.source, copy := copy, pinned := st.pinned }]
        start := none } t)
      if u.clip.state = .idle then playNext u else u := by
  unfold resolveStart
  rw [start]
  dsimp only
  rw [if_pos queued]
  unfold resolveQueue copyValid
  dsimp only
  exact if_pos (by rw [valid, decide_eq_true room]; rfl)

theorem resolveStart_turnsAway (queued : st.request.queueMode = true)
    (refused : ¬ descriptorValid (descriptorOf copy) = true ∨ 4 ≤ t.clip.queue.length) :
    resolveStart (some copy) t = answerStart st.request.source .clipInvalid (dropStart st t) := by
  unfold resolveStart
  rw [start]
  dsimp only
  rw [if_pos queued]
  unfold resolveQueue copyValid
  dsimp only
  refine if_neg ?_
  rcases refused with invalid | full
  · simp [invalid]
  · simp [Nat.not_lt.2 full]

end

section
variable {s : State} {a : RamAccess} {i : Nat} {rest : List Nat} {d : EntryData} {st : StartRecord}
  (settled : Settled s) (word : LastWord s a i rest d) (kind : d.kind = .clip) (start : s.clip.start = some st)
  (asked : st.request.clip = d.key) (waits : st.copy = none) (pinned : st.pinned = true)
  (found : s.shadow.find .clip d.key = some i) (requests : s.clip.requests = [])

include word kind start asked waits in
theorem endRecordRead_start : ∃ u, u.body = (s.recorded i (d.joined a.data) rest).body
    ∧ endRecordRead s = serveAll (resolveStart (some (d.joined a.data).copy) u) := by
  obtain ⟨u, answers, body⟩ := word.answers
  have held : u.clip.start = some st := by rw [clip_of_body body]; exact start
  refine ⟨u, body, answers.trans ?_⟩
  unfold answerRecord clipRecord
  dsimp only
  rw [kind, held]
  exact if_pos ⟨waits, asked⟩

include word kind start asked waits in
/-- What the answer leaves, where no request waits behind it. -/
theorem body_endRecordRead_start {v : State}
    (resolves : ∀ t : State, t.body = (s.recorded i (d.joined a.data) rest).body →
      t.clip.start = some st → (resolveStart (some (d.joined a.data).copy) t).body = v.body)
    (alone : v.clip.start ≠ none ∨ v.clip.requests = []) : (endRecordRead s).body = v.body := by
  obtain ⟨u, body, serves⟩ := endRecordRead_start word kind start asked waits
  have left := resolves u body (by rw [clip_of_body body]; exact start)
  have quiet : (resolveStart (some (d.joined a.data).copy) u).clip.start ≠ none
      ∨ (resolveStart (some (d.joined a.data).copy) u).clip.requests = [] := by
    rw [clip_of_body left]
    exact alone
  rw [serves, serveAll_of_quiet quiet, left]

/-- The start record is gone, and its pin released. -/
def State.unstarted (i stamp : Nat) (e : EntryData) (s : State) : State := { s with
  shadow := s.shadow.setEntry i (.valid { e with pins := e.pins - 1 } false stamp)
  clip := { s.clip with start := none } }

include word found in
/-- The release of the start record's pin serves no lookup. -/
theorem shadow_releaseStart {v : State} (shadow : v.shadow = (s.recorded i (d.joined a.data) rest).shadow)
    (tray : v.tray = s.tray) (none_ : v.clip.start = none) : (releasePin .clip d.key v).shadow
      = (s.recorded i (d.joined a.data) rest).shadow.setEntry i
          (.valid { d.joined a.data with pins := d.pins - 1 } false s.shadow.useStamp) := by
  have finds := find_recorded (e := d.joined a.data) (rest := rest) word.entry rfl rfl
  have released : v.shadow.released i = _ := (congrArg _ shadow).trans (released_recorded word.entry)
  refine (shadow_releasePin (m := i) (by rw [shadow, finds]; exact found) ?_).trans released
  refine noLookupWaits_fewer word.nobody (fun k n => ?_) fun l used => ?_
  · dsimp only
    rw [released]
    exact find_repinned word.entry k n
  · simp only [userLookups, tray, none_, startLookups, List.append_nil] at used
    simp only [userLookups, State.recorded]
    rw [← List.append_assoc, ← List.append_assoc]
    exact List.mem_append_left _ (by rwa [List.append_assoc])

include word asked pinned found in
theorem body_dropStart_recorded {t : State} (h : t.body = (s.recorded i (d.joined a.data) rest).body) :
    (dropStart st t).body = ((s.recorded i (d.joined a.data) rest).unstarted i s.shadow.useStamp
      (d.joined a.data)).body := by
  have dropped := body_dropStart (st := st) h
  rw [if_pos pinned, asked, shadow_releaseStart (v := { s.recorded i (d.joined a.data) rest with
    clip := { (s.recorded i (d.joined a.data) rest).clip with start := none } }) word found rfl rfl rfl] at dropped
  exact dropped

variable (posts : startPosts st.request.source s)

section
include settled word kind start asked waits pinned found requests posts

/-- A CUT in FETCHING begins its play (R153). -/
theorem ends_cutBegins (cut : st.request.queueMode = false) (fetching : s.clip.state = .fetching)
    (valid : descriptorValid (descriptorOf (d.joined a.data).copy) = true) :
    Ends .recordWordReturned s (State.startAnswered st.request.source .ok
      { (s.recorded i (d.joined a.data) rest).unstarted i s.shadow.useStamp (d.joined a.data) with
        clip := ClipPlayer.begun d.key st.request.source (descriptorOf (d.joined a.data).copy) s.now
          { s.clip with start := none } }) := by
  refine ends_startAccepted settled rfl (body_endRecordRead_start word kind start asked waits (fun t body held => ?_)
    (.inr ?_)) ⟨rfl, rfl, rfl, rfl, rfl, rfl, rfl⟩ (access_endRecordRead s)
  · have answered := body_answerStart_ok (source := st.request.source)
      (body_dropStart_recorded word asked pinned found body) (active_of_posts posts)
    rw [resolveStart_begins held cut valid (by rw [clip_of_body body]; exact fetching), asked]
    exact (body_beginPlay answered).trans (congrArg State.body (startAnswered_ok_clip (F := fun now c =>
      ClipPlayer.begun d.key st.request.source (descriptorOf (d.joined a.data).copy) now c)))
  · rw [startAnswered_ok_player]
    exact (begun_requests _ _ _ _ _).trans requests

/-- One whose descriptor fails the check leaves the player IDLE (R153). -/
theorem ends_cutRefused (cut : st.request.queueMode = false) (fetching : s.clip.state = .fetching)
    (invalid : ¬ descriptorValid (descriptorOf (d.joined a.data).copy) = true) :
    Ends .recordWordReturned s (State.startAnswered st.request.source .clipInvalid
      { (s.recorded i (d.joined a.data) rest).unstarted i s.shadow.useStamp (d.joined a.data) with
        clip := ClipPlayer.entered .idle s.now { s.clip with start := none } }) := by
  refine ends_startRefused settled rfl (body_endRecordRead_start word kind start asked waits (fun t body held => ?_)
    (.inr ?_)) ⟨rfl, rfl, rfl, rfl, rfl, rfl, rfl⟩ posts.1 (access_endRecordRead s)
  · have answered := body_answerStart_refused (source := st.request.source)
      (body_dropStart_recorded word asked pinned found body) posts
    have still : (answerStart st.request.source .clipInvalid (dropStart st t)).clip.state = .fetching := by
      rw [clip_of_body answered]
      dsimp only
      rw [noted_refusedHost_player]
      exact fetching
    rw [resolveStart_invalid held cut invalid]
    refine (congrArg State.body (if_pos still)).trans ((body_setPlayer answered).trans ?_)
    exact congrArg State.body (refusedHost_clip _ (fun now c => c.entered .idle now) _)
  · rw [noted_refusedHost_player]
    exact (entered_requests _ _ _).trans requests

/-- A request refused at a player that goes on as it was (R153, R154). -/
theorem ends_startTurnedAway
    (turned : ∀ t : State, t.body = (s.recorded i (d.joined a.data) rest).body → t.clip.start = some st →
      resolveStart (some (d.joined a.data).copy) t = answerStart st.request.source .clipInvalid (dropStart st t)) :
    Ends .recordWordReturned s (State.startAnswered st.request.source .clipInvalid
      ((s.recorded i (d.joined a.data) rest).unstarted i s.shadow.useStamp (d.joined a.data))) := by
  refine ends_startRefused settled rfl (body_endRecordRead_start word kind start asked waits (fun t body held => ?_)
    (.inr ?_)) ⟨rfl, rfl, rfl, rfl, rfl, rfl, rfl⟩ posts.1 (access_endRecordRead s)
  · rw [turned t body held]
    exact body_answerStart_refused (body_dropStart_recorded word asked pinned found body) posts
  · rw [noted_refusedHost_player]
    exact requests

end

include settled word kind start asked waits in
/-- A CUT in FADING_OUT is held with its copy (R153). -/
theorem ends_cutHeld (cut : st.request.queueMode = false) (fading : s.clip.state = .fadingOut)
    (valid : descriptorValid (descriptorOf (d.joined a.data).copy) = true) :
    Ends .recordWordReturned s { s.recorded i (d.joined a.data) rest with
      clip := { s.clip with start := some { st with copy := some (d.joined a.data).copy } } } := by
  refine ends_same settled rfl (body_endRecordRead_start word kind start asked waits (fun t body held => ?_)
    (.inl fun k => nomatch k)) ⟨rfl, rfl, rfl, rfl, rfl, rfl, rfl⟩ (access_endRecordRead s)
  rw [resolveStart_keeps held cut valid (by rw [clip_of_body body]; exact fun k => nomatch fading.symm.trans k)]
  exact body_clipWith (F := fun c => { c with start := some { st with copy := some (d.joined a.data).copy } }) body
    (fun _ _ => rfl)

/-- The entry of the clip queue that a QUEUE request becomes (R154). -/
def StartRecord.queued (copy : List Word) (st : StartRecord) : ClipEntry :=
  { clip := st.request.clip, source := st.request.source, copy := copy, pinned := st.pinned }

/-- A QUEUE request has been appended. -/
def State.appended (copy : List Word) (st : StartRecord) (s : State) : State :=
  { s with clip := { s.clip with queue := s.clip.queue ++ [st.queued copy], start := none } }

/-- A change of the player and the Watch Table may come before the answer ok, or after it. -/
theorem startAnswered_ok_shadow {source : ClipSource} {sh : Shadow} {F : Nat → ClipPlayer} {s : State} :
    { s.startAnswered source .ok with shadow := sh, clip := F (s.startAnswered source .ok).now }
      = State.startAnswered source .ok { s with shadow := sh, clip := F s.now } := by
  cases source <;> rfl

theorem body_appended {copy : List Word} {st : StartRecord} {s t : State} (h : t.body = s.body)
    (posts : st.request.source.active s) : (answerStart st.request.source .ok (putClip { t.clip with
      queue := t.clip.queue ++ [st.queued copy], start := none } t)).body
        = ((s.appended copy st).startAnswered st.request.source .ok).body :=
  body_answerStart_ok (s := s.appended copy st) (body_clipWith (F := fun c => { c with
    queue := c.queue ++ [st.queued copy], start := none }) h (fun _ _ => rfl)) posts

section
include settled word kind start asked waits requests posts

/-- A QUEUE request is appended to a queue of fewer than 4 (R154). -/
theorem ends_queued (queued : st.request.queueMode = true) (room : s.clip.queue.length < 4)
    (busy : s.clip.state ≠ .idle) (valid : descriptorValid (descriptorOf (d.joined a.data).copy) = true) :
    Ends .recordWordReturned s (State.startAnswered st.request.source .ok
      ((s.recorded i (d.joined a.data) rest).appended (d.joined a.data).copy st)) := by
  refine ends_startAccepted settled rfl (body_endRecordRead_start word kind start asked waits (fun t body held => ?_)
    (.inr ?_)) ⟨rfl, rfl, rfl, rfl, rfl, rfl, rfl⟩ (access_endRecordRead s)
  · have answered := body_appended (copy := (d.joined a.data).copy) body (active_of_posts posts)
    rw [resolveStart_appends held queued valid (by rw [clip_of_body body]; exact room)]
    refine (congrArg State.body (if_neg ?_)).trans answered
    have same := congrArg ClipPlayer.state (clip_of_body answered)
    dsimp only at same
    rw [startAnswered_ok_player] at same
    exact fun idle => busy (same.symm.trans idle)
  · rw [startAnswered_ok_player]
    exact requests

end

section
include settled word kind start asked waits pinned found requests posts

/-- At an IDLE player its play begins at once (R154). -/
theorem ends_queueBegins (queued : st.request.queueMode = true) (empty : s.clip.queue = [])
    (idle : s.clip.state = .idle) (valid : descriptorValid (descriptorOf (d.joined a.data).copy) = true) :
    Ends .recordWordReturned s (State.startAnswered st.request.source .ok
      { (s.recorded i (d.joined a.data) rest).unstarted i s.shadow.useStamp (d.joined a.data) with
        clip := ClipPlayer.begun d.key st.request.source (descriptorOf (d.joined a.data).copy) s.now
          { s.clip with start := none } }) := by
  refine ends_startAccepted settled rfl (body_endRecordRead_start word kind start asked waits (fun t body held => ?_)
    (.inr ?_)) ⟨rfl, rfl, rfl, rfl, rfl, rfl, rfl⟩ (access_endRecordRead s)
  · let v := (s.recorded i (d.joined a.data) rest).appended (d.joined a.data).copy st
    have answered := body_appended (copy := (d.joined a.data).copy) body (active_of_posts posts)
    have state := congrArg ClipPlayer.state (clip_of_body answered)
    dsimp only at state
    rw [startAnswered_ok_player] at state
    have head : (v.startAnswered st.request.source .ok).clip.queue = [st.queued (d.joined a.data).copy] := by
      rw [startAnswered_ok_player]
      exact congrArg (· ++ [st.queued (d.joined a.data).copy]) empty
    have released := shadow_releaseStart (v := v.startAnswered st.request.source .ok) word found
      (by cases st.request.source <;> rfl) (by cases st.request.source <;> rfl) (by rw [startAnswered_ok_player]; rfl)
    have begins := body_playNext_begins answered head
    rw [resolveStart_appends held queued valid
      (by rw [clip_of_body body]; exact (congrArg List.length empty).trans_lt (by decide))]
    refine (congrArg State.body (if_pos (state.trans idle))).trans (begins.trans ?_)
    rw [if_pos (show (st.queued (d.joined a.data).copy).pinned = true from pinned),
      show (st.queued (d.joined a.data).copy).clip = d.key from asked, released]
    have popped : { (v.startAnswered st.request.source .ok).clip with queue := [] } = { s.clip with start := none } := by
      rw [startAnswered_ok_player]
      exact congrArg (fun q => ({ s.clip with queue := q, start := none } : ClipPlayer)) empty.symm
    rw [popped]
    exact congrArg State.body (startAnswered_ok_shadow (F := fun now => ClipPlayer.begun d.key st.request.source
      (descriptorOf (d.joined a.data).copy) now { s.clip with start := none }))
  · rw [startAnswered_ok_player]
    exact (begun_requests _ _ _ _ _).trans requests

end

end

/-- Settles O39: each clause is one of the lemmas above. -/
theorem recordWordReturns : Obligations.RecordWordReturns := by
  intro s a i j rest d se st w0 w1 w2 settled ram who e done
  refine ⟨fun void => ?_, fun kept list entry more => ?_, fun kept list entry last wait start nobody => ?_,
    fun r x request p plan kept list entry kind last dest wait state nobody => ?_,
    fun r request kept list entry kind last wait pos left state homed nobody => ?_,
    fun start kept list entry kind copy asked waits pinned found nobody requests posts => ?_⟩
  · exact ends_same settled rfl (by rw [endRecordRead_void ram who void]; rfl) ⟨rfl, rfl, rfl, rfl, rfl, rfl, rfl⟩
      (access_endRecordRead s)
  · exact ends_same settled rfl (body_endRecordRead_joins ram who kept list entry more) ⟨rfl, rfl, rfl, rfl, rfl, rfl, rfl⟩
      (access_endRecordRead s)
  · have word : LastWord s a i rest d := ⟨ram, who, kept, list, entry, last, nobody⟩
    exact ends_same settled rfl (word.nobodyWaits wait start) ⟨rfl, rfl, rfl, rfl, rfl, rfl, rfl⟩ (access_endRecordRead s)
  · have word : LastWord s a i rest d := ⟨ram, who, kept, list, entry, by rw [kind]; exact last, nobody⟩
    refine ⟨fun low goes => lifts_destinationRecorded settled word kind request state wait plan dest low goes, ?_⟩
    intro awaits homed none_ going restore base pin found lowered u
    have ends {linked : Option Nat} := endsChange_destinationRecorded (linked := linked) settled word kind request state
      wait plan dest awaits homed none_ pin
      ((find_recorded (e := e) (rest := rest) entry rfl rfl _ _).symm.trans found)
    refine ⟨fun unloaded => ((ends (.inr ⟨unloaded, rfl⟩)).2.1 going rfl).1 restore, fun loaded shown => ?_⟩
    have link : u.linkedClip = slotLinkedClip e.copy :=
      linkedClip_shown (e := { e with pins := d.pins - 1 }) base ((answered_shownPin _).trans shown)
        ((find_repinned entry .slot d.key).trans found) (entry_repinned entry)
    refine ⟨fun bare => ((ends (.inl ⟨loaded, rfl⟩)).2.1 going (link.trans bare)).1 restore, fun clip linked misses => ?_⟩
    exact ((ends (.inl ⟨loaded, rfl⟩)).2.2 clip j going (link.trans linked) misses).1 restore
  · have word : LastWord s a i rest d := ⟨ram, who, kept, list, entry, by rw [kind]; exact last, nobody⟩
    intro t next fits leg looked
    have fits_iff : eligible t se.pos (slotSkip e.copy) = true ↔ fits := by rw [pos]; exact eligible_iff
    refine ⟨fun misfit more misses => ?_, fun fit many more misses => ?_, fun fit one base found low => ?_,
      fun misfit all none_ misses => ?_⟩
    · have goes := ends_searchGoesOn (r := r) (next := { se with pos := nextPos t.n r.kind.dir se.pos }) settled word
        kind wait pos (fun u body => searchLook_passes body request (fun k => misfit (fits_iff.1 k)) left more)
        (j := j)
      rw [pos] at goes
      exact goes misses
    · have goes := ends_searchGoesOn (r := r) (next := {
        pos := nextPos t.n r.kind.dir se.pos, find := se.find - 1, found := se.found ++ [se.pos] }) settled word kind wait
        pos (fun u body => searchLook_counts body request (fits_iff.2 fit) many more) (j := j)
      rw [pos] at goes
      exact goes misses
    · have lifts := lifts_searchFinds settled word kind state wait pos homed base
        ((find_recorded (e := e) (rest := rest) entry rfl rfl _ _).symm.trans found) low
        fun u body => searchLook_finds body request (fits_iff.2 fit) one
      rw [pinned_recorded entry] at lifts
      exact lifts
    · obtain ⟨u, fixes, body⟩ := searchOver_fixes (r := r) word kind state wait pos
        (fun u body => searchLook_gap body request (fun k => misfit (fits_iff.1 k)) left none_ all)
      have missed := body_fixDestination_misses (p := leg 0) body misses
      rw [planSet_some rfl, ← fixes] at missed
      exact ends_same settled rfl missed ⟨rfl, rfl, rfl, rfl, rfl, rfl, rfl⟩ (access_endRecordRead s)
  · have word : LastWord s a i rest d := ⟨ram, who, kept, list, entry, by simp [kind, copy, recordLength], nobody⟩
    intro c source desc lowered unpinned queueEntry
    have words : (d.joined a.data).copy = [w0, w1, w2, a.data] := congrArg (· ++ [a.data]) copy
    have valid_iff : descriptorValid (descriptorOf (d.joined a.data).copy) = true ↔ desc.passes := by
      rw [words, descriptorOf_words]
      exact ⟨passes_of_descriptorValid, descriptorValid_of_passes⟩
    have found' : s.shadow.find .clip d.key = some i :=
      (find_recorded (e := e) (rest := rest) entry rfl rfl _ _).symm.trans found
    refine ⟨fun cut fetching passes => ?_, fun cut fetching fails => ?_, fun cut fading passes => ?_,
      fun queued passes room busy => ?_, fun queued passes empty idle => ?_, fun refused => ?_⟩
    · have begins := ends_cutBegins settled word kind start asked waits pinned found' requests posts cut fetching
        (valid_iff.2 passes)
      rw [words, descriptorOf_words] at begins
      exact begins
    · exact ends_cutRefused settled word kind start asked waits pinned found' requests posts cut fetching
        (fun k => fails (valid_iff.1 k))
    · have held := ends_cutHeld settled word kind start asked waits cut fading (valid_iff.2 passes)
      rw [words] at held
      exact held
    · have appended := ends_queued settled word kind start asked waits requests posts queued room busy (valid_iff.2 passes)
      rw [State.appended, StartRecord.queued, words, asked, pinned] at appended
      exact appended
    · have begins := ends_queueBegins settled word kind start asked waits pinned found' requests posts queued empty
        idle (valid_iff.2 passes)
      rw [words, descriptorOf_words] at begins
      exact begins
    · refine ends_startTurnedAway settled word kind start asked waits pinned found' requests posts fun t body held => ?_
      rcases refused with ⟨cut, fading, fails⟩ | ⟨queued, refused⟩
      · rw [resolveStart_invalid held cut fun k => fails (valid_iff.1 k)]
        refine if_neg ?_
        have state := congrArg ClipPlayer.state (clip_of_body (body_answerStart_refused (source := source)
          (body_dropStart_recorded word asked pinned found' body) posts))
        dsimp only at state
        rw [noted_refusedHost_player] at state
        exact fun fetching => nomatch (fading.symm.trans state.symm).trans fetching
      · refine resolveStart_turnsAway held queued (refused.imp (fun fails k => fails (valid_iff.1 k)) fun full => ?_)
        rw [clip_of_body body]
        exact full

end Sys2Proof.Machine
end
